-- ==== Sys2Proof/Word.lean ====
section
/-! DEFINITION. The plain words of the KP-7232: bytes, register words, grains, marks and the index types of its resources. -/

namespace Sys2Proof

/-- One byte. -/
abbrev Byte := BitVec 8
/-- One register word (R471: every register is one 64-bit word). -/
abbrev Word := BitVec 64
/-- A 40-bit register-space address (R470). -/
abbrev Addr := BitVec 40
/-- A grain (R39). -/
abbrev Grain := BitVec 72
/-- A mark: [7] suspect, [6] synthetic, [5:0] code (R43). Above them, [11:8] is the model's own: how many sample positions of a line's
ending grain the line leaves unused (R42, R44; log entry 33); no access from outside reads it. -/
abbrev Mark := BitVec 12
/-- A grain with its mark, as one queue slot holds them (R43). -/
abbrev Cell := Grain × Mark
/-- A queue ID, Q0x0000–Q0x7FFF (R3). -/
abbrev QId := Fin 32768
/-- A queue-memory slot number (R81). -/
abbrev Slot := Fin 8388608
/-- A sensor port, its trigger output and CCI master (R3). -/
abbrev Port := Fin 32
/-- A stream of a port, or of a resampler (R3). -/
abbrev Strm := Fin 4
/-- A partition P0–P15. -/
abbrev Part := Fin 16
/-- A context C0–C15. -/
abbrev Ctx := Fin 16
/-- A logical tile (R138). -/
abbrev TileId := Fin 256
/-- A DMA channel (R298). -/
abbrev Chan := Fin 512
/-- An uplink U0 or U1. -/
abbrev Uplink := Fin 2
/-- A flank link: 0 = FL, 1 = FR (R330). -/
abbrev Link := Fin 2

end Sys2Proof
end

