-- ==== Sys2Proof/Syntax.lean ====
section
/-! DEFINITION. The commands of the KP-7232 (one constructor per row of spec/opcode_table.json) and the messages they carry. -/

namespace Sys2Proof

/-- Which access path a host read or write takes (R480: KMP and the debug port each hold latches of their own). -/
inductive Path where
  | kmp
  | debug
  deriving DecidableEq, Repr

/-- Who makes a register or window access: a KMP partition (R350), or the debug port with P0's rights (R438). -/
structure Requester where
  part : Part
  path : Path
  deriving DecidableEq, Repr

/-- The part of a 64-bit word an access covers (R471). -/
inductive HalfAccess where
  | full
  | low
  | high
  deriving DecidableEq, Repr

/-- Outcome of the CSI-2 packet-header check (R99). -/
inductive HdrCheck where
  | ok
  | corrected
  | uncorrectable
  deriving DecidableEq, Repr

/-- An error that SEC-DED finds as a unit reads one grain of its pipeline buffers, or of a LUT page (R376, R377): corrected, or
uncorrectable (`double`). -/
structure BufErr where
  grain : Nat
  double : Bool
  deriving DecidableEq, Repr

/-- A CSI-2 long packet as it arrives at a port (R84, R95, R99). `overrun` says that the intake buffer overflowed
during it (R86), `bufferErrors` the grains of its line that met an uncorrectable intake-buffer error (R377), `corrected` those
that met a single-bit one (R376). -/
structure LongPacket where
  vc : Fin 32
  dt : BitVec 6
  hdr : HdrCheck
  payload : List Byte
  crcOk : Bool
  overrun : Bool
  bufferErrors : List Nat
  corrected : List Nat := []
  deriving DecidableEq, Repr

/-- Short packets that a port receives and ignores (R84). -/
inductive ShortKind where
  | lineStart
  | lineEnd
  | generic (code : Fin 8)
  deriving DecidableEq, Repr

/-- One CCI transaction (R102): a read or write of 1 to 4 bytes (`bytes` is the count minus 1). -/
structure CciTrans where
  read : Bool
  reg : BitVec 16
  bytes : Fin 4
  data : BitVec 32
  deriving DecidableEq, Repr

/-- A position sample (R118), field by field. -/
structure PosSample where
  seq : BitVec 8
  pos : BitVec 64
  frac : BitVec 32
  speed : BitVec 32
  status : BitVec 8
  seconds : BitVec 32
  nanos : BitVec 32
  nextBoundary : BitVec 48
  cause : BitVec 4
  block : BitVec 32
  origin : BitVec 64
  deriving DecidableEq, Repr

/-- A KMP message (R291), header fields, payload and tag, with the address it came from: an IPv4 one is below 2^32. -/
structure KmpMsg where
  opcode : Byte
  part : Byte
  destination : Byte
  source : Byte
  flags : Byte
  sequence : BitVec 64
  length : BitVec 16
  status : Byte
  payload : List Byte
  tag : List Byte
  peerIp : BitVec 128
  peerPort : BitVec 16
  deriving DecidableEq, Repr

/-- What a ring message carries (R313, R118, R132, R270, R297, R323, R325, R327, R329, R345). -/
inductive RingBody where
  | sample (s : PosSample)
  | sync (pin : Fin 2) (position : Int)
  | commitReady (tag : BitVec 32)
  | commitAnnounce (idle : Bool) (boundary : BitVec 48) (block : BitVec 32) (tag : BitVec 32) (mask : BitVec 64)
  | restepAnnounce (idle : Bool) (boundary : BitVec 48)
  | enumerate (row : Bool) (uid : BitVec 64) (map : BitVec 64) (onFl returning forced : Bool) (reserved : BitVec 64 := 0)
  | chainDone (count : BitVec 7) (map : BitVec 64) (closed : Bool)
  | presence
  | join
  | twinBeacon (live : Bool)
  | twinTraffic (m : KmpMsg)
  | kmp (m : KmpMsg)
  | event (part : Part) (rec : List Grain)
  deriving DecidableEq, Repr

/-- The sequence fields of the header of a received data frame (R311, R312): its seq, and its ack_seq where ack_valid is set. -/
structure FrameSeq where
  seq : BitVec 8
  ack : Option (BitVec 8)
  deriving DecidableEq, Repr

/-- A ring message: the header grain of R313 and what it carries; and, of one that arrives, the sequence fields of its frame (none: the next
in sequence, with no acknowledgement). -/
structure RingMsg where
  origin : BitVec 7
  destination : BitVec 7
  hops : BitVec 6
  msgId : BitVec 16
  broadcast : Bool
  channel : Fin 8
  body : RingBody
  frame : Option FrameSeq := none
  deriving DecidableEq, Repr

/-- A port that carries IEEE 1588 messages: U0, U1 or the chain (R335). -/
inductive PtpPort where
  | u0
  | u1
  | chain
  deriving DecidableEq, Repr

/-- The announced quality of a grandmaster, in the order the best-master algorithm compares it (R335). -/
structure GmQuality where
  priority1 : Byte
  clockClass : Byte
  accuracy : Byte
  variance : BitVec 16
  priority2 : Byte
  identity : BitVec 64
  stepsRemoved : BitVec 16
  deriving DecidableEq, Repr

/-- An IEEE 1588 message as the device uses it (R334–R340). `origin` is t1 of a Sync or Follow_Up, t4 of a Delay_Resp;
instants and corrections are in 2^-16 ns. `bytes` is the message as it came, which a time frame carries on (R337). -/
structure PtpMsg where
  majorVersion : Nat
  minorVersion : Nat
  sdoId : Nat
  domain : Byte
  transport : Fin 3
  master : BitVec 64
  sequence : BitVec 16
  twoStep : Bool
  correction : Int
  origin : Int
  requester : BitVec 64
  requesterPort : BitVec 16
  logInterval : Int
  quality : GmQuality
  bytes : List Byte := []
  deriving DecidableEq, Repr

/-- Which IEEE 1588 message a time-channel frame carries (R337). -/
inductive PtpKind where
  | sync
  | followUp
  | delayReq
  | delayResp
  | announce
  deriving DecidableEq, Repr

/-- A flank time-channel frame (R337): direction 0 is away from the root. -/
structure TimeFrame where
  towardsRoot : Bool
  hops : BitVec 6
  kind : PtpKind
  msg : PtpMsg
  frame : Option FrameSeq := none
  deriving DecidableEq, Repr

/-- The NAKs a queue pair may receive (R284, R285). -/
inductive NakKind where
  | sequence
  | rnr
  | remoteAccess
  | remoteOperation
  deriving DecidableEq, Repr

/-- Why a flank frame is discarded (R311, R312). -/
inductive FrameFault where
  | crc
  | reserved
  | outOfSequence
  deriving DecidableEq, Repr

/-- The strap pins (R400, R404, R420). -/
structure StrapPins where
  root : Bool
  row : Bool
  refsel : Bool
  boot : BitVec 2
  deriving DecidableEq, Repr

/-- What the boot flash holds when firmware is loaded (R419, R420): both boot-record copies and whether each
firmware slot passes its signature check. -/
structure BootRead where
  record0 : List Byte
  record1 : List Byte
  slotAOk : Bool
  slotBOk : Bool
  deriving DecidableEq, Repr

/-- Who presents a request (R70): a queue's port or tap, a unit that reads a table, a DMA channel, or maintenance. -/
inductive BankUser where
  | port (q : QId)
  | table (q : QId)
  | dma (ch : Chan)
  | maint
  deriving DecidableEq, Repr

/-- A request presented for a slot (R69, R70). -/
structure BankReq where
  user : BankUser
  slot : Slot
  deriving DecidableEq, Repr

/-- What a check of the configuration finds (R274, R275): an uncorrectable error in a copy's active half, a word of a copy or of a
working set that reads as another value. -/
inductive CfgFault where
  | lost (copy : Fin 3)
  | differs (copy : Fin 3) (addr : BitVec 48) (value : BitVec 64)
  | working (addr : BitVec 48) (value : BitVec 64)
  deriving DecidableEq, Repr

/-- The commands of the KP-7232, one constructor per row of spec/opcode_table.json. A last operand that says what a check found, or for how
many samples a level has held (log entry 70), may be left off: then nothing was found, and the level is new. -/
inductive Instr where
  /-- REGISTER_WRITE (R10): A KMP or debug write to a register field that has no row of its own takes effect under its access code. -/
  | registerWrite (who : Requester) (addr : Addr) (wide : Bool) (value : Word)
  /-- RC_READ (R10): A read of an RC field returns the field and clears it, keeping any increment made in the same fc. -/
  | rcRead (who : Requester) (addr : Addr) (wide : Bool) (coincident : List (Nat × Nat))
  /-- TIME_NOW_READ (R480): A 64-bit read of TIME_NOW, or a read of its low half, latches the whole timebase for the reads that follow. -/
  | timeNowRead (path : Path) (acc : HalfAccess)
  /-- TMB_TIME_READ (R480): A 64-bit read of TMB_TIME, or a read of its low half, latches TMB_TIME_NS. -/
  | tmbTimeRead (path : Path) (acc : HalfAccess)
  /-- QUEUE_WRITE (R57): A producer port write stores a grain and its mark at write_ptr and commits it unless line-commit mode holds it back. -/
  | queueWrite (q : QId) (g : Grain) (m : Mark)
  /-- QUEUE_DISCARD (R57): A producer discard sets write_ptr to commit_ptr, dropping the uncommitted line. -/
  | queueDiscard (q : QId)
  /-- QUEUE_READ (R60): A consumer read returns the grain at read_ptr and advances it, or returns the idle grain when fill is 0. -/
  | queueRead (q : QId)
  /-- QUEUE_MARK (R60): A consumer mark sets mark_ptr to read_ptr. -/
  | queueMark (q : QId)
  /-- QUEUE_REWIND (R60): A consumer rewind sets read_ptr back to mark_ptr. -/
  | queueRewind (q : QId)
  /-- QUEUE_RELEASE (R60): A consumer release sets release_ptr and mark_ptr to read_ptr and frees the slots between. -/
  | queueRelease (q : QId)
  /-- WRITE_WAIT_RESUME (R58): A write held because the queue was full proceeds once a release frees a slot. -/
  | writeWaitResume (q : QId)
  /-- BANK_ARBITRATION (R70): In each fc, each bank's arbiter serves one request station per direction by urgency, level, age and station number. -/
  | bankArbitration (bank : Fin 128) (write : Bool) (presented : List BankReq)
  /-- CONJUNCTION_SELECT (R76): A conjunction selects its next committed line by free or ordered mode and copies it whole, one grain per fc. -/
  | conjunctionSelect (c : Fin 1024)
  /-- CONJUNCTION_ROUND_TIMEOUT (R78): When an ordered round's timeout expires, the conjunction writes an ellipsis for each missing expected ordinal and moves to the next round. -/
  | conjunctionRoundTimeout (c : Fin 1024)
  /-- QUEUE_WINDOW_READ (R83): A queue-memory window read returns the slot image, correcting a single-bit error or failing with ECC on an uncorrectable one. -/
  | queueWindowRead (who : Requester) (addr : Addr) (wide : Bool)
  /-- QUEUE_WINDOW_WRITE (R82): A queue-memory window write updates part of a slot and recomputes its check bits, or fails with ECC on an uncorrectable slot. -/
  | queueWindowWrite (who : Requester) (addr : Addr) (wide : Bool) (value : Word)
  /-- TAP_COPY_RESUME (R237): A copy held in the tap's copy buffer is written once tap_q has room, which lets the source queue take writes again. -/
  | tapCopyResume (a : Fin 64)
  /-- LONG_PACKET (R95): A CSI-2 long packet is matched to a stream and trigger record, checked and written as a line of grains. -/
  | longPacket (port : Port) (pkt : LongPacket)
  /-- FRAME_START (R97): An FS short packet opens a frame of its virtual channel. -/
  | frameStart (port : Port) (vc : Fin 32)
  /-- FRAME_END (R97): An FE short packet closes the frame and, in per-trigger framing, the oldest open record of its virtual channel. -/
  | frameEnd (port : Port) (vc : Fin 32)
  /-- FRAME_TIMEOUT (R97): When frame_timeout passes after an FS without an FE, the port acts as if the FE had arrived and raises a LOG event. -/
  | frameTimeout (port : Port) (vc : Fin 32)
  /-- SHORT_PACKET_IGNORED (R84): A line start, line end or generic short packet is received and ignored. -/
  | shortPacketIgnored (port : Port) (vc : Fin 32) (kind : ShortKind)
  /-- DESKEW_BURST (R88): A D-PHY deskew burst enables packet acceptance after a link start and refreshes the per-lane skew trims. -/
  | deskewBurst (port : Port) (skew : List (BitVec 12))
  /-- TRIGGER_WINDOW_CLOSE (R96): A trigger record whose window closes with no line closes, and its missing lines become ellipses ending FAILED TIMEOUT. -/
  | triggerWindowClose (port : Port) (strm : Strm)
  /-- INTER_LINE_TIMEOUT (R96): A record with no new line for inter_line xc closes, and its missing lines end FAILED COUNT. -/
  | interLineTimeout (port : Port) (strm : Strm)
  /-- PORT_OWN_GRAIN_FLUSH (R481): Grains that wait in the port's own store are written once the output queue frees slots. -/
  | portOwnGrainFlush (port : Port) (strm : Strm)
  /-- CCI_CMD_GO (R104): Writing go issues a direct CCI read or write once the bus is free of exposure sets. -/
  | cciCmdGo (port : Port)
  /-- CCI_TRANSACTION_END (R105): A CCI transaction ends with its STOP, and the master starts the next transaction of a set or a direct command. -/
  | cciTransactionEnd (port : Port) (acked : Bool) (readData : BitVec 32)
  /-- CCI_STRETCH_TIMEOUT (R102): A clock stretch reaching stretch_timeout abandons the transaction, releases the bus and fails BUS_TIMEOUT. -/
  | cciStretchTimeout (port : Port)
  /-- CCI_TAKEOVER (R103): Writing takeover makes a listener CCI master active after 100 µs of bus idle. -/
  | cciTakeover (port : Port)
  /-- CCI_YIELD (R103): Writing role := 1 makes an active CCI master a listener. -/
  | cciYield (port : Port)
  /-- CCI_IDLE_WAIT_END (R103): After 100 µs with no bus activity, a listener that is due to take over becomes active. -/
  | cciIdleWaitEnd (port : Port)
  /-- CCI_BUS_OBSERVED (R109): A listener observes a bus transaction and matches it against its staged set. -/
  | cciBusObserved (port : Port) (tr : CciTrans) (acked : Bool) (readData : BitVec 32)
  /-- EXP_SLOT_ARM (R110): Writing arm stages an exposure set in a slot, subject to the refusal rules. -/
  | expSlotArm (port : Port) (slot : Fin 4)
  /-- EXP_SLOT_CANCEL (R110): Writing cancel ends an exposure set ABORTED unless its latch write has begun. -/
  | expSlotCancel (port : Port) (slot : Fin 4)
  /-- ENCODER_EDGE (R113): An encoder A or B edge accepted after the glitch filter moves the ×4 count. `held`: samples for
  which the new levels have been seen (R112). -/
  | encoderEdge (e : Fin 4) (a b : Bool) (held : BitVec 16 := 0)
  /-- Z_EDGE (R114): An accepted Z rising edge is checked against z_nominal and may anchor the grid. `held` as above. -/
  | zEdge (e : Fin 4) (held : BitVec 16 := 0)
  /-- ACCEL_WINDOW_END (R114): At the end of each accel_window, the counts of consecutive windows are compared. -/
  | accelWindowEnd (e : Fin 4)
  /-- ENC_STALL (R114): edge_timeout without an edge while the line runs fails the encoder with an ALARM. -/
  | encStall (e : Fin 4)
  /-- RUNNING_WRITE (R114): The host writes the running bit that serves as the running indication of ENC_STALL. -/
  | runningWrite (v : Bool)
  /-- RUNNING_PIN_CHANGE (R114): A change of the SYNA or SYNB level used as running_src asserts or deasserts the running indication. -/
  | runningPinChange (pin : Fin 2) (level : Bool)
  /-- XCHECK_SPAN_END (R116): At the end of each span of primary counts, the root compares the primary and secondary encoders and restarts both references. -/
  | xcheckSpanEnd
  /-- ENCODER_RESTART (R115): Writing restart clears the failed encoders, and the root restarts the grid under R135. -/
  | encoderRestart
  /-- POSITION_SAMPLE_TAKE (R118): At each microsecond instant, the root takes a position sample and sends it on both flank links. -/
  | positionSampleTake
  /-- POSITION_SAMPLE_RECEIVE (R119): A position sample ring message is received, duplicate-checked, forwarded and stored for application. -/
  | positionSampleReceive (link : Link) (msg : RingMsg)
  /-- POSITION_SAMPLE_APPLY (R119): At t_k + apply_delay, a device applies the sample to its model and re-times pending events. -/
  | positionSampleApply
  /-- POSITION_HOLDOVER (R121): A follower with no sample applied for 10 instants enters position holdover with a LOG event. -/
  | positionHoldover
  /-- TRIGGER_STOP (R121): 100 µs after entering holdover without fresh samples, a device stops triggering and raises an ALARM. -/
  | triggerStop
  /-- STOP_BLOCK_END (R135): After a stop, each port ends the open block with a bare full stop once its pending trigger records have closed. -/
  | stopBlockEnd (port : Port)
  /-- TRIGGER_FIRE (R126): When the model reaches a grid line's trigger point, the head's trigger pulse fires and opens trigger records. -/
  | triggerFire (head : Port)
  /-- TRIGGER_PULSE_END (R126): A trigger pulse ends after trg_width ns. -/
  | triggerPulseEnd (head : Port)
  /-- MIDPOINT_CAPTURE (R128): At pin instant + mid_offset, Marionette captures the model position into the trigger record. -/
  | midpointCapture (head : Port)
  /-- STROBE_START (R130): A strobe goes active at the predicted line instant plus start. -/
  | strobeStart (strobe : Fin 16)
  /-- STROBE_END (R130): A strobe goes inactive after width ns, unless a following activation merges with it. -/
  | strobeEnd (strobe : Fin 16)
  /-- RUN_SET (R125): P0 sets run, and the root anchors and starts the grid at index 0, block 0, cause 4. -/
  | runSet
  /-- RUN_CLEAR (R478): P0 clears run, and every device stops triggering when it applies the first sample with status [5] clear. -/
  | runClear
  /-- SYNC_EDGE (R132): A SYNA or SYNB edge accepted after min_width is sent to the root as a SYNC message. The new levels of the
  pins that changed, first seen `held` samples ago; that of SYNB `heldB` samples ago where the two changed apart. -/
  | syncEdge (syna synb : Option Bool) (held : BitVec 16 := 0) (heldB : Option (BitVec 16) := none)
  /-- SYNC_MESSAGE (R133): The root receives an edge position and moves or forces the next boundary, or ignores the edge. -/
  | syncMessage (link : Link) (msg : RingMsg)
  /-- KMP_SYNC (R132): A KMP SYNC message counts as an edge at its carried position or at the model position on reception. -/
  | kmpSync (u : Uplink) (msg : KmpMsg)
  /-- RATE_WRITE (R136): A write to MARN_RATE changes the rate generator at the next sample instant. -/
  | rateWrite (rate : BitVec 32)
  /-- MID_OFFSET_NEXT_WRITE (R128): A write to mid_offset_next sets a pending midpoint offset that applies at the next generation change or start. -/
  | midOffsetNextWrite (head : Port) (v : BitVec 20)
  /-- TILE_LINE (R142): A tile processes one visible line through its fused operators and writes it to out_q. `errs` are
  the data grains of the line that met an error in the tile's buffers, `pages` the errors that its LUT pages have taken, by 1024 × page + grain. -/
  | tileLine (t : TileId) (mismatch : Option (Fin 4)) (errs : List BufErr := []) (pages : List BufErr := [])
  /-- UNDERSTUDY_REPLAY (R385): An understudy, or the tile itself, replays a rewound line from its checkpoint; errors as in
  TILE_LINE. -/
  | understudyReplay (t : TileId) (mismatch : Option (Fin 4)) (errs : List BufErr := []) (pages : List BufErr := [])
  /-- TILE_COMMIT_ARM (R167): Writing arm in TILE_COMMIT_CTL arms the shadow-bank commit, unless the shadow is invalid or a commit is armed. -/
  | tileCommitArm (t : TileId)
  /-- TILE_COMMIT_CANCEL (R167): Writing cancel ends an armed tile commit as cancelled. -/
  | tileCommitCancel (t : TileId)
  /-- TILE_BANK_COPY (R172): Writing copy loads the tile's shadow from active bank src, unless a commit is armed. -/
  | tileBankCopy (t : TileId)
  /-- LUT_PAGE_LOAD (R168): Writing go starts copying 1,024 grains into a LUT page, or refuses if the page is in use. -/
  | lutPageLoad (t : TileId)
  /-- LUT_LOAD_DONE (R168): A LUT page load finishes and its status reads done. -/
  | lutLoadDone (t : TileId)
  /-- KAL_INPUT_COPY (R188): A Kaleidoscope unit copies each input line into its scratch ring and releases it on in_q. -/
  | kalInputCopy (u : Fin 32)
  /-- KAL_SET_EMIT (R186): Once group j + Δ has committed or the block ends, the unit computes aligned set j and writes every output plane.
  `errs` are the data grains of the set that met an error in the unit's buffers. -/
  | kalSetEmit (u : Fin 32) (c : Ctx) (mismatches : Fin 3) (errs : List BufErr := [])
  /-- KAL_COMMIT_ARM (R189): Writing arm in KAL_COMMIT_CTL arms the Kaleidoscope shadow commit, subject to the shadow checks. -/
  | kalCommitArm (u : Fin 32)
  /-- KAL_COMMIT_CANCEL (R189): Writing cancel ends an armed Kaleidoscope commit. -/
  | kalCommitCancel (u : Fin 32)
  /-- KAL_BANK_COPY (R192): Writing copy loads the Kaleidoscope shadow from an active bank. -/
  | kalBankCopy (u : Fin 32)
  /-- PGR_INPUT_COPY (R209): A resampler stream copies each input line into its ring and releases it on in_q. -/
  | pgrInputCopy (u : Fin 32) (strm : Strm)
  /-- PGR_OUTPUT_EMIT (R208): Once line n + Δ × S_c has committed or the block ends, the resampler computes and writes output n.
  `errs` are the data grains of the output line that met an error in the unit's buffers. -/
  | pgrOutputEmit (u : Fin 32) (strm : Strm) (mismatches : Fin 3) (errs : List BufErr := [])
  /-- PGR_COMMIT_ARM (R211): Writing arm in PGR_COMMIT_CTL arms the resampler shadow commit, subject to the shadow checks. -/
  | pgrCommitArm (u : Fin 32)
  /-- PGR_COMMIT_CANCEL (R211): Writing cancel ends an armed resampler commit. -/
  | pgrCommitCancel (u : Fin 32)
  /-- PGR_BANK_COPY (R213): Writing copy loads the resampler shadow from an active bank. -/
  | pgrBankCopy (u : Fin 32)
  /-- ROUND_OPEN (R217): A Jigsaw round opens at the first commit of a line or ellipsis of its grid index on any side. -/
  | roundOpen (j : Fin 16)
  /-- ROUND_READY (R218): When every expected side that is not behind has delivered, the Jigsaw unit blends and writes the round's output line.
  `errs` are the data grains of the output line that met an error in the unit's buffers. -/
  | roundReady (j : Fin 16) (mismatches : Fin 3) (errs : List BufErr := [])
  /-- SEAM_DEADLINE (R218): At seam_deadline, undelivered sides become absent and behind, and the round is made ready. -/
  | seamDeadline (j : Fin 16)
  /-- COLLECTOR_ROUND (R231): A collector emits the round's lines in ascending ordinal as they commit. -/
  | collectorRound (j : Fin 16)
  /-- COLLECTOR_DEADLINE (R231): At a round's deadline, the collector closes the round, writing ellipses for missing lines. -/
  | collectorDeadline (j : Fin 16)
  /-- BLOCK_DEADLINE (R232): At the block deadline, inputs not yet ended are treated as ended and the block closes. -/
  | blockDeadline (j : Fin 16)
  /-- ABACUS_LINE (R251): An Abacus unit reads one line, updates its accumulators, histograms and references, and writes candidate records.
  `errs` are the data grains of the line that met an error in the unit's buffers. -/
  | abacusLine (a : Fin 64) (mismatches : Fin 3) (errs : List BufErr := [])
  /-- ABACUS_RESEED (R248): Writing a reseed bit makes the context's next line reseed the screening reference. -/
  | abacusReseed (a : Fin 64) (mask : BitVec 16)
  /-- LOAD_START (R265): Writing load_start opens the image buffer for a KMP load, or is refused BUSY or FROZEN. -/
  | loadStart (p : Part) (partImage : Bool)
  /-- LOAD_END (R264): Writing load_end starts the checks of the loaded image. -/
  | loadEnd (p : Part)
  /-- IMAGE_DISCARD (R276): Writing discard drops the staged image, unless ready has been sent. -/
  | imageDiscard (p : Part)
  /-- IMAGE_CHUNK (R292): A KMP IMAGE_CHUNK appends image bytes at the expected offset. -/
  | imageChunk (u : Uplink) (msg : KmpMsg)
  /-- IMAGE_CHECKS_DONE (R264): The image checks finish, and the image is staged OK or refused with a result code. -/
  | imageChecksDone (bufferError : Option (BitVec 24) := none)
  /-- CHAIN_COMMIT_REQUEST (R270): Writing commit at the root starts a chain commit that waits for ready messages. -/
  | chainCommitRequest
  /-- COMMIT_READY_MESSAGE (R270): The root receives a ready message, and once all masked devices are ready it claims and announces a boundary. -/
  | commitReadyMessage (link : Link) (msg : RingMsg)
  /-- COMMIT_READY_TIMEOUT (R271): If ready messages are missing after ready_timeout, the request fails NOT_READY with an ALARM. -/
  | commitReadyTimeout
  /-- COMMIT_ANNOUNCEMENT (R272): A device receives the commit announcement naming b and the tag, and stages its configuration copies. -/
  | commitAnnouncement (link : Link) (msg : RingMsg)
  /-- CHAIN_COMMIT_SWITCH (R272): When the model passes pos(b), the device switches copy generations, writes the commit record and lets units switch. -/
  | chainCommitSwitch
  /-- QUEUE_DISABLE_SWITCH (R272): A queue disabled by a commit is retired once its users have switched and it has been released to its last block end. -/
  | queueDisableSwitch (q : QId)
  /-- CONFIG_CHECK (R275): The checker votes the three configuration copies and the working sets, and repairs them. -/
  | configCheck (found : List CfgFault := [])
  /-- ROLLBACK_BURN (R262): Writing burn raises the rollback fuse count to target, or reads refused. -/
  | rollbackBurn
  /-- ROLLBACK_BURN_DONE (R262): The fuse burn finishes and burn_status reads done. -/
  | rollbackBurnDone
  /-- KEY_REVOKE (R262): Writing revoke permanently revokes a key slot. -/
  | keyRevoke (mask : BitVec 4)
  /-- UPLINK_SIGNAL_DETECT (R279): Signal on every lane moves the uplink from DETECT to TRAIN. -/
  | uplinkSignalDetect (u : Uplink)
  /-- UPLINK_TRAINED (R279): Every lane trained moves the uplink to ALIGN. -/
  | uplinkTrained (u : Uplink)
  /-- UPLINK_ALIGNED (R279): Lane lock, FEC alignment and deskew move the uplink to RUN. -/
  | uplinkAligned (u : Uplink)
  /-- UPLINK_TRAIN_TIMEOUT (R279): TRAIN times out after 500 ms with a LOG event. -/
  | uplinkTrainTimeout (u : Uplink)
  /-- UPLINK_ALIGN_TIMEOUT (R279): ALIGN times out after 50 ms with a LOG event. -/
  | uplinkAlignTimeout (u : Uplink)
  /-- UPLINK_REDETECT_WAIT_END (R279): The 1 s wait after a timeout ends and the uplink returns to DETECT. -/
  | uplinkRedetectWaitEnd (u : Uplink)
  /-- UPLINK_LEAVE_RUN (R279): Loss of alignment takes the uplink out of RUN to DETECT with an ALARM. -/
  | uplinkLeaveRun (u : Uplink)
  /-- UPLINK_FEC_LIMIT (R279): Uncorrectable codewords above fec_limit in 1 ms take the uplink out of RUN. -/
  | uplinkFecLimit (u : Uplink) (codewords : Nat) (corrected : Nat := 0)
  /-- PFC_FRAME (R280): A received PFC frame pauses or resumes a priority at its next frame boundary. -/
  | pfcFrame (u : Uplink) (prio : Fin 8) (pause : Bool)
  /-- PFC_WATCHDOG (R280): A priority paused for pfc_watchdog ms raises an ALARM and counts in pfc_stuck. -/
  | pfcWatchdog (u : Uplink) (prio : Fin 8)
  /-- PAUSE_FRAME (R277): An 802.3x PAUSE frame is received, counted and ignored. -/
  | pauseFrame (u : Uplink)
  /-- FRAME_DISCARD (R278): A received frame of no supported protocol, with a second tag, an IP fragment or a RoCE request is discarded and counted. -/
  | frameDiscard (u : Uplink)
  /-- ARP_REQUEST (R277): An ARP request for the uplink's own address is answered with a reply. -/
  | arpRequest (u : Uplink) (target : BitVec 32) (senderMac : BitVec 48) (senderIp : BitVec 32)
  /-- NEIGHBOUR_SOLICITATION (R277): An IPv6 neighbour solicitation for the uplink's own address is answered with an advertisement. -/
  | neighbourSolicitation (u : Uplink) (target : BitVec 128) (senderMac : BitVec 48) (senderIp : BitVec 128)
  /-- CNP_RECEIVE (R281): A received CNP cuts the queue pair's send rate, at most once per cnp_interval. -/
  | cnpReceive (u : Uplink) (ch : Chan)
  /-- RATE_RECOVER (R281): Every recover_us without a CNP, the queue pair's rate rises by step. -/
  | rateRecover (u : Uplink) (ch : Chan)
  /-- ROCE_ACK (R282): A RoCE acknowledgement releases acknowledged records, sends due notices and completes descriptors. -/
  | roceAck (u : Uplink) (ch : Chan) (psn : BitVec 24)
  /-- ROCE_NAK (R285): A sequence or RNR NAK triggers go-back-N, and a remote access or operation error NAK puts the queue pair in ERROR. -/
  | roceNak (u : Uplink) (ch : Chan) (psn : BitVec 24) (kind : NakKind)
  /-- ROCE_RETRY_TIMEOUT (R285): No acknowledgement within the retry timeout retransmits from the oldest unacknowledged PSN. -/
  | roceRetryTimeout (u : Uplink) (ch : Chan)
  /-- DWRR_VISIT (R352): The uplink visits a partition in deficit round robin and sends its ready packets. -/
  | dwrrVisit (u : Uplink) (struck : List Nat := [])
  /-- DESCRIPTOR_PUSH (R298): Writing word 3 of DMA_DESC_PUSH appends a four-grain descriptor, or is refused when desc_q is full. -/
  | descriptorPush (ch : Chan) (word3 : Word)
  /-- CHANNEL_ENABLE (R307): Writing enable := 1 lets a channel run. -/
  | channelEnable (ch : Chan)
  /-- CHANNEL_DISABLE (R307): Writing enable := 0 disables a channel at once, ending its started descriptors ABORTED. -/
  | channelDisable (ch : Chan)
  /-- QP_CONNECT (R284): Writing connect moves a queue pair from RESET or ERROR to RTS. -/
  | qpConnect (ch : Chan) (u : Uplink)
  /-- CHANNEL_READY (R301): A channel becomes ready on paced_high or a committed block end, and starts a descriptor. -/
  | channelReady (ch : Chan)
  /-- LINE_RECORD_ASSEMBLE (R300): A running remote descriptor reads the next line and assembles and places its line record. -/
  | lineRecordAssemble (ch : Chan)
  /-- LOCAL_DESCRIPTOR_COPY (R305): A local descriptor copies slots between table regions and ends DONE when the last slot is written. -/
  | localDescriptorCopy (ch : Chan)
  /-- KMP_HELLO (R292): An unauthenticated HELLO is answered with the part code, stepping, chain address and session nonces. -/
  | kmpHello (u : Uplink) (msg : KmpMsg)
  /-- KMP_READ32 (R292): A READ32 request reads a burst of 32-bit words. -/
  | kmpRead32 (u : Uplink) (msg : KmpMsg)
  /-- KMP_READ64 (R292): A READ64 request reads a burst of 64-bit words. -/
  | kmpRead64 (u : Uplink) (msg : KmpMsg)
  /-- KMP_WRITE32 (R292): A WRITE32 request writes a burst of 32-bit words. -/
  | kmpWrite32 (u : Uplink) (msg : KmpMsg)
  /-- KMP_WRITE64 (R292): A WRITE64 request writes a burst of 64-bit words. -/
  | kmpWrite64 (u : Uplink) (msg : KmpMsg)
  /-- KMP_UNKNOWN_OPCODE (R296): A request with an unsupported opcode is answered with status OPCODE. -/
  | kmpUnknownOpcode (u : Uplink) (msg : KmpMsg)
  /-- KMP_RELAY_MESSAGE (R297): A relayed KMP request or response arrives on the ring and is executed at the destination or returned with relayed set. -/
  | kmpRelayMessage (link : Link) (msg : RingMsg)
  /-- KMP_RELAY_TIMEOUT (R297): No relayed response within kmp_relay_timeout answers UNREACHABLE. -/
  | kmpRelayTimeout
  /-- FLANK_HEADERS_SEEN (R318): The partner's training headers on all lanes move the link from DETECT to POLARITY. -/
  | flankHeadersSeen (l : Link) (partner : BitVec 7) (rates : Option (Fin 3 × Fin 3) := none)
  /-- FLANK_POLARITY_SETTLED (R318): Every lane's polarity is settled and the link moves to LANE_ORDER. -/
  | flankPolaritySettled (l : Link) (inverted : BitVec 4)
  /-- FLANK_LANE_ORDER_FOUND (R318): Four distinct lane IDs are mapped and the link moves to EQUALISE. -/
  | flankLaneOrderFound (l : Link) (laneMap : BitVec 8)
  /-- FLANK_EQUALISE_RESULT (R318): Equalisation meets the eye margin and moves to ALIGN, or falls to the next lower common rate. -/
  | flankEqualiseResult (l : Link) (marginMet : Bool) (partnerMax partnerMin : Fin 3)
  /-- FLANK_ALIGNED (R318): Alignment and FEC lock move the link to RUN, with sequences reset and backoff cleared. -/
  | flankAligned (l : Link)
  /-- FLANK_STATE_TIMEOUT (R318): A training state's timeout fails the attempt. -/
  | flankStateTimeout (l : Link)
  /-- FLANK_BACKOFF_END (R320): A DOWN link's backoff wait ends and it starts a new attempt. -/
  | flankBackoffEnd (l : Link)
  /-- FLANK_LEAVE_RUN (R321): Lost lock, the retry limit, a CRC burst or partner training takes the link out of RUN with an ALARM. -/
  | flankLeaveRun (l : Link)
  /-- FLANK_FRAME_SEND (R313): At a frame boundary, the link sends the highest-priority waiting channel's frame. -/
  | flankFrameSend (l : Link)
  /-- FLANK_ACK_FRAME (R312): An acknowledgement-only frame acknowledges data frames up to ack_seq. -/
  | flankAckFrame (l : Link) (ackSeq : BitVec 8)
  /-- FLANK_NAK_FRAME (R312): A NAK makes the sender retransmit every unacknowledged frame. -/
  | flankNakFrame (l : Link) (ackSeq : BitVec 8)
  /-- FLANK_FRAME_DISCARD (R311): A frame failing its CRC, reserved, or out of sequence is discarded, and a NAK may be sent. -/
  | flankFrameDiscard (l : Link) (reason : FrameFault)
  /-- FLANK_ACK_TIMEOUT (R312): No acknowledgement for ack_timeout ns retransmits the unacknowledged frames. -/
  | flankAckTimeout (l : Link)
  /-- SEAM_COPY_RECEIVE (R317): A seam-channel frame is written into rx_q, or discarded and counted when rx_q is full. -/
  | seamCopyReceive (l : Link) (k : Fin 16) (cells : List Cell) (frame : Option FrameSeq := none)
  /-- ENUMERATE_MESSAGE (R325): An enumerate message assigns or keeps the device's position and travels on along the row. -/
  | enumerateMessage (link : Link) (msg : RingMsg)
  /-- CHAIN_DONE_MESSAGE (R325): The chain-done message sets chain_count and the assigned map. -/
  | chainDoneMessage (link : Link) (msg : RingMsg)
  /-- ENUM_TIMEOUT (R326): No enumerate message within enum_timeout fails enumeration with NO_ROOT. -/
  | enumTimeout
  /-- RENUMBER (R325): Writing renumber at the root runs enumeration, keeping sticky positions. -/
  | renumber
  /-- FORCE_RENUMBER (R328): Writing force_renumber clears sticky positions and renumbers in physical order, unless run is set. -/
  | forceRenumber
  /-- PRESENCE_SEND (R327): Every 1 ms, a device with a position sends a presence message both ways. -/
  | presenceSend
  /-- PRESENCE_MESSAGE (R327): The root receives a presence message and marks the device present. -/
  | presenceMessage (link : Link) (msg : RingMsg)
  /-- DEVICE_ABSENT (R327): A device with no presence message for 10 ms becomes absent. -/
  | deviceAbsent (position : Fin 64)
  /-- JOIN_SEND (R327): Every 100 ms, a device without a position sends a join message. -/
  | joinSend
  /-- JOIN_MESSAGE (R327): The root's first join received starts an enumeration. -/
  | joinMessage (link : Link) (msg : RingMsg)
  /-- TWIN_BEACON_SEND (R329): Every 1 ms, a device sends its twin state on the twin control channel. -/
  | twinBeaconSend
  /-- TWIN_BEACON (R329): A received twin-state beacon updates FLK_TWIN_MAP. -/
  | twinBeacon (link : Link) (msg : RingMsg)
  /-- TWIN_LOST (R329): No twin traffic for twin_timeout makes the twin lost with an ALARM, and a listener CCI master takes over. -/
  | twinLost
  /-- EVENT_RELAY_MESSAGE (R323): A device with an uplink in RUN takes a relayed event or twin message and sends it from its own uplinks. -/
  | eventRelayMessage (link : Link) (msg : RingMsg)
  /-- PTP_SYNC (R340): A PTP Sync is timestamped and used by the servo and chain relay. -/
  | ptpSync (port : PtpPort) (msg : PtpMsg)
  /-- PTP_FOLLOW_UP (R338): A Follow_Up supplies the two-step origin timestamp and correction. -/
  | ptpFollowUp (port : PtpPort) (msg : PtpMsg)
  /-- PTP_DELAY_RESP (R340): A Delay_Resp completes a measurement of offset and path delay for the servo. -/
  | ptpDelayResp (port : PtpPort) (msg : PtpMsg)
  /-- PTP_ANNOUNCE (R335): An Announce feeds the best-master algorithm. -/
  | ptpAnnounce (port : PtpPort) (msg : PtpMsg)
  /-- PTP_DISCARD (R334): An unsupported PTP message, version, domain or excess Sync is discarded and counted. -/
  | ptpDiscard (port : PtpPort)
  /-- DELAY_REQ_SEND (R334): At its interval, the device sends a Delay_Req. -/
  | delayReqSend
  /-- ANNOUNCE_TIMEOUT (R335): announce_timeout intervals without an Announce lose the port's master. -/
  | announceTimeout (u : Uplink)
  /-- TIME_FRAME (R337): A PTP message on the flank time channel is measured, corrected and forwarded per hop. -/
  | timeFrame (link : Link) (frame : TimeFrame)
  /-- TIME_PORT_TIMEOUT (R338): With no direction-0 Sync for 1 s, the follower's time port reverts to FL or FR. -/
  | timePortTimeout
  /-- TIME_SOURCE_SELECT (R339): In each Sync interval, the device chooses its time source, logging any change. -/
  | timeSourceSelect
  /-- RESTEP_REQUEST (R345): P0 writing restep at the root claims the next boundary for a re-step. -/
  | restepRequest
  /-- RESTEP_ANNOUNCEMENT (R345): A device receives the re-step announcement, and steps at once when the grid is not running. -/
  | restepAnnouncement (link : Link) (msg : RingMsg)
  /-- RESTEP_APPLY (R345): At pos(b), the device steps its timebase by its offset estimate and increments the epoch. -/
  | restepApply
  /-- TIME_WAIT_TIMEOUT (R346): time_wait passing without LOCKED ends the TIME state with an ALARM. -/
  | timeWaitTimeout
  /-- PARTITION_DRAIN (R369): Writing drain lets a partition finish its open items and stop. -/
  | partitionDrain (p : Part)
  /-- PARTITION_ABORT (R370): Writing abort stops a partition at once and ends its open items ABORTED. -/
  | partitionAbort (p : Part)
  /-- PARTITION_RESUME (R372): Writing resume restarts a STOPPED partition at the next announced boundary. -/
  | partitionResume (p : Part)
  /-- DRAIN_TIMEOUT (R369): A drain not STOPPED after drain_timeout becomes an abort. -/
  | drainTimeout (p : Part)
  /-- PARTITION_STOPPED (R371): When no item of the partition remains open, it reaches STOPPED and raises cause 4. -/
  | partitionStopped (p : Part)
  /-- NOTICE_SEND (R356): A sendable notice is sent as a KMP NOTICE within the notice bandwidth limits. -/
  | noticeSend (p : Part)
  /-- NOTICE_RETRY (R356): An unacknowledged notice is sent again every retry ms. -/
  | noticeRetry (p : Part) (noticeId : BitVec 32)
  /-- NOTICE_ACK (R356): A KMP NOTICE_ACK clears the pending notice that it names. -/
  | noticeAck (u : Uplink) (msg : KmpMsg)
  /-- NOTICE_ACK_WRITE (R356): Writing a notice_id to PART_NOTICE_ACK acknowledges that notice. -/
  | noticeAckWrite (p : Part) (noticeId : BitVec 32)
  /-- COMPLETION_WRITER_RESUME (R365): A stalled completion writer writes its buffered records once cq_q has room. -/
  | completionWriterResume (p : Part)
  /-- WARM_RESET_REQUEST (R374): Writing warm with confirm 0xC5 starts a device warm reset. -/
  | warmResetRequest (confirm : Byte)
  /-- COLD_RESET_REQUEST (R368): Writing cold with confirm 0xC5 starts a device cold reset. -/
  | coldResetRequest (confirm : Byte)
  /-- TMB_PARTITION_ABORT (R445): Writing an abort bit of TMB_RESET aborts that partition. -/
  | tmbPartitionAbort (mask : BitVec 16)
  /-- TMB_ABORT_TIMEOUT (R445): A TMB abort not STOPPED within 1 ms becomes a device warm reset. -/
  | tmbAbortTimeout (p : Part)
  /-- WARM_FLUSH_END (R374): After warm_flush ms, the Tumbler resets the rest of the device and advances the session number. -/
  | warmFlushEnd
  /-- SCRUB_READ (R378): Every scrub_period xc, the scrubber reads the next queue-memory slot. -/
  | scrubRead (found : Fin 3 := 0)
  /-- SCRUB_WRITEBACK (R379): The scrubber writes a corrected slot back, or abandons the write-back if a newer write reached the slot. -/
  | scrubWriteback
  /-- CHECK_GO (R381): Writing go loads init and starts a check-unit scan, or refuses with RANGE. -/
  | checkGo (u : Fin 64)
  /-- CHECK_PAUSE (R382): Writing pause stops the scan after the slot in progress. -/
  | checkPause (u : Fin 64)
  /-- CHECK_RESUME (R382): Writing resume continues the scan after the last slot fed. -/
  | checkResume (u : Fin 64)
  /-- CHECK_SCAN_SLOT (R383): The scan reads and feeds one slot, and stops done or with ECC. -/
  | checkScanSlot (u : Fin 64)
  /-- TWIN_DIGEST_SEND (R389): The device sends a TWIN_DIGEST message when 67 entries wait or twin_batch expires. -/
  | twinDigestSend
  /-- TWIN_HEARTBEAT (R329): In each 1 ms without other twin traffic, the device sends an empty TWIN_DIGEST. -/
  | twinHeartbeat
  /-- TWIN_DIGEST (R390): A received TWIN_DIGEST is matched against own entries and compared. -/
  | twinDigest (source : BitVec 7) (msg : KmpMsg)
  /-- DIGEST_ENTRY_EXPIRE (R390): An entry unmatched after twin_window is counted in unmatched. -/
  | digestEntryExpire
  /-- EVENT_TOKEN_REFILL (R395): Each source's token bucket gains evt_rate tokens per ms, and a waiting summary record is written. -/
  | eventTokenRefill (kind : Fin 16) (inst : BitVec 16)
  /-- ALARM_HOLDOFF_EXPIRE (R395): alarm_holdoff ends and the ALARM condition may write a record again. -/
  | alarmHoldoffExpire (condition : BitVec 8)
  /-- EVENT_PUSH (R398): A KMP EVENT message is pushed when 29 records wait or 100 µs after the oldest. -/
  | eventPush (p : Part)
  /-- ALARM_CLEAR (R397): P0 clears alarm summary bits by W1C, which may deassert the ALARM pin. -/
  | alarmClear (i : Fin 4) (mask : Word) (coincident : Word)
  /-- EVENT_TAIL_WRITE (R394): A write of INTG_EVT_TAIL advances the ring tail, or is ignored beyond head. -/
  | eventTailWrite (p : Part) (tail : BitVec 13)
  /-- REF_SOURCE_LOST (R406): A reference source with no edge for 1 µs or 16 bad periods is lost, and PLLs hold or fall back. -/
  | refSourceLost (src : Fin 2)
  /-- REF_SOURCE_PRESENT (R405): 1,000 good periods make a source present again. -/
  | refSourcePresent (src : Fin 2)
  /-- REF_ABSENT_HOLD (R406): No source 100 µs after a loss holds the device in warm reset until a source returns. -/
  | refAbsentHold
  /-- PLL_BAND_HELD (R408): A PLL held within ±0.5 % for 10 µs returns its island from the haven clock. -/
  | pllBandHeld (island : Fin 521)
  /-- PLL_ATTEMPT_TIMEOUT (R408): A relock not done in 1 ms resets the PLL, and three failures keep the island on the haven clock with an ALARM. -/
  | pllAttemptTimeout (island : Fin 521)
  /-- FREQUENCY_GUARD_TRIP (R410): A too-short PLL period is withheld and the island moves to the haven clock with an ALARM. -/
  | frequencyGuardTrip (island : Fin 521)
  /-- TEMP_SAMPLE (R411): Every 100 µs the temperature sensors are sampled and checked against their thresholds. -/
  | tempSample (readings : List (BitVec 12))
  /-- VMON_SAMPLE (R412): Every 10 µs the voltage monitors are sampled, and a rail out of range raises an ALARM. -/
  | vmonSample (readings : List (BitVec 12))
  /-- CLOCK_MEASURE (R423): Writing go measures the selected island's PLL frequency over 1,024 xc. -/
  | clockMeasure
  /-- CLOCK_MEASURE_DONE (R423): The frequency measurement ends and CLK_MEAS is updated. -/
  | clockMeasureDone (khz : BitVec 22)
  /-- CAL_RUN (R414): Writing run starts a calibration of the block, or sets pending. -/
  | calRun (b : Fin 62)
  /-- CAL_PERIOD_EXPIRE (R414): cal_period after its last start, a block calibrates again. -/
  | calPeriodExpire (b : Fin 62)
  /-- CAL_PRECONDITION_MET (R414): A block last ended PRECONDITION starts again when its precondition is first met. -/
  | calPreconditionMet (b : Fin 62)
  /-- CAL_MEASURE_DONE (R415): Measuring ends and the block applies its codes, or ends LIMIT with an ALARM. -/
  | calMeasureDone (b : Fin 62) (codes : List Int)
  /-- CAL_TIMEOUT (R415): A precondition unmet at the timeout ends the run PRECONDITION. -/
  | calTimeout (b : Fin 62)
  /-- CAL_TRIM_STEP (R415): Each µs of the applying phase, every trim steps one LSB, and the run ends SUCCESS when all reach target. -/
  | calTrimStep (b : Fin 62)
  /-- POWER_UP (R422): Power-up enters the POWER state with the flank lanes in repeater mode. -/
  | powerUp (straps : StrapPins)
  /-- RESET_PIN (R400): RESET_N low for 16 xc samples starts a device cold reset. -/
  | resetPin
  /-- RESET_RELEASE (R422): RESET released with all monitors in range moves start-up to TUMBLER. -/
  | resetRelease
  /-- STRAPS_LATCH (R400): The straps are latched after 64 equal xc samples. -/
  | strapsLatch
  /-- FIRMWARE_LOADED (R420): Firmware is read and checked from a slot or ROM, and start-up moves to SELFTEST. -/
  | firmwareLoaded (boot : BootRead)
  /-- SELFTEST_DONE (R384): Self-test assigns understudies to failed tiles and start-up moves to CALIBRATE. -/
  | selftestDone (failedTiles : List (Fin 272)) (badMemory : Option Byte)
  /-- LINKS_WAIT_TIMEOUT (R422): links_wait expires and start-up continues. -/
  | linksWaitTimeout
  /-- BOOT_IMAGE_LOADED (R420): The boot image is read from flash and checked. -/
  | bootImageLoaded (slotA slotB : List Byte) (bufferError : Option (Fin 2 × BitVec 24) := none)
  /-- VIO18_LOSS (R455): Loss of VIO18 is a device cold reset. -/
  | vio18Loss
  /-- VSER_LOSS (R455): Loss of VSER09 or VSER12 ends repeater mode and every link. -/
  | vserLoss
  /-- CORE_REPORT (R428): A steward core reports to the Tumbler and restarts its watchdog. -/
  | coreReport (core : Fin 4)
  /-- CORE_WATCHDOG (R428): A core missing its report is restarted with its firmware reloaded, with an ALARM. -/
  | coreWatchdog (core : Fin 4)
  /-- FABRIC_HEARTBEAT (R429): The queue-memory island's heartbeat restarts the fabric watchdog. -/
  | fabricHeartbeat
  /-- FABRIC_WEDGE (R429): No heartbeat for fabric_timeout declares the device wedged and starts a warm reset. -/
  | fabricWedge
  /-- THERMAL_TRIP (R431): A sensor reaching 115 °C holds the device in reset, gates its clocks and enters repeater mode. -/
  | thermalTrip
  /-- THERMAL_RESUME (R431): Every sensor below thermal_resume for 10 s re-enters start-up at FIRMWARE. -/
  | thermalResume
  /-- REPEATER_FORCE (R432): P0 writing force enters or releases repeater mode. -/
  | repeaterForce (v : Bool)
  /-- TAP_RESET (R436): TRST_N or five TCK cycles with TMS high reset the TAP controller. -/
  | tapReset
  /-- EXTEST (R437): The EXTEST instruction drives boundary scan, when unlocked. -/
  | extest
  /-- SAMPLE_PRELOAD (R437): The SAMPLE/PRELOAD instruction samples or preloads the boundary scan. -/
  | samplePreload (pins : List Bool)
  /-- IDCODE (R437): The IDCODE instruction returns 0x2723_29E3. -/
  | idcode
  /-- CLAMP (R437): The CLAMP instruction holds boundary outputs with bypass selected. -/
  | clamp
  /-- HIGHZ (R437): The HIGHZ instruction floats the outputs with bypass selected. -/
  | highz
  /-- BYPASS (R437): The BYPASS instruction, or any reserved or locked one, selects the 1-bit bypass register. -/
  | bypass
  /-- DBG_CHALLENGE (R443): Capture of DBG_CHALLENGE loads a fresh challenge and the unique identifier. -/
  | dbgChallenge
  /-- DBG_RESPONSE (R443): A DBG_RESPONSE equal to the expected HMAC unlocks the port, an all-zero one locks it, and any other is refused. -/
  | dbgResponse (response : BitVec 256)
  /-- DEBUG_LOCKOUT_END (R444): The response lockout expires. -/
  | debugLockoutEnd
  /-- DEBUG_RELOCK (R443): Writing relock locks the debug port. -/
  | debugRelock
  /-- TMB_ACCESS (R438): The TMB_ACCESS instruction selects the access register on the TMB window. -/
  | tmbAccess
  /-- MEM_ACCESS (R438): The MEM_ACCESS instruction selects the access register on the register and queue-memory space. -/
  | memAccess
  /-- CFG_ACCESS (R438): The CFG_ACCESS instruction selects the access register on the configuration copies. -/
  | cfgAccess
  /-- ACCESS_POLL (R438): An access register update with op poll captures the status of the previous operation. -/
  | accessPoll
  /-- ACCESS_READ (R438): An access register update with op read starts a read of the addressed word. -/
  | accessRead (wide : Bool) (address : BitVec 40)
  /-- ACCESS_WRITE (R438): An access register update with op write starts a write of the addressed word. -/
  | accessWrite (wide : Bool) (address : BitVec 40) (data : Word)
  /-- ACCESS_COMPLETE (R438): A debug access finishes, and its status and data become available to capture. -/
  | accessComplete
  /-- HALT (R439): A HALT update with halt = 1 halts the fabric or one island. -/
  | haltUpdate (scopeIsland : Bool) (island : BitVec 10)
  /-- HALT_RELEASE (R439): A HALT update with halt = 0 resumes the halted islands. -/
  | haltRelease (scopeIsland : Bool) (island : BitVec 10)
  /-- ISLAND_HALTED (R439): A halted island finishes its grain in progress and stops within 8 fc. -/
  | islandHalted (island : Fin 521)
  /-- STEP (R440): A STEP update lets a halted tile or queue consumer read N grains, or sets step_refused. -/
  | stepUpdate (tile : Bool) (target : BitVec 15) (n : BitVec 16)
  /-- BREAK (R441): A BREAK update programs or disarms one of 16 queue breakpoints. -/
  | breakUpdate (index : Fin 16) (enable port : Bool) (queue : QId) (code : BitVec 6) (codeAny : Bool) (value mask : Grain)
  /-- SENSOR_LINK_START (R88): A start of a D-PHY link above 1.5 Gbit/s makes the port discard every packet until it has received one deskew burst. -/
  | sensorLinkStart (port : Port)
  /-- I3C_IN_BAND_INTERRUPT (R102): An I3C in-band interrupt raised by a target on a CCI bus is answered with NACK. -/
  | i3cInBandInterrupt (port : Port)
  /-- TUMBLER_STATE_TIMEOUT (R422): When 1 ms passes in the TUMBLER state without a usable reference source, the device stays there and raises the ALARM of clocks condition 0. -/
  | tumblerStateTimeout
  /-- VSER_IN_RANGE (R432): When VSER comes into range, the flank SerDes enter repeater mode while the rest of the device is held in reset. -/
  | vserInRange
  /-- STEWARD_CORE_UNCORRECTABLE_ERROR (R428): An uncorrectable error in a steward-core memory makes the Tumbler restart that core with its firmware reloaded and raise the ALARM of Tumbler condition 0. -/
  | stewardCoreUncorrectableError (core : Fin 4)
  deriving DecidableEq, Repr

end Sys2Proof
end

