-- ==== Sys2Proof/Decode.lean ====
section
/-! DEFINITION. Decoding: no row of spec/opcode_table.json gives bits, so that no word spells a command. -/

namespace Sys2Proof

/-- The command that a word spells by the table's bits: none of them has any. -/
def decodeTableWord (_nbits _w : Nat) : Option Instr := none

end Sys2Proof
end

