-- ==== Sys2Proof/Config.lean ====
section
/-! DEFINITION. What the device fixes, and the values that the spec leaves open: the free values have no body, so no proof
can see what they are. -/

namespace Sys2Proof.Config

/-- Picoseconds of one fabric cycle at the nominal 1.6 GHz (R8). -/
def fcPs : Nat := 625
/-- Picoseconds of one crystal tick (R7). -/
def xcPs : Nat := 20000
/-- Picoseconds of one encoder sample at 800 MHz (R112). -/
def samplePs : Nat := 1250
/-- Picoseconds of a nanosecond, a microsecond, a millisecond and a second. -/
def nsPs : Nat := 1000
def usPs : Nat := 1000000
def msPs : Nat := 1000000000
def secPs : Nat := 1000000000000

/-- The random source of R293 and R443 (nonces, challenges), applied to a counter of State: a free value. -/
opaque random : Nat → BitVec 256
/-- A value that the spec leaves open, applied to a counter of State. -/
opaque freeWord : Nat → BitVec 72
/-- The sensor that a calibration block is assigned to (R414 names none): a free value of the block number. -/
opaque calSensor : Nat → BitVec 4
/-- The offset (2^-16 ns) and frequency (2^-8 ppb) that ACQUIRE estimates from its measurements (R341): the spec names no
estimator, so the results are free values of the offsets and their instants. -/
opaque acquireOffset : List (Int × Nat) → Int
opaque acquireRate : List (Int × Nat) → Int
/-- The offset predicted from the previous estimate, the rate and the time since (R340): the spec gives no formula. -/
opaque offsetPredicted : Int → Int → Nat → Int
/-- The digest of a public key fused in a key slot (R261). -/
opaque keyDigest : Nat → BitVec 384
/-- The CRC-32C of a configuration (R274): the spec does not say in which form the words enter it. -/
opaque configCrc : List (Nat × Word) → BitVec 32
/-- The fused image key (R260) and the debug key (R443) of the device. -/
opaque imageKey : BitVec 256
opaque debugKey : BitVec 256
/-- The key under which P0 is served where no boot record is intact (R419, R420). -/
opaque recoveryKey : BitVec 256
/-- How far the timebase moves, in 2^-32 ns, in a time (in ps) in which it counts on the backup oscillator of 20–40 MHz (R406). -/
opaque backupElapsed : Nat → Nat
/-- The message type and the grains behind the header grain of a ring message that the spec gives no layout (R313). -/
opaque ringType : RingBody → BitVec 4
opaque ringGrains : RingBody → List (BitVec 72)

end Sys2Proof.Config
end

