-- ==== Sys2Proof/Machine/Sparse.lean ====
section
/-! DEFINITION. Sparse maps: a list of (key, value) pairs with strictly rising keys and no entry equal to what an
unlisted key reads as. Queue memory, the register file and every per-instance record of the machine are held so. -/

namespace Sys2Proof.Sparse

variable {α : Type}

/-- The entry at a key, if it is listed. -/
def find (k : Nat) : List (Nat × α) → Option α
  | [] => none
  | (k', v) :: rest => if k = k' then some v else find k rest

/-- The value at a key; an unlisted key reads as `d k`. -/
def get (d : Nat → α) (m : List (Nat × α)) (k : Nat) : α := (find k m).getD (d k)

/-- The map without a key. -/
def erase (k : Nat) : List (Nat × α) → List (Nat × α)
  | [] => []
  | (k', v) :: rest => if k = k' then erase k rest else (k', v) :: erase k rest

/-- The map with a value listed at a key, in rising order of keys. -/
def insert (k : Nat) (v : α) : List (Nat × α) → List (Nat × α)
  | [] => [(k, v)]
  | (k', v') :: rest =>
    if k < k' then (k, v) :: (k', v') :: rest
    else if k = k' then (k, v) :: rest
    else (k', v') :: insert k v rest

/-- The map after a write: writing what an unlisted key reads as removes the entry. -/
def set [DecidableEq α] (d : Nat → α) (m : List (Nat × α)) (k : Nat) (v : α) : List (Nat × α) :=
  if v = d k then erase k m else insert k v m

/-- The canonical form: every key is above `lo`, keys rise strictly, and no entry reads as an unlisted key does. -/
def wfFrom [DecidableEq α] (d : Nat → α) : Option Nat → List (Nat × α) → Bool
  | _, [] => true
  | lo, (k, v) :: rest =>
    (match lo with
      | none => true
      | some l => decide (l < k)) && decide (v ≠ d k) && wfFrom d (some k) rest

/-- The canonical form of a whole map. -/
def wf [DecidableEq α] (d : Nat → α) (m : List (Nat × α)) : Bool := wfFrom d none m

end Sys2Proof.Sparse
end

