-- ==== Sys2Proof/Machine/Regs.lean ====
section
/-! DEFINITION. The register tables of the spec (chapters 02–17) and the address map (R470): every register with its
address, instances, fields, access codes and reset values. A bank-window register (R172, R192, R213) has its bank as
last index; bank 16 is the shadow. A bank word is kept under its own key, 2^40 × (bank + 1) above its bus address. -/

namespace Sys2Proof.Reg

/-- Access codes (R10). -/
inductive Access where
  | rw
  | ro
  | w1c
  | w1s
  | wo
  | rc
  | rwl
  deriving DecidableEq, Repr

/-- A register field: the address of the word in instance (i, j, k) is base + s0·i + s1·j + s2·k; the field is
bits [lo + width − 1 : lo]. -/
structure Fld where
  base : Nat
  s0 : Nat
  s1 : Nat
  s2 : Nat
  lo : Nat
  width : Nat
  acc : Access
  reset : Nat
  deriving DecidableEq, Repr

/-- A register: base address, instance counts with strides (count 1 and stride 0 where there is no index),
whether it lies in a bank window, and its fields. -/
structure RegDef where
  base : Nat
  c0 : Nat
  s0 : Nat
  c1 : Nat
  s1 : Nat
  c2 : Nat
  s2 : Nat
  banked : Bool
  fields : List Fld
  deriving DecidableEq, Repr

/-- The key of the word of a field in instance (i, j, k). -/
def Fld.addr (f : Fld) (i j k : Nat) : Nat := f.base + f.s0 * i + f.s1 * j + f.s2 * k

def QD_BASE.base : Fld := ⟨0x600000, 0x20, 0x0, 0x0, 0, 17, .rwl, 0⟩
def QD_BASE.size_log2 : Fld := ⟨0x600000, 0x20, 0x0, 0x0, 17, 5, .rwl, 6⟩
def QD_BASE.shape : Fld := ⟨0x600000, 0x20, 0x0, 0x0, 22, 3, .rwl, 2⟩
def QD_BASE.owner : Fld := ⟨0x600000, 0x20, 0x0, 0x0, 25, 4, .rwl, 0⟩
def QD_BASE.priority : Fld := ⟨0x600000, 0x20, 0x0, 0x0, 29, 3, .rwl, 0⟩
def QD_BASE.enable : Fld := ⟨0x600000, 0x20, 0x0, 0x0, 32, 1, .rwl, 0⟩
def QD_BASE.line_commit : Fld := ⟨0x600000, 0x20, 0x0, 0x0, 33, 1, .rwl, 0⟩
def QD_BASE.tap_mode : Fld := ⟨0x600000, 0x20, 0x0, 0x0, 34, 2, .rwl, 0⟩
def QD_BASE.table : Fld := ⟨0x600000, 0x20, 0x0, 0x0, 36, 1, .rwl, 0⟩
def QD_BASE.high_mark : Fld := ⟨0x600000, 0x20, 0x0, 0x0, 40, 23, .rwl, 0⟩
/-- QD_BASE (R54). -/
def QD_BASE : RegDef := ⟨0x600000, 32768, 0x20, 1, 0x0, 1, 0x0, false,
  [QD_BASE.base, QD_BASE.size_log2, QD_BASE.shape, QD_BASE.owner, QD_BASE.priority, QD_BASE.enable, QD_BASE.line_commit, QD_BASE.tap_mode, QD_BASE.table, QD_BASE.high_mark]⟩

def QD_PROD.write_ptr : Fld := ⟨0x600008, 0x20, 0x0, 0x0, 0, 23, .ro, 0⟩
def QD_PROD.commit_ptr : Fld := ⟨0x600008, 0x20, 0x0, 0x0, 32, 23, .ro, 0⟩
/-- QD_PROD (R54). -/
def QD_PROD : RegDef := ⟨0x600008, 32768, 0x20, 1, 0x0, 1, 0x0, false,
  [QD_PROD.write_ptr, QD_PROD.commit_ptr]⟩

def QD_CONS.read_ptr : Fld := ⟨0x600010, 0x20, 0x0, 0x0, 0, 23, .ro, 0⟩
def QD_CONS.mark_ptr : Fld := ⟨0x600010, 0x20, 0x0, 0x0, 32, 23, .ro, 0⟩
/-- QD_CONS (R54). -/
def QD_CONS : RegDef := ⟨0x600010, 32768, 0x20, 1, 0x0, 1, 0x0, false,
  [QD_CONS.read_ptr, QD_CONS.mark_ptr]⟩

def QD_FILL.release_ptr : Fld := ⟨0x600018, 0x20, 0x0, 0x0, 0, 23, .ro, 0⟩
def QD_FILL.low_mark : Fld := ⟨0x600018, 0x20, 0x0, 0x0, 32, 23, .rwl, 0⟩
def QD_FILL.paced_high : Fld := ⟨0x600018, 0x20, 0x0, 0x0, 63, 1, .ro, 0⟩
/-- QD_FILL (R54). -/
def QD_FILL : RegDef := ⟨0x600018, 32768, 0x20, 1, 0x0, 1, 0x0, false,
  [QD_FILL.release_ptr, QD_FILL.low_mark, QD_FILL.paced_high]⟩

def QFAB_CTRL.age_limit : Fld := ⟨0x700000, 0x0, 0x0, 0x0, 0, 8, .rwl, 64⟩
def QFAB_CTRL.dma_level : Fld := ⟨0x700000, 0x0, 0x0, 0x0, 8, 3, .rwl, 4⟩
def QFAB_CTRL.maint_level : Fld := ⟨0x700000, 0x0, 0x0, 0x0, 11, 3, .rwl, 1⟩
/-- QFAB_CTRL (R80). -/
def QFAB_CTRL : RegDef := ⟨0x700000, 1, 0x0, 1, 0x0, 1, 0x0, false,
  [QFAB_CTRL.age_limit, QFAB_CTRL.dma_level, QFAB_CTRL.maint_level]⟩

def QFAB_WAIT_MAX.wait_max : Fld := ⟨0x700008, 0x0, 0x0, 0x0, 0, 16, .rc, 0⟩
/-- QFAB_WAIT_MAX (R80). -/
def QFAB_WAIT_MAX : RegDef := ⟨0x700008, 1, 0x0, 1, 0x0, 1, 0x0, false,
  [QFAB_WAIT_MAX.wait_max]⟩

def QFAB_IDLE_WRITES.count : Fld := ⟨0x700010, 0x0, 0x0, 0x0, 0, 32, .rc, 0⟩
/-- QFAB_IDLE_WRITES (R80). -/
def QFAB_IDLE_WRITES : RegDef := ⟨0x700010, 1, 0x0, 1, 0x0, 1, 0x0, false,
  [QFAB_IDLE_WRITES.count]⟩

def QFAB_CLASS.weight_class : Fld := ⟨0x700100, 0x8, 0x0, 0x0, 0, 2, .rwl, 0⟩
/-- QFAB_CLASS (R80). -/
def QFAB_CLASS : RegDef := ⟨0x700100, 16, 0x8, 1, 0x0, 1, 0x0, false,
  [QFAB_CLASS.weight_class]⟩

def QFAB_QUOTA.quota : Fld := ⟨0x700180, 0x8, 0x0, 0x0, 0, 24, .rwl, 0⟩
/-- QFAB_QUOTA (R80). -/
def QFAB_QUOTA : RegDef := ⟨0x700180, 16, 0x8, 1, 0x0, 1, 0x0, false,
  [QFAB_QUOTA.quota]⟩

def QFAB_USED.used : Fld := ⟨0x700200, 0x8, 0x0, 0x0, 0, 24, .ro, 0⟩
/-- QFAB_USED (R80). -/
def QFAB_USED : RegDef := ⟨0x700200, 16, 0x8, 1, 0x0, 1, 0x0, false,
  [QFAB_USED.used]⟩

def QFAB_TAP_DROPS.lines : Fld := ⟨0x700280, 0x8, 0x0, 0x0, 0, 32, .rc, 0⟩
def QFAB_TAP_DROPS.punct : Fld := ⟨0x700280, 0x8, 0x0, 0x0, 32, 16, .rc, 0⟩
/-- QFAB_TAP_DROPS (R80). -/
def QFAB_TAP_DROPS : RegDef := ⟨0x700280, 16, 0x8, 1, 0x0, 1, 0x0, false,
  [QFAB_TAP_DROPS.lines, QFAB_TAP_DROPS.punct]⟩

def QFAB_CONJ_CFG.out_q : Fld := ⟨0x710000, 0x20, 0x0, 0x0, 0, 15, .rwl, 0⟩
def QFAB_CONJ_CFG.enable : Fld := ⟨0x710000, 0x20, 0x0, 0x0, 15, 1, .rwl, 0⟩
def QFAB_CONJ_CFG.in_base : Fld := ⟨0x710000, 0x20, 0x0, 0x0, 16, 15, .rwl, 0⟩
def QFAB_CONJ_CFG.in_count : Fld := ⟨0x710000, 0x20, 0x0, 0x0, 31, 4, .rwl, 0⟩
def QFAB_CONJ_CFG.ordered : Fld := ⟨0x710000, 0x20, 0x0, 0x0, 35, 1, .rwl, 0⟩
def QFAB_CONJ_CFG.owner : Fld := ⟨0x710000, 0x20, 0x0, 0x0, 36, 4, .rwl, 0⟩
def QFAB_CONJ_CFG.round_timeout : Fld := ⟨0x710000, 0x20, 0x0, 0x0, 40, 24, .rwl, 0⟩
/-- QFAB_CONJ_CFG (R80). -/
def QFAB_CONJ_CFG : RegDef := ⟨0x710000, 1024, 0x20, 1, 0x0, 1, 0x0, false,
  [QFAB_CONJ_CFG.out_q, QFAB_CONJ_CFG.enable, QFAB_CONJ_CFG.in_base, QFAB_CONJ_CFG.in_count, QFAB_CONJ_CFG.ordered, QFAB_CONJ_CFG.owner, QFAB_CONJ_CFG.round_timeout]⟩

def QFAB_CONJ_ORD.ordinals_low : Fld := ⟨0x710008, 0x20, 0x0, 0x0, 0, 64, .rwl, 0⟩
/-- QFAB_CONJ_ORD (R80). -/
def QFAB_CONJ_ORD : RegDef := ⟨0x710008, 1024, 0x20, 1, 0x0, 1, 0x0, false,
  [QFAB_CONJ_ORD.ordinals_low]⟩

def QFAB_CONJ_ORD_HI.ordinals_high : Fld := ⟨0x710010, 0x20, 0x0, 0x0, 0, 64, .rwl, 0⟩
/-- QFAB_CONJ_ORD_HI (R80). -/
def QFAB_CONJ_ORD_HI : RegDef := ⟨0x710010, 1024, 0x20, 1, 0x0, 1, 0x0, false,
  [QFAB_CONJ_ORD_HI.ordinals_high]⟩

def QFAB_CONJ_STAT.timeout_ellipses : Fld := ⟨0x710018, 0x20, 0x0, 0x0, 0, 16, .rc, 0⟩
def QFAB_CONJ_STAT.late_discards : Fld := ⟨0x710018, 0x20, 0x0, 0x0, 16, 16, .rc, 0⟩
def QFAB_CONJ_STAT.pilcrow_mismatch : Fld := ⟨0x710018, 0x20, 0x0, 0x0, 32, 16, .rc, 0⟩
/-- QFAB_CONJ_STAT (R80). -/
def QFAB_CONJ_STAT : RegDef := ⟨0x710018, 1024, 0x20, 1, 0x0, 1, 0x0, false,
  [QFAB_CONJ_STAT.timeout_ellipses, QFAB_CONJ_STAT.late_discards, QFAB_CONJ_STAT.pilcrow_mismatch]⟩

def SPORT_CTRL.enable : Fld := ⟨0x100000, 0x1000, 0x0, 0x0, 0, 1, .rwl, 0⟩
def SPORT_CTRL.phy : Fld := ⟨0x100000, 0x1000, 0x0, 0x0, 1, 1, .rwl, 0⟩
def SPORT_CTRL.lanes : Fld := ⟨0x100000, 0x1000, 0x0, 0x0, 2, 2, .rwl, 0⟩
def SPORT_CTRL.rate : Fld := ⟨0x100000, 0x1000, 0x0, 0x0, 4, 13, .rwl, 0⟩
def SPORT_CTRL.framing : Fld := ⟨0x100000, 0x1000, 0x0, 0x0, 17, 2, .rwl, 0⟩
def SPORT_CTRL.strict : Fld := ⟨0x100000, 0x1000, 0x0, 0x0, 19, 1, .rwl, 0⟩
/-- SPORT_CTRL (R111). -/
def SPORT_CTRL : RegDef := ⟨0x100000, 32, 0x1000, 1, 0x0, 1, 0x0, false,
  [SPORT_CTRL.enable, SPORT_CTRL.phy, SPORT_CTRL.lanes, SPORT_CTRL.rate, SPORT_CTRL.framing, SPORT_CTRL.strict]⟩

def SPORT_LANES.phys0 : Fld := ⟨0x100008, 0x1000, 0x0, 0x0, 0, 2, .rwl, 0⟩
def SPORT_LANES.phys1 : Fld := ⟨0x100008, 0x1000, 0x0, 0x0, 3, 2, .rwl, 0⟩
def SPORT_LANES.phys2 : Fld := ⟨0x100008, 0x1000, 0x0, 0x0, 6, 2, .rwl, 0⟩
def SPORT_LANES.phys3 : Fld := ⟨0x100008, 0x1000, 0x0, 0x0, 9, 2, .rwl, 0⟩
def SPORT_LANES.inv0 : Fld := ⟨0x100008, 0x1000, 0x0, 0x0, 2, 1, .rwl, 0⟩
def SPORT_LANES.inv1 : Fld := ⟨0x100008, 0x1000, 0x0, 0x0, 5, 1, .rwl, 0⟩
def SPORT_LANES.inv2 : Fld := ⟨0x100008, 0x1000, 0x0, 0x0, 8, 1, .rwl, 0⟩
def SPORT_LANES.inv3 : Fld := ⟨0x100008, 0x1000, 0x0, 0x0, 11, 1, .rwl, 0⟩
/-- SPORT_LANES (R111). -/
def SPORT_LANES : RegDef := ⟨0x100008, 32, 0x1000, 1, 0x0, 1, 0x0, false,
  [SPORT_LANES.phys0, SPORT_LANES.phys1, SPORT_LANES.phys2, SPORT_LANES.phys3, SPORT_LANES.inv0, SPORT_LANES.inv1, SPORT_LANES.inv2, SPORT_LANES.inv3]⟩

def SPORT_TIMING.first_min : Fld := ⟨0x100010, 0x1000, 0x0, 0x0, 0, 16, .rwl, 0⟩
def SPORT_TIMING.first_max : Fld := ⟨0x100010, 0x1000, 0x0, 0x0, 16, 16, .rwl, 65535⟩
def SPORT_TIMING.inter_line : Fld := ⟨0x100010, 0x1000, 0x0, 0x0, 32, 16, .rwl, 65535⟩
def SPORT_TIMING.frame_timeout : Fld := ⟨0x100010, 0x1000, 0x0, 0x0, 48, 16, .rwl, 65535⟩
/-- SPORT_TIMING (R111). -/
def SPORT_TIMING : RegDef := ⟨0x100010, 32, 0x1000, 1, 0x0, 1, 0x0, false,
  [SPORT_TIMING.first_min, SPORT_TIMING.first_max, SPORT_TIMING.inter_line, SPORT_TIMING.frame_timeout]⟩

def SPORT_STREAM_A.vc : Fld := ⟨0x100040, 0x1000, 0x20, 0x0, 0, 5, .rwl, 0⟩
def SPORT_STREAM_A.dt : Fld := ⟨0x100040, 0x1000, 0x20, 0x0, 5, 6, .rwl, 0⟩
def SPORT_STREAM_A.enable : Fld := ⟨0x100040, 0x1000, 0x20, 0x0, 11, 1, .rwl, 0⟩
def SPORT_STREAM_A.source_ordinal : Fld := ⟨0x100040, 0x1000, 0x20, 0x0, 12, 7, .rwl, 0⟩
def SPORT_STREAM_A.align : Fld := ⟨0x100040, 0x1000, 0x20, 0x0, 19, 1, .rwl, 0⟩
def SPORT_STREAM_A.user_bits : Fld := ⟨0x100040, 0x1000, 0x20, 0x0, 20, 3, .rwl, 0⟩
def SPORT_STREAM_A.opaque : Fld := ⟨0x100040, 0x1000, 0x20, 0x0, 23, 1, .rwl, 0⟩
def SPORT_STREAM_A.out_q : Fld := ⟨0x100040, 0x1000, 0x20, 0x0, 24, 15, .rwl, 0⟩
def SPORT_STREAM_A.lines_per_trigger : Fld := ⟨0x100040, 0x1000, 0x20, 0x0, 39, 5, .rwl, 0⟩
/-- SPORT_STREAM_A (R111). -/
def SPORT_STREAM_A : RegDef := ⟨0x100040, 32, 0x1000, 4, 0x20, 1, 0x0, false,
  [SPORT_STREAM_A.vc, SPORT_STREAM_A.dt, SPORT_STREAM_A.enable, SPORT_STREAM_A.source_ordinal, SPORT_STREAM_A.align, SPORT_STREAM_A.user_bits, SPORT_STREAM_A.opaque, SPORT_STREAM_A.out_q, SPORT_STREAM_A.lines_per_trigger]⟩

def SPORT_STREAM_B.sensor_width : Fld := ⟨0x100048, 0x1000, 0x20, 0x0, 0, 16, .rwl, 0⟩
def SPORT_STREAM_B.col_start : Fld := ⟨0x100048, 0x1000, 0x20, 0x0, 16, 16, .rwl, 0⟩
def SPORT_STREAM_B.col_count : Fld := ⟨0x100048, 0x1000, 0x20, 0x0, 32, 16, .rwl, 0⟩
/-- SPORT_STREAM_B (R111). -/
def SPORT_STREAM_B : RegDef := ⟨0x100048, 32, 0x1000, 4, 0x20, 1, 0x0, false,
  [SPORT_STREAM_B.sensor_width, SPORT_STREAM_B.col_start, SPORT_STREAM_B.col_count]⟩

def SPORT_STREAM_STAT.crc_fail : Fld := ⟨0x100050, 0x1000, 0x20, 0x0, 0, 16, .rc, 0⟩
def SPORT_STREAM_STAT.length_fail : Fld := ⟨0x100050, 0x1000, 0x20, 0x0, 16, 16, .rc, 0⟩
def SPORT_STREAM_STAT.count_missing : Fld := ⟨0x100050, 0x1000, 0x20, 0x0, 32, 16, .rc, 0⟩
def SPORT_STREAM_STAT.untriggered : Fld := ⟨0x100050, 0x1000, 0x20, 0x0, 48, 16, .rc, 0⟩
/-- SPORT_STREAM_STAT (R111). -/
def SPORT_STREAM_STAT : RegDef := ⟨0x100050, 32, 0x1000, 4, 0x20, 1, 0x0, false,
  [SPORT_STREAM_STAT.crc_fail, SPORT_STREAM_STAT.length_fail, SPORT_STREAM_STAT.count_missing, SPORT_STREAM_STAT.untriggered]⟩

def SPORT_STREAM_STAT2.extra_lines : Fld := ⟨0x100058, 0x1000, 0x20, 0x0, 0, 16, .rc, 0⟩
def SPORT_STREAM_STAT2.window_timeouts : Fld := ⟨0x100058, 0x1000, 0x20, 0x0, 16, 16, .rc, 0⟩
/-- SPORT_STREAM_STAT2 (R111). -/
def SPORT_STREAM_STAT2 : RegDef := ⟨0x100058, 32, 0x1000, 4, 0x20, 1, 0x0, false,
  [SPORT_STREAM_STAT2.extra_lines, SPORT_STREAM_STAT2.window_timeouts]⟩

def SPORT_STAT.hdr_corrected : Fld := ⟨0x1000C0, 0x1000, 0x0, 0x0, 0, 16, .rc, 0⟩
def SPORT_STAT.hdr_uncorrectable : Fld := ⟨0x1000C0, 0x1000, 0x0, 0x0, 16, 16, .rc, 0⟩
def SPORT_STAT.unmatched : Fld := ⟨0x1000C0, 0x1000, 0x0, 0x0, 32, 16, .rc, 0⟩
def SPORT_STAT.overrun : Fld := ⟨0x1000C0, 0x1000, 0x0, 0x0, 48, 16, .rc, 0⟩
/-- SPORT_STAT (R111). -/
def SPORT_STAT : RegDef := ⟨0x1000C0, 32, 0x1000, 1, 0x0, 1, 0x0, false,
  [SPORT_STAT.hdr_corrected, SPORT_STAT.hdr_uncorrectable, SPORT_STAT.unmatched, SPORT_STAT.overrun]⟩

def SPORT_STAT2.frame_timeouts : Fld := ⟨0x1000C8, 0x1000, 0x0, 0x0, 0, 16, .rc, 0⟩
def SPORT_STAT2.own_drops : Fld := ⟨0x1000C8, 0x1000, 0x0, 0x0, 16, 16, .rc, 0⟩
/-- SPORT_STAT2 (R111). -/
def SPORT_STAT2 : RegDef := ⟨0x1000C8, 32, 0x1000, 1, 0x0, 1, 0x0, false,
  [SPORT_STAT2.frame_timeouts, SPORT_STAT2.own_drops]⟩

def SPORT_CCI_CFG.mode : Fld := ⟨0x100200, 0x1000, 0x0, 0x0, 0, 1, .rwl, 0⟩
def SPORT_CCI_CFG.speed : Fld := ⟨0x100200, 0x1000, 0x0, 0x0, 1, 2, .rwl, 0⟩
def SPORT_CCI_CFG.dev_addr : Fld := ⟨0x100200, 0x1000, 0x0, 0x0, 3, 7, .rwl, 0⟩
def SPORT_CCI_CFG.addr16 : Fld := ⟨0x100200, 0x1000, 0x0, 0x0, 10, 1, .rwl, 0⟩
def SPORT_CCI_CFG.stretch_timeout : Fld := ⟨0x100200, 0x1000, 0x0, 0x0, 11, 16, .rwl, 65535⟩
def SPORT_CCI_CFG.role : Fld := ⟨0x100200, 0x1000, 0x0, 0x0, 27, 1, .rw, 0⟩
def SPORT_CCI_CFG.takeover : Fld := ⟨0x100200, 0x1000, 0x0, 0x0, 28, 1, .w1s, 0⟩
/-- SPORT_CCI_CFG (R111). -/
def SPORT_CCI_CFG : RegDef := ⟨0x100200, 32, 0x1000, 1, 0x0, 1, 0x0, false,
  [SPORT_CCI_CFG.mode, SPORT_CCI_CFG.speed, SPORT_CCI_CFG.dev_addr, SPORT_CCI_CFG.addr16, SPORT_CCI_CFG.stretch_timeout, SPORT_CCI_CFG.role, SPORT_CCI_CFG.takeover]⟩

def SPORT_EXP_CFG.exp_latency : Fld := ⟨0x100208, 0x1000, 0x0, 0x0, 0, 3, .rwl, 0⟩
def SPORT_EXP_CFG.group_hold : Fld := ⟨0x100208, 0x1000, 0x0, 0x0, 3, 1, .rwl, 0⟩
def SPORT_EXP_CFG.generation : Fld := ⟨0x100208, 0x1000, 0x0, 0x0, 4, 8, .ro, 0⟩
/-- SPORT_EXP_CFG (R111). -/
def SPORT_EXP_CFG : RegDef := ⟨0x100208, 32, 0x1000, 1, 0x0, 1, 0x0, false,
  [SPORT_EXP_CFG.exp_latency, SPORT_EXP_CFG.group_hold, SPORT_EXP_CFG.generation]⟩

def SPORT_CCI_CMD.reg_addr : Fld := ⟨0x100210, 0x1000, 0x0, 0x0, 0, 16, .rw, 0⟩
def SPORT_CCI_CMD.bytes : Fld := ⟨0x100210, 0x1000, 0x0, 0x0, 16, 2, .rw, 0⟩
def SPORT_CCI_CMD.read : Fld := ⟨0x100210, 0x1000, 0x0, 0x0, 18, 1, .rw, 0⟩
def SPORT_CCI_CMD.go : Fld := ⟨0x100210, 0x1000, 0x0, 0x0, 19, 1, .w1s, 0⟩
def SPORT_CCI_CMD.status : Fld := ⟨0x100210, 0x1000, 0x0, 0x0, 20, 2, .ro, 0⟩
/-- SPORT_CCI_CMD (R111). -/
def SPORT_CCI_CMD : RegDef := ⟨0x100210, 32, 0x1000, 1, 0x0, 1, 0x0, false,
  [SPORT_CCI_CMD.reg_addr, SPORT_CCI_CMD.bytes, SPORT_CCI_CMD.read, SPORT_CCI_CMD.go, SPORT_CCI_CMD.status]⟩

def SPORT_CCI_DATA.data : Fld := ⟨0x100218, 0x1000, 0x0, 0x0, 0, 32, .rw, 0⟩
/-- SPORT_CCI_DATA (R111). -/
def SPORT_CCI_DATA : RegDef := ⟨0x100218, 32, 0x1000, 1, 0x0, 1, 0x0, false,
  [SPORT_CCI_DATA.data]⟩

def SPORT_EXP_ENTRY.reg_addr : Fld := ⟨0x100400, 0x1000, 0x80, 0x8, 0, 16, .rw, 0⟩
def SPORT_EXP_ENTRY.data : Fld := ⟨0x100400, 0x1000, 0x80, 0x8, 16, 32, .rw, 0⟩
def SPORT_EXP_ENTRY.bytes : Fld := ⟨0x100400, 0x1000, 0x80, 0x8, 48, 2, .rw, 0⟩
def SPORT_EXP_ENTRY.readback : Fld := ⟨0x100400, 0x1000, 0x80, 0x8, 50, 1, .rw, 0⟩
def SPORT_EXP_ENTRY.valid : Fld := ⟨0x100400, 0x1000, 0x80, 0x8, 51, 1, .rw, 0⟩
/-- SPORT_EXP_ENTRY (R111). -/
def SPORT_EXP_ENTRY : RegDef := ⟨0x100400, 32, 0x1000, 4, 0x80, 8, 0x8, false,
  [SPORT_EXP_ENTRY.reg_addr, SPORT_EXP_ENTRY.data, SPORT_EXP_ENTRY.bytes, SPORT_EXP_ENTRY.readback, SPORT_EXP_ENTRY.valid]⟩

def SPORT_EXP_SLOT.commit_index : Fld := ⟨0x100440, 0x1000, 0x80, 0x0, 0, 48, .rw, 0⟩
def SPORT_EXP_SLOT.arm : Fld := ⟨0x100440, 0x1000, 0x80, 0x0, 48, 1, .w1s, 0⟩
def SPORT_EXP_SLOT.cancel : Fld := ⟨0x100440, 0x1000, 0x80, 0x0, 49, 1, .w1s, 0⟩
def SPORT_EXP_SLOT.status : Fld := ⟨0x100440, 0x1000, 0x80, 0x0, 50, 3, .ro, 0⟩
def SPORT_EXP_SLOT.result : Fld := ⟨0x100440, 0x1000, 0x80, 0x0, 53, 3, .ro, 0⟩
def SPORT_EXP_SLOT.generation : Fld := ⟨0x100440, 0x1000, 0x80, 0x0, 56, 8, .ro, 0⟩
/-- SPORT_EXP_SLOT (R111). -/
def SPORT_EXP_SLOT : RegDef := ⟨0x100440, 32, 0x1000, 4, 0x80, 1, 0x0, false,
  [SPORT_EXP_SLOT.commit_index, SPORT_EXP_SLOT.arm, SPORT_EXP_SLOT.cancel, SPORT_EXP_SLOT.status, SPORT_EXP_SLOT.result, SPORT_EXP_SLOT.generation]⟩

def MARN_CTRL.run : Fld := ⟨0x200000, 0x0, 0x0, 0x0, 0, 1, .rw, 0⟩
def MARN_CTRL.restart : Fld := ⟨0x200000, 0x0, 0x0, 0x0, 1, 1, .w1s, 0⟩
def MARN_CTRL.source : Fld := ⟨0x200000, 0x0, 0x0, 0x0, 2, 1, .rwl, 0⟩
def MARN_CTRL.primary : Fld := ⟨0x200000, 0x0, 0x0, 0x0, 3, 2, .rwl, 0⟩
def MARN_CTRL.reverse : Fld := ⟨0x200000, 0x0, 0x0, 0x0, 5, 1, .rwl, 0⟩
def MARN_CTRL.anchor : Fld := ⟨0x200000, 0x0, 0x0, 0x0, 6, 2, .rwl, 0⟩
def MARN_CTRL.running_src : Fld := ⟨0x200000, 0x0, 0x0, 0x0, 8, 2, .rwl, 0⟩
def MARN_CTRL.running : Fld := ⟨0x200000, 0x0, 0x0, 0x0, 10, 1, .rw, 0⟩
def MARN_CTRL.root : Fld := ⟨0x200000, 0x0, 0x0, 0x0, 11, 1, .ro, 0⟩
/-- MARN_CTRL (R137). -/
def MARN_CTRL : RegDef := ⟨0x200000, 1, 0x0, 1, 0x0, 1, 0x0, false,
  [MARN_CTRL.run, MARN_CTRL.restart, MARN_CTRL.source, MARN_CTRL.primary, MARN_CTRL.reverse, MARN_CTRL.anchor, MARN_CTRL.running_src, MARN_CTRL.running, MARN_CTRL.root]⟩

def MARN_STATUS.pos_state : Fld := ⟨0x200008, 0x0, 0x0, 0x0, 0, 2, .ro, 0⟩
def MARN_STATUS.active_enc : Fld := ⟨0x200008, 0x0, 0x0, 0x0, 2, 2, .ro, 0⟩
def MARN_STATUS.primary_failed : Fld := ⟨0x200008, 0x0, 0x0, 0x0, 4, 1, .ro, 0⟩
def MARN_STATUS.secondary_failed : Fld := ⟨0x200008, 0x0, 0x0, 0x0, 5, 1, .ro, 0⟩
def MARN_STATUS.grid_index : Fld := ⟨0x200008, 0x0, 0x0, 0x0, 6, 48, .ro, 0⟩
/-- MARN_STATUS (R137). -/
def MARN_STATUS : RegDef := ⟨0x200008, 1, 0x0, 1, 0x0, 1, 0x0, false,
  [MARN_STATUS.pos_state, MARN_STATUS.active_enc, MARN_STATUS.primary_failed, MARN_STATUS.secondary_failed, MARN_STATUS.grid_index]⟩

def MARN_ENC.enable : Fld := ⟨0x200040, 0x8, 0x0, 0x0, 0, 1, .rwl, 0⟩
def MARN_ENC.glitch : Fld := ⟨0x200040, 0x8, 0x0, 0x0, 1, 10, .rwl, 0⟩
def MARN_ENC.z_check : Fld := ⟨0x200040, 0x8, 0x0, 0x0, 11, 1, .rwl, 0⟩
def MARN_ENC.swap_ab : Fld := ⟨0x200040, 0x8, 0x0, 0x0, 12, 1, .rwl, 0⟩
/-- MARN_ENC (R137). -/
def MARN_ENC : RegDef := ⟨0x200040, 4, 0x8, 1, 0x0, 1, 0x0, false,
  [MARN_ENC.enable, MARN_ENC.glitch, MARN_ENC.z_check, MARN_ENC.swap_ab]⟩

def MARN_ENC_CHK.accel_window : Fld := ⟨0x200060, 0x0, 0x0, 0x0, 0, 10, .rwl, 64⟩
def MARN_ENC_CHK.accel_limit : Fld := ⟨0x200060, 0x0, 0x0, 0x0, 10, 16, .rwl, 65535⟩
def MARN_ENC_CHK.edge_timeout : Fld := ⟨0x200060, 0x0, 0x0, 0x0, 26, 16, .rwl, 65535⟩
/-- MARN_ENC_CHK (R137). -/
def MARN_ENC_CHK : RegDef := ⟨0x200060, 1, 0x0, 1, 0x0, 1, 0x0, false,
  [MARN_ENC_CHK.accel_window, MARN_ENC_CHK.accel_limit, MARN_ENC_CHK.edge_timeout]⟩

def MARN_ZCHK.z_nominal : Fld := ⟨0x200068, 0x0, 0x0, 0x0, 0, 32, .rwl, 0⟩
def MARN_ZCHK.z_tol : Fld := ⟨0x200068, 0x0, 0x0, 0x0, 32, 16, .rwl, 0⟩
/-- MARN_ZCHK (R137). -/
def MARN_ZCHK : RegDef := ⟨0x200068, 1, 0x0, 1, 0x0, 1, 0x0, false,
  [MARN_ZCHK.z_nominal, MARN_ZCHK.z_tol]⟩

def MARN_XCHK.enable : Fld := ⟨0x200070, 0x0, 0x0, 0x0, 0, 1, .rwl, 0⟩
def MARN_XCHK.secondary : Fld := ⟨0x200070, 0x0, 0x0, 0x0, 1, 2, .rwl, 1⟩
def MARN_XCHK.failover : Fld := ⟨0x200070, 0x0, 0x0, 0x0, 3, 1, .rwl, 0⟩
def MARN_XCHK.tol : Fld := ⟨0x200070, 0x0, 0x0, 0x0, 4, 16, .rwl, 65535⟩
def MARN_XCHK.span : Fld := ⟨0x200070, 0x0, 0x0, 0x0, 20, 32, .rwl, 0⟩
/-- MARN_XCHK (R137). -/
def MARN_XCHK : RegDef := ⟨0x200070, 1, 0x0, 1, 0x0, 1, 0x0, false,
  [MARN_XCHK.enable, MARN_XCHK.secondary, MARN_XCHK.failover, MARN_XCHK.tol, MARN_XCHK.span]⟩

def MARN_XRATIO.ratio : Fld := ⟨0x200078, 0x0, 0x0, 0x0, 0, 64, .rwl, 4294967296⟩
/-- MARN_XRATIO (R137). -/
def MARN_XRATIO : RegDef := ⟨0x200078, 1, 0x0, 1, 0x0, 1, 0x0, false,
  [MARN_XRATIO.ratio]⟩

def MARN_PITCH.pitch : Fld := ⟨0x200080, 0x0, 0x0, 0x0, 0, 64, .rwl, 4294967296⟩
/-- MARN_PITCH (R137). -/
def MARN_PITCH : RegDef := ⟨0x200080, 1, 0x0, 1, 0x0, 1, 0x0, false,
  [MARN_PITCH.pitch]⟩

def MARN_POS.position : Fld := ⟨0x200088, 0x0, 0x0, 0x0, 0, 64, .ro, 0⟩
/-- MARN_POS (R137). -/
def MARN_POS : RegDef := ⟨0x200088, 1, 0x0, 1, 0x0, 1, 0x0, false,
  [MARN_POS.position]⟩

def MARN_POS_FRAC.fraction : Fld := ⟨0x200090, 0x0, 0x0, 0x0, 0, 32, .ro, 0⟩
def MARN_POS_FRAC.speed : Fld := ⟨0x200090, 0x0, 0x0, 0x0, 32, 32, .ro, 0⟩
/-- MARN_POS_FRAC (R137). -/
def MARN_POS_FRAC : RegDef := ⟨0x200090, 1, 0x0, 1, 0x0, 1, 0x0, false,
  [MARN_POS_FRAC.fraction, MARN_POS_FRAC.speed]⟩

def MARN_ORIGIN.origin : Fld := ⟨0x200098, 0x0, 0x0, 0x0, 0, 64, .ro, 0⟩
/-- MARN_ORIGIN (R137). -/
def MARN_ORIGIN : RegDef := ⟨0x200098, 1, 0x0, 1, 0x0, 1, 0x0, false,
  [MARN_ORIGIN.origin]⟩

def MARN_BCAST.apply_delay : Fld := ⟨0x2000A0, 0x0, 0x0, 0x0, 0, 4, .rwl, 3⟩
def MARN_BCAST.speed_window : Fld := ⟨0x2000A0, 0x0, 0x0, 0x0, 4, 6, .rwl, 7⟩
/-- MARN_BCAST (R137). -/
def MARN_BCAST : RegDef := ⟨0x2000A0, 1, 0x0, 1, 0x0, 1, 0x0, false,
  [MARN_BCAST.apply_delay, MARN_BCAST.speed_window]⟩

def MARN_RATE.rate : Fld := ⟨0x2000A8, 0x0, 0x0, 0x0, 0, 32, .rw, 0⟩
/-- MARN_RATE (R137). -/
def MARN_RATE : RegDef := ⟨0x2000A8, 1, 0x0, 1, 0x0, 1, 0x0, false,
  [MARN_RATE.rate]⟩

def MARN_BLOCK.length : Fld := ⟨0x2000C0, 0x0, 0x0, 0x0, 0, 24, .rwl, 0⟩
def MARN_BLOCK.w_before : Fld := ⟨0x2000C0, 0x0, 0x0, 0x0, 24, 10, .rwl, 256⟩
def MARN_BLOCK.w_after : Fld := ⟨0x2000C0, 0x0, 0x0, 0x0, 34, 10, .rwl, 256⟩
def MARN_BLOCK.sync_offset : Fld := ⟨0x2000C0, 0x0, 0x0, 0x0, 44, 12, .rwl, 0⟩
def MARN_BLOCK.announce : Fld := ⟨0x2000C0, 0x0, 0x0, 0x0, 56, 8, .rwl, 64⟩
/-- MARN_BLOCK (R137). -/
def MARN_BLOCK : RegDef := ⟨0x2000C0, 1, 0x0, 1, 0x0, 1, 0x0, false,
  [MARN_BLOCK.length, MARN_BLOCK.w_before, MARN_BLOCK.w_after, MARN_BLOCK.sync_offset, MARN_BLOCK.announce]⟩

def MARN_SYNC.enable : Fld := ⟨0x2000C8, 0x8, 0x0, 0x0, 0, 1, .rwl, 0⟩
def MARN_SYNC.polarity : Fld := ⟨0x2000C8, 0x8, 0x0, 0x0, 1, 1, .rwl, 0⟩
def MARN_SYNC.force : Fld := ⟨0x2000C8, 0x8, 0x0, 0x0, 2, 1, .rwl, 0⟩
def MARN_SYNC.min_width : Fld := ⟨0x2000C8, 0x8, 0x0, 0x0, 3, 16, .rwl, 0⟩
/-- MARN_SYNC (R137). -/
def MARN_SYNC : RegDef := ⟨0x2000C8, 2, 0x8, 1, 0x0, 1, 0x0, false,
  [MARN_SYNC.enable, MARN_SYNC.polarity, MARN_SYNC.force, MARN_SYNC.min_width]⟩

def MARN_BLOCK_STAT.block_number : Fld := ⟨0x2000D8, 0x0, 0x0, 0x0, 0, 32, .ro, 0⟩
def MARN_BLOCK_STAT.cause : Fld := ⟨0x2000D8, 0x0, 0x0, 0x0, 32, 4, .ro, 0⟩
/-- MARN_BLOCK_STAT (R137). -/
def MARN_BLOCK_STAT : RegDef := ⟨0x2000D8, 1, 0x0, 1, 0x0, 1, 0x0, false,
  [MARN_BLOCK_STAT.block_number, MARN_BLOCK_STAT.cause]⟩

def MARN_NEXT_BOUND.boundary : Fld := ⟨0x2000E0, 0x0, 0x0, 0x0, 0, 48, .ro, 0⟩
def MARN_NEXT_BOUND.cause : Fld := ⟨0x2000E0, 0x0, 0x0, 0x0, 48, 4, .ro, 0⟩
def MARN_NEXT_BOUND.moved : Fld := ⟨0x2000E0, 0x0, 0x0, 0x0, 52, 1, .ro, 0⟩
/-- MARN_NEXT_BOUND (R137). -/
def MARN_NEXT_BOUND : RegDef := ⟨0x2000E0, 1, 0x0, 1, 0x0, 1, 0x0, false,
  [MARN_NEXT_BOUND.boundary, MARN_NEXT_BOUND.cause, MARN_NEXT_BOUND.moved]⟩

def MARN_SEQ_CFG.seq_len : Fld := ⟨0x200100, 0x0, 0x0, 0x0, 0, 4, .rwl, 0⟩
def MARN_SEQ_CFG.seq_phase : Fld := ⟨0x200100, 0x0, 0x0, 0x0, 4, 4, .rwl, 0⟩
/-- MARN_SEQ_CFG (R137). -/
def MARN_SEQ_CFG : RegDef := ⟨0x200100, 1, 0x0, 1, 0x0, 1, 0x0, false,
  [MARN_SEQ_CFG.seq_len, MARN_SEQ_CFG.seq_phase]⟩

def MARN_SEQ.context : Fld := ⟨0x200140, 0x10, 0x0, 0x0, 0, 4, .rwl, 0⟩
def MARN_SEQ.strobe_mask : Fld := ⟨0x200140, 0x10, 0x0, 0x0, 4, 16, .rwl, 0⟩
def MARN_SEQ.head_mask : Fld := ⟨0x200140, 0x10, 0x0, 0x0, 20, 32, .rwl, 0⟩
/-- MARN_SEQ (R137). -/
def MARN_SEQ : RegDef := ⟨0x200140, 16, 0x10, 1, 0x0, 1, 0x0, false,
  [MARN_SEQ.context, MARN_SEQ.strobe_mask, MARN_SEQ.head_mask]⟩

def MARN_STB.start : Fld := ⟨0x200300, 0x8, 0x0, 0x0, 0, 20, .rwl, 0⟩
def MARN_STB.width : Fld := ⟨0x200300, 0x8, 0x0, 0x0, 20, 20, .rwl, 0⟩
def MARN_STB.trim : Fld := ⟨0x200300, 0x8, 0x0, 0x0, 40, 8, .rwl, 0⟩
def MARN_STB.polarity : Fld := ⟨0x200300, 0x8, 0x0, 0x0, 48, 1, .rwl, 0⟩
def MARN_STB.enable : Fld := ⟨0x200300, 0x8, 0x0, 0x0, 49, 1, .rwl, 0⟩
/-- MARN_STB (R137). -/
def MARN_STB : RegDef := ⟨0x200300, 16, 0x8, 1, 0x0, 1, 0x0, false,
  [MARN_STB.start, MARN_STB.width, MARN_STB.trim, MARN_STB.polarity, MARN_STB.enable]⟩

def MARN_HEAD.enable : Fld := ⟨0x200400, 0x10, 0x0, 0x0, 0, 1, .rwl, 0⟩
def MARN_HEAD.lead_mode : Fld := ⟨0x200400, 0x10, 0x0, 0x0, 1, 1, .rwl, 0⟩
def MARN_HEAD.lead : Fld := ⟨0x200400, 0x10, 0x0, 0x0, 2, 32, .rwl, 0⟩
def MARN_HEAD.trim : Fld := ⟨0x200400, 0x10, 0x0, 0x0, 34, 8, .rwl, 0⟩
def MARN_HEAD.min_period : Fld := ⟨0x200400, 0x10, 0x0, 0x0, 42, 16, .rwl, 2500⟩
def MARN_HEAD.polarity : Fld := ⟨0x200400, 0x10, 0x0, 0x0, 58, 1, .rwl, 0⟩
/-- MARN_HEAD (R137). -/
def MARN_HEAD : RegDef := ⟨0x200400, 32, 0x10, 1, 0x0, 1, 0x0, false,
  [MARN_HEAD.enable, MARN_HEAD.lead_mode, MARN_HEAD.lead, MARN_HEAD.trim, MARN_HEAD.min_period, MARN_HEAD.polarity]⟩

def MARN_HEAD_MID.mid_offset : Fld := ⟨0x200408, 0x10, 0x0, 0x0, 0, 20, .ro, 0⟩
def MARN_HEAD_MID.mid_offset_next : Fld := ⟨0x200408, 0x10, 0x0, 0x0, 20, 20, .rw, 0⟩
def MARN_HEAD_MID.pending : Fld := ⟨0x200408, 0x10, 0x0, 0x0, 40, 1, .ro, 0⟩
def MARN_HEAD_MID.trg_width : Fld := ⟨0x200408, 0x10, 0x0, 0x0, 41, 15, .rwl, 100⟩
/-- MARN_HEAD_MID (R137). -/
def MARN_HEAD_MID : RegDef := ⟨0x200408, 32, 0x10, 1, 0x0, 1, 0x0, false,
  [MARN_HEAD_MID.mid_offset, MARN_HEAD_MID.mid_offset_next, MARN_HEAD_MID.pending, MARN_HEAD_MID.trg_width]⟩

def MARN_STAT.enc_faults : Fld := ⟨0x200600, 0x0, 0x0, 0x0, 0, 16, .rc, 0⟩
def MARN_STAT.skipped : Fld := ⟨0x200600, 0x0, 0x0, 0x0, 16, 16, .rc, 0⟩
def MARN_STAT.late_samples : Fld := ⟨0x200600, 0x0, 0x0, 0x0, 32, 16, .rc, 0⟩
def MARN_STAT.sync_ignored : Fld := ⟨0x200600, 0x0, 0x0, 0x0, 48, 16, .rc, 0⟩
/-- MARN_STAT (R137). -/
def MARN_STAT : RegDef := ⟨0x200600, 1, 0x0, 1, 0x0, 1, 0x0, false,
  [MARN_STAT.enc_faults, MARN_STAT.skipped, MARN_STAT.late_samples, MARN_STAT.sync_ignored]⟩

def MARN_STAT2.holdovers : Fld := ⟨0x200608, 0x0, 0x0, 0x0, 0, 16, .rc, 0⟩
def MARN_STAT2.stops : Fld := ⟨0x200608, 0x0, 0x0, 0x0, 16, 16, .rc, 0⟩
def MARN_STAT2.sync_moves : Fld := ⟨0x200608, 0x0, 0x0, 0x0, 32, 16, .rc, 0⟩
def MARN_STAT2.xcheck_mismatch : Fld := ⟨0x200608, 0x0, 0x0, 0x0, 48, 16, .rc, 0⟩
/-- MARN_STAT2 (R137). -/
def MARN_STAT2 : RegDef := ⟨0x200608, 1, 0x0, 1, 0x0, 1, 0x0, false,
  [MARN_STAT2.holdovers, MARN_STAT2.stops, MARN_STAT2.sync_moves, MARN_STAT2.xcheck_mismatch]⟩

def TILE_CTRL.enable : Fld := ⟨0x300000, 0x400, 0x0, 0x0, 0, 1, .rwl, 0⟩
def TILE_CTRL.op0 : Fld := ⟨0x300000, 0x400, 0x0, 0x0, 1, 4, .rwl, 0⟩
def TILE_CTRL.op1 : Fld := ⟨0x300000, 0x400, 0x0, 0x0, 5, 4, .rwl, 0⟩
def TILE_CTRL.op2 : Fld := ⟨0x300000, 0x400, 0x0, 0x0, 9, 4, .rwl, 0⟩
def TILE_CTRL.op3 : Fld := ⟨0x300000, 0x400, 0x0, 0x0, 13, 4, .rwl, 0⟩
def TILE_CTRL.in_q : Fld := ⟨0x300000, 0x400, 0x0, 0x0, 17, 15, .rwl, 0⟩
def TILE_CTRL.out_q : Fld := ⟨0x300000, 0x400, 0x0, 0x0, 32, 15, .rwl, 0⟩
def TILE_CTRL.copy_q : Fld := ⟨0x300000, 0x400, 0x0, 0x0, 47, 15, .rwl, 0⟩
/-- TILE_CTRL (R172). -/
def TILE_CTRL : RegDef := ⟨0x300000, 256, 0x400, 1, 0x0, 1, 0x0, false,
  [TILE_CTRL.enable, TILE_CTRL.op0, TILE_CTRL.op1, TILE_CTRL.op2, TILE_CTRL.op3, TILE_CTRL.in_q, TILE_CTRL.out_q, TILE_CTRL.copy_q]⟩

def TILE_CTRL2.y_q : Fld := ⟨0x300008, 0x400, 0x0, 0x0, 0, 15, .rwl, 0⟩
def TILE_CTRL2.y_enable : Fld := ⟨0x300008, 0x400, 0x0, 0x0, 15, 1, .rwl, 0⟩
def TILE_CTRL2.in_width : Fld := ⟨0x300008, 0x400, 0x0, 0x0, 16, 16, .rwl, 0⟩
def TILE_CTRL2.owner : Fld := ⟨0x300008, 0x400, 0x0, 0x0, 32, 4, .rwl, 0⟩
def TILE_CTRL2.bin_factor : Fld := ⟨0x300008, 0x400, 0x0, 0x0, 36, 2, .rwl, 0⟩
def TILE_CTRL2.bin_mode : Fld := ⟨0x300008, 0x400, 0x0, 0x0, 38, 2, .rwl, 0⟩
/-- TILE_CTRL2 (R172). -/
def TILE_CTRL2 : RegDef := ⟨0x300008, 256, 0x400, 1, 0x0, 1, 0x0, false,
  [TILE_CTRL2.y_q, TILE_CTRL2.y_enable, TILE_CTRL2.in_width, TILE_CTRL2.owner, TILE_CTRL2.bin_factor, TILE_CTRL2.bin_mode]⟩

def TILE_SCRATCH.base : Fld := ⟨0x300010, 0x400, 0x0, 0x0, 0, 23, .rwl, 0⟩
def TILE_SCRATCH.stride : Fld := ⟨0x300010, 0x400, 0x0, 0x0, 23, 23, .rwl, 0⟩
/-- TILE_SCRATCH (R172). -/
def TILE_SCRATCH : RegDef := ⟨0x300010, 256, 0x400, 1, 0x0, 1, 0x0, false,
  [TILE_SCRATCH.base, TILE_SCRATCH.stride]⟩

def TILE_COMMIT.commit_index : Fld := ⟨0x300020, 0x400, 0x0, 0x0, 0, 48, .rw, 0⟩
def TILE_COMMIT.ctx_mask : Fld := ⟨0x300020, 0x400, 0x0, 0x0, 48, 16, .rw, 0⟩
/-- TILE_COMMIT (R172). -/
def TILE_COMMIT : RegDef := ⟨0x300020, 256, 0x400, 1, 0x0, 1, 0x0, false,
  [TILE_COMMIT.commit_index, TILE_COMMIT.ctx_mask]⟩

def TILE_COMMIT_CTL.arm : Fld := ⟨0x300028, 0x400, 0x0, 0x0, 0, 1, .w1s, 0⟩
def TILE_COMMIT_CTL.cancel : Fld := ⟨0x300028, 0x400, 0x0, 0x0, 1, 1, .w1s, 0⟩
def TILE_COMMIT_CTL.status : Fld := ⟨0x300028, 0x400, 0x0, 0x0, 2, 2, .ro, 0⟩
def TILE_COMMIT_CTL.late : Fld := ⟨0x300028, 0x400, 0x0, 0x0, 4, 1, .ro, 0⟩
def TILE_COMMIT_CTL.pending_ctx : Fld := ⟨0x300028, 0x400, 0x0, 0x0, 5, 16, .ro, 0⟩
/-- TILE_COMMIT_CTL (R172). -/
def TILE_COMMIT_CTL : RegDef := ⟨0x300028, 256, 0x400, 1, 0x0, 1, 0x0, false,
  [TILE_COMMIT_CTL.arm, TILE_COMMIT_CTL.cancel, TILE_COMMIT_CTL.status, TILE_COMMIT_CTL.late, TILE_COMMIT_CTL.pending_ctx]⟩

def TILE_BANK_SEL.bank : Fld := ⟨0x300030, 0x400, 0x0, 0x0, 0, 5, .rw, 0⟩
def TILE_BANK_SEL.src : Fld := ⟨0x300030, 0x400, 0x0, 0x0, 5, 5, .rw, 0⟩
def TILE_BANK_SEL.copy : Fld := ⟨0x300030, 0x400, 0x0, 0x0, 10, 1, .w1s, 0⟩
/-- TILE_BANK_SEL (R172). -/
def TILE_BANK_SEL : RegDef := ⟨0x300030, 256, 0x400, 1, 0x0, 1, 0x0, false,
  [TILE_BANK_SEL.bank, TILE_BANK_SEL.src, TILE_BANK_SEL.copy]⟩

def TILE_LUT_LOAD.src : Fld := ⟨0x300038, 0x400, 0x0, 0x0, 0, 23, .rw, 0⟩
def TILE_LUT_LOAD.page : Fld := ⟨0x300038, 0x400, 0x0, 0x0, 23, 2, .rw, 0⟩
def TILE_LUT_LOAD.go : Fld := ⟨0x300038, 0x400, 0x0, 0x0, 25, 1, .w1s, 0⟩
def TILE_LUT_LOAD.status : Fld := ⟨0x300038, 0x400, 0x0, 0x0, 26, 2, .ro, 0⟩
/-- TILE_LUT_LOAD (R172). -/
def TILE_LUT_LOAD : RegDef := ⟨0x300038, 256, 0x400, 1, 0x0, 1, 0x0, false,
  [TILE_LUT_LOAD.src, TILE_LUT_LOAD.page, TILE_LUT_LOAD.go, TILE_LUT_LOAD.status]⟩

def TILE_STATE.state : Fld := ⟨0x300040, 0x400, 0x0, 0x0, 0, 2, .ro, 0⟩
def TILE_STATE.serving : Fld := ⟨0x300040, 0x400, 0x0, 0x0, 2, 9, .ro, 0⟩
/-- TILE_STATE (R172). -/
def TILE_STATE : RegDef := ⟨0x300040, 272, 0x400, 1, 0x0, 1, 0x0, false,
  [TILE_STATE.state, TILE_STATE.serving]⟩

def TILE_STAT.lines : Fld := ⟨0x300048, 0x400, 0x0, 0x0, 0, 32, .rc, 0⟩
def TILE_STAT.residue_fail : Fld := ⟨0x300048, 0x400, 0x0, 0x0, 32, 16, .rc, 0⟩
def TILE_STAT.replay_fail : Fld := ⟨0x300048, 0x400, 0x0, 0x0, 48, 16, .rc, 0⟩
/-- TILE_STAT (R172). -/
def TILE_STAT : RegDef := ⟨0x300048, 272, 0x400, 1, 0x0, 1, 0x0, false,
  [TILE_STAT.lines, TILE_STAT.residue_fail, TILE_STAT.replay_fail]⟩

def TILE_STAT2.clipped : Fld := ⟨0x300050, 0x400, 0x0, 0x0, 0, 32, .rc, 0⟩
def TILE_STAT2.mix_stale : Fld := ⟨0x300050, 0x400, 0x0, 0x0, 32, 16, .rc, 0⟩
def TILE_STAT2.late_commits : Fld := ⟨0x300050, 0x400, 0x0, 0x0, 48, 16, .rc, 0⟩
/-- TILE_STAT2 (R172). -/
def TILE_STAT2 : RegDef := ⟨0x300050, 256, 0x400, 1, 0x0, 1, 0x0, false,
  [TILE_STAT2.clipped, TILE_STAT2.mix_stale, TILE_STAT2.late_commits]⟩

def TILE_STAT3.dfx_replaced : Fld := ⟨0x300058, 0x400, 0x0, 0x0, 0, 32, .rc, 0⟩
def TILE_STAT3.dfx_unreplaced : Fld := ⟨0x300058, 0x400, 0x0, 0x0, 32, 16, .rc, 0⟩
/-- TILE_STAT3 (R172). -/
def TILE_STAT3 : RegDef := ⟨0x300058, 256, 0x400, 1, 0x0, 1, 0x0, false,
  [TILE_STAT3.dfx_replaced, TILE_STAT3.dfx_unreplaced]⟩

def TILE_P_OPS.bypass : Fld := ⟨0x10000300100, 0x400, 0x0, 0x10000000000, 0, 4, .rw, 0⟩
/-- TILE_P_OPS (R172). -/
def TILE_P_OPS : RegDef := ⟨0x10000300100, 256, 0x400, 1, 0x0, 17, 0x10000000000, true,
  [TILE_P_OPS.bypass]⟩

def TILE_P_BLK.dark_start : Fld := ⟨0x10000300108, 0x400, 0x0, 0x10000000000, 0, 15, .rw, 0⟩
def TILE_P_BLK.dark_count : Fld := ⟨0x10000300108, 0x400, 0x0, 0x10000000000, 15, 10, .rw, 0⟩
def TILE_P_BLK.blk_k : Fld := ⟨0x10000300108, 0x400, 0x0, 0x10000000000, 25, 4, .rw, 0⟩
def TILE_P_BLK.pedestal : Fld := ⟨0x10000300108, 0x400, 0x0, 0x10000000000, 29, 18, .rw, 0⟩
/-- TILE_P_BLK (R172). -/
def TILE_P_BLK : RegDef := ⟨0x10000300108, 256, 0x400, 1, 0x0, 17, 0x10000000000, true,
  [TILE_P_BLK.dark_start, TILE_P_BLK.dark_count, TILE_P_BLK.blk_k, TILE_P_BLK.pedestal]⟩

def TILE_P_BLK_INIT.black : Fld := ⟨0x10000300110, 0x400, 0x0, 0x10000000000, 0, 26, .rw, 0⟩
/-- TILE_P_BLK_INIT (R172). -/
def TILE_P_BLK_INIT : RegDef := ⟨0x10000300110, 256, 0x400, 1, 0x0, 17, 0x10000000000, true,
  [TILE_P_BLK_INIT.black]⟩

def TILE_P_DFX.map_base : Fld := ⟨0x10000300118, 0x400, 0x0, 0x10000000000, 0, 23, .rw, 0⟩
def TILE_P_DFX.list_base : Fld := ⟨0x10000300118, 0x400, 0x0, 0x10000000000, 23, 23, .rw, 0⟩
def TILE_P_DFX.list_len : Fld := ⟨0x10000300118, 0x400, 0x0, 0x10000000000, 46, 12, .rw, 0⟩
def TILE_P_DFX.stride : Fld := ⟨0x10000300118, 0x400, 0x0, 0x10000000000, 58, 3, .rw, 0⟩
/-- TILE_P_DFX (R172). -/
def TILE_P_DFX : RegDef := ⟨0x10000300118, 256, 0x400, 1, 0x0, 17, 0x10000000000, true,
  [TILE_P_DFX.map_base, TILE_P_DFX.list_base, TILE_P_DFX.list_len, TILE_P_DFX.stride]⟩

def TILE_P_FLT.table_base : Fld := ⟨0x10000300120, 0x400, 0x0, 0x10000000000, 0, 23, .rw, 0⟩
/-- TILE_P_FLT (R172). -/
def TILE_P_FLT : RegDef := ⟨0x10000300120, 256, 0x400, 1, 0x0, 17, 0x10000000000, true,
  [TILE_P_FLT.table_base]⟩

def TILE_P_LUT.page : Fld := ⟨0x10000300128, 0x400, 0x0, 0x10000000000, 0, 2, .rw, 0⟩
def TILE_P_LUT.shift : Fld := ⟨0x10000300128, 0x400, 0x0, 0x10000000000, 2, 3, .rw, 0⟩
/-- TILE_P_LUT (R172). -/
def TILE_P_LUT : RegDef := ⟨0x10000300128, 256, 0x400, 1, 0x0, 17, 0x10000000000, true,
  [TILE_P_LUT.page, TILE_P_LUT.shift]⟩

def TILE_P_CNV.h_taps : Fld := ⟨0x10000300130, 0x400, 0x0, 0x10000000000, 0, 4, .rw, 1⟩
def TILE_P_CNV.v_taps : Fld := ⟨0x10000300130, 0x400, 0x0, 0x10000000000, 4, 4, .rw, 1⟩
/-- TILE_P_CNV (R172). -/
def TILE_P_CNV : RegDef := ⟨0x10000300130, 256, 0x400, 1, 0x0, 17, 0x10000000000, true,
  [TILE_P_CNV.h_taps, TILE_P_CNV.v_taps]⟩

def TILE_P_SUM.sum_n : Fld := ⟨0x10000300138, 0x400, 0x0, 0x10000000000, 0, 5, .rw, 0⟩
def TILE_P_SUM.sum_shift : Fld := ⟨0x10000300138, 0x400, 0x0, 0x10000000000, 5, 3, .rw, 0⟩
/-- TILE_P_SUM (R172). -/
def TILE_P_SUM : RegDef := ⟨0x10000300138, 256, 0x400, 1, 0x0, 17, 0x10000000000, true,
  [TILE_P_SUM.sum_n, TILE_P_SUM.sum_shift]⟩

def TILE_P_MIX.a : Fld := ⟨0x10000300140, 0x400, 0x0, 0x10000000000, 0, 17, .rw, 0⟩
def TILE_P_MIX.b : Fld := ⟨0x10000300140, 0x400, 0x0, 0x10000000000, 17, 17, .rw, 0⟩
def TILE_P_MIX.c : Fld := ⟨0x10000300140, 0x400, 0x0, 0x10000000000, 34, 17, .rw, 0⟩
def TILE_P_MIX.y_ctx : Fld := ⟨0x10000300140, 0x400, 0x0, 0x10000000000, 51, 4, .rw, 0⟩
def TILE_P_MIX.y_src : Fld := ⟨0x10000300140, 0x400, 0x0, 0x10000000000, 55, 2, .rw, 0⟩
/-- TILE_P_MIX (R172). -/
def TILE_P_MIX : RegDef := ⟨0x10000300140, 256, 0x400, 1, 0x0, 17, 0x10000000000, true,
  [TILE_P_MIX.a, TILE_P_MIX.b, TILE_P_MIX.c, TILE_P_MIX.y_ctx, TILE_P_MIX.y_src]⟩

def TILE_P_MIX2.bg_base : Fld := ⟨0x10000300148, 0x400, 0x0, 0x10000000000, 0, 23, .rw, 0⟩
def TILE_P_MIX2.max_age : Fld := ⟨0x10000300148, 0x400, 0x0, 0x10000000000, 23, 24, .rw, 0⟩
/-- TILE_P_MIX2 (R172). -/
def TILE_P_MIX2 : RegDef := ⟨0x10000300148, 256, 0x400, 1, 0x0, 17, 0x10000000000, true,
  [TILE_P_MIX2.bg_base, TILE_P_MIX2.max_age]⟩

def TILE_P_CLP.lo : Fld := ⟨0x10000300158, 0x400, 0x0, 0x10000000000, 0, 24, .rw, 0⟩
def TILE_P_CLP.hi : Fld := ⟨0x10000300158, 0x400, 0x0, 0x10000000000, 24, 24, .rw, 8388607⟩
/-- TILE_P_CLP (R172). -/
def TILE_P_CLP : RegDef := ⟨0x10000300158, 256, 0x400, 1, 0x0, 17, 0x10000000000, true,
  [TILE_P_CLP.lo, TILE_P_CLP.hi]⟩

def TILE_P_PAK.shift : Fld := ⟨0x10000300160, 0x400, 0x0, 0x10000000000, 0, 5, .rw, 0⟩
/-- TILE_P_PAK (R172). -/
def TILE_P_PAK : RegDef := ⟨0x10000300160, 256, 0x400, 1, 0x0, 17, 0x10000000000, true,
  [TILE_P_PAK.shift]⟩

def TILE_P_CNV_H.k0 : Fld := ⟨0x10000300180, 0x400, 0x8, 0x10000000000, 0, 16, .rw, 0⟩
def TILE_P_CNV_H.k1 : Fld := ⟨0x10000300180, 0x400, 0x8, 0x10000000000, 16, 16, .rw, 0⟩
def TILE_P_CNV_H.k2 : Fld := ⟨0x10000300180, 0x400, 0x8, 0x10000000000, 32, 16, .rw, 0⟩
def TILE_P_CNV_H.k3 : Fld := ⟨0x10000300180, 0x400, 0x8, 0x10000000000, 48, 16, .rw, 0⟩
/-- TILE_P_CNV_H (R172). -/
def TILE_P_CNV_H : RegDef := ⟨0x10000300180, 256, 0x400, 4, 0x8, 17, 0x10000000000, true,
  [TILE_P_CNV_H.k0, TILE_P_CNV_H.k1, TILE_P_CNV_H.k2, TILE_P_CNV_H.k3]⟩

def TILE_P_CNV_V.k0 : Fld := ⟨0x100003001A0, 0x400, 0x8, 0x10000000000, 0, 16, .rw, 0⟩
def TILE_P_CNV_V.k1 : Fld := ⟨0x100003001A0, 0x400, 0x8, 0x10000000000, 16, 16, .rw, 0⟩
def TILE_P_CNV_V.k2 : Fld := ⟨0x100003001A0, 0x400, 0x8, 0x10000000000, 32, 16, .rw, 0⟩
def TILE_P_CNV_V.k3 : Fld := ⟨0x100003001A0, 0x400, 0x8, 0x10000000000, 48, 16, .rw, 0⟩
/-- TILE_P_CNV_V (R172). -/
def TILE_P_CNV_V : RegDef := ⟨0x100003001A0, 256, 0x400, 4, 0x8, 17, 0x10000000000, true,
  [TILE_P_CNV_V.k0, TILE_P_CNV_V.k1, TILE_P_CNV_V.k2, TILE_P_CNV_V.k3]⟩

def TILE_P_LIN.base : Fld := ⟨0x10000300200, 0x400, 0x8, 0x10000000000, 0, 18, .rw, 0⟩
def TILE_P_LIN.slope : Fld := ⟨0x10000300200, 0x400, 0x8, 0x10000000000, 18, 18, .rw, 0⟩
/-- TILE_P_LIN (R172). -/
def TILE_P_LIN : RegDef := ⟨0x10000300200, 256, 0x400, 32, 0x8, 17, 0x10000000000, true,
  [TILE_P_LIN.base, TILE_P_LIN.slope]⟩

def KAL_CTRL.enable : Fld := ⟨0x400000, 0x1000, 0x0, 0x0, 0, 1, .rwl, 0⟩
def KAL_CTRL.in_q : Fld := ⟨0x400000, 0x1000, 0x0, 0x0, 1, 15, .rwl, 0⟩
def KAL_CTRL.in_width : Fld := ⟨0x400000, 0x1000, 0x0, 0x0, 16, 16, .rwl, 0⟩
def KAL_CTRL.n_int : Fld := ⟨0x400000, 0x1000, 0x0, 0x0, 32, 3, .rwl, 0⟩
def KAL_CTRL.n_out : Fld := ⟨0x400000, 0x1000, 0x0, 0x0, 35, 3, .rwl, 0⟩
def KAL_CTRL.owner : Fld := ⟨0x400000, 0x1000, 0x0, 0x0, 38, 4, .rwl, 0⟩
/-- KAL_CTRL (R192). -/
def KAL_CTRL : RegDef := ⟨0x400000, 32, 0x1000, 1, 0x0, 1, 0x0, false,
  [KAL_CTRL.enable, KAL_CTRL.in_q, KAL_CTRL.in_width, KAL_CTRL.n_int, KAL_CTRL.n_out, KAL_CTRL.owner]⟩

def KAL_MOSAIC.px : Fld := ⟨0x400008, 0x1000, 0x0, 0x0, 0, 3, .rwl, 0⟩
def KAL_MOSAIC.py : Fld := ⟨0x400008, 0x1000, 0x0, 0x0, 3, 3, .rwl, 0⟩
def KAL_MOSAIC.col_phase : Fld := ⟨0x400008, 0x1000, 0x0, 0x0, 6, 3, .rwl, 0⟩
/-- KAL_MOSAIC (R192). -/
def KAL_MOSAIC : RegDef := ⟨0x400008, 32, 0x1000, 1, 0x0, 1, 0x0, false,
  [KAL_MOSAIC.px, KAL_MOSAIC.py, KAL_MOSAIC.col_phase]⟩

def KAL_SCRATCH.base : Fld := ⟨0x400010, 0x1000, 0x0, 0x0, 0, 23, .rwl, 0⟩
def KAL_SCRATCH.stride : Fld := ⟨0x400010, 0x1000, 0x0, 0x0, 23, 23, .rwl, 0⟩
/-- KAL_SCRATCH (R192). -/
def KAL_SCRATCH : RegDef := ⟨0x400010, 32, 0x1000, 1, 0x0, 1, 0x0, false,
  [KAL_SCRATCH.base, KAL_SCRATCH.stride]⟩

def KAL_CELLS.code0 : Fld := ⟨0x400020, 0x1000, 0x8, 0x0, 0, 3, .rwl, 0⟩
def KAL_CELLS.code1 : Fld := ⟨0x400020, 0x1000, 0x8, 0x0, 3, 3, .rwl, 0⟩
def KAL_CELLS.code2 : Fld := ⟨0x400020, 0x1000, 0x8, 0x0, 6, 3, .rwl, 0⟩
def KAL_CELLS.code3 : Fld := ⟨0x400020, 0x1000, 0x8, 0x0, 9, 3, .rwl, 0⟩
def KAL_CELLS.code4 : Fld := ⟨0x400020, 0x1000, 0x8, 0x0, 12, 3, .rwl, 0⟩
def KAL_CELLS.code5 : Fld := ⟨0x400020, 0x1000, 0x8, 0x0, 15, 3, .rwl, 0⟩
def KAL_CELLS.code6 : Fld := ⟨0x400020, 0x1000, 0x8, 0x0, 18, 3, .rwl, 0⟩
def KAL_CELLS.code7 : Fld := ⟨0x400020, 0x1000, 0x8, 0x0, 21, 3, .rwl, 0⟩
def KAL_CELLS.code8 : Fld := ⟨0x400020, 0x1000, 0x8, 0x0, 24, 3, .rwl, 0⟩
def KAL_CELLS.code9 : Fld := ⟨0x400020, 0x1000, 0x8, 0x0, 27, 3, .rwl, 0⟩
def KAL_CELLS.code10 : Fld := ⟨0x400020, 0x1000, 0x8, 0x0, 30, 3, .rwl, 0⟩
def KAL_CELLS.code11 : Fld := ⟨0x400020, 0x1000, 0x8, 0x0, 33, 3, .rwl, 0⟩
def KAL_CELLS.code12 : Fld := ⟨0x400020, 0x1000, 0x8, 0x0, 36, 3, .rwl, 0⟩
def KAL_CELLS.code13 : Fld := ⟨0x400020, 0x1000, 0x8, 0x0, 39, 3, .rwl, 0⟩
def KAL_CELLS.code14 : Fld := ⟨0x400020, 0x1000, 0x8, 0x0, 42, 3, .rwl, 0⟩
def KAL_CELLS.code15 : Fld := ⟨0x400020, 0x1000, 0x8, 0x0, 45, 3, .rwl, 0⟩
/-- KAL_CELLS (R192). -/
def KAL_CELLS : RegDef := ⟨0x400020, 32, 0x1000, 4, 0x8, 1, 0x0, false,
  [KAL_CELLS.code0, KAL_CELLS.code1, KAL_CELLS.code2, KAL_CELLS.code3, KAL_CELLS.code4, KAL_CELLS.code5, KAL_CELLS.code6, KAL_CELLS.code7, KAL_CELLS.code8, KAL_CELLS.code9, KAL_CELLS.code10, KAL_CELLS.code11, KAL_CELLS.code12, KAL_CELLS.code13, KAL_CELLS.code14, KAL_CELLS.code15]⟩

def KAL_OUT.out_q : Fld := ⟨0x400040, 0x1000, 0x8, 0x0, 0, 15, .rwl, 0⟩
def KAL_OUT.source_ordinal : Fld := ⟨0x400040, 0x1000, 0x8, 0x0, 15, 7, .rwl, 0⟩
/-- KAL_OUT (R192). -/
def KAL_OUT : RegDef := ⟨0x400040, 32, 0x1000, 6, 0x8, 1, 0x0, false,
  [KAL_OUT.out_q, KAL_OUT.source_ordinal]⟩

def KAL_COMMIT.commit_index : Fld := ⟨0x400080, 0x1000, 0x0, 0x0, 0, 48, .rw, 0⟩
def KAL_COMMIT.ctx_mask : Fld := ⟨0x400080, 0x1000, 0x0, 0x0, 48, 16, .rw, 0⟩
/-- KAL_COMMIT (R192). -/
def KAL_COMMIT : RegDef := ⟨0x400080, 32, 0x1000, 1, 0x0, 1, 0x0, false,
  [KAL_COMMIT.commit_index, KAL_COMMIT.ctx_mask]⟩

def KAL_COMMIT_CTL.arm : Fld := ⟨0x400088, 0x1000, 0x0, 0x0, 0, 1, .w1s, 0⟩
def KAL_COMMIT_CTL.cancel : Fld := ⟨0x400088, 0x1000, 0x0, 0x0, 1, 1, .w1s, 0⟩
def KAL_COMMIT_CTL.status : Fld := ⟨0x400088, 0x1000, 0x0, 0x0, 2, 2, .ro, 0⟩
def KAL_COMMIT_CTL.late : Fld := ⟨0x400088, 0x1000, 0x0, 0x0, 4, 1, .ro, 0⟩
def KAL_COMMIT_CTL.pending_ctx : Fld := ⟨0x400088, 0x1000, 0x0, 0x0, 5, 16, .ro, 0⟩
/-- KAL_COMMIT_CTL (R192). -/
def KAL_COMMIT_CTL : RegDef := ⟨0x400088, 32, 0x1000, 1, 0x0, 1, 0x0, false,
  [KAL_COMMIT_CTL.arm, KAL_COMMIT_CTL.cancel, KAL_COMMIT_CTL.status, KAL_COMMIT_CTL.late, KAL_COMMIT_CTL.pending_ctx]⟩

def KAL_BANK_SEL.bank : Fld := ⟨0x400090, 0x1000, 0x0, 0x0, 0, 5, .rw, 0⟩
def KAL_BANK_SEL.src : Fld := ⟨0x400090, 0x1000, 0x0, 0x0, 5, 5, .rw, 0⟩
def KAL_BANK_SEL.copy : Fld := ⟨0x400090, 0x1000, 0x0, 0x0, 10, 1, .w1s, 0⟩
/-- KAL_BANK_SEL (R192). -/
def KAL_BANK_SEL : RegDef := ⟨0x400090, 32, 0x1000, 1, 0x0, 1, 0x0, false,
  [KAL_BANK_SEL.bank, KAL_BANK_SEL.src, KAL_BANK_SEL.copy]⟩

def KAL_STAT.lines : Fld := ⟨0x4000A0, 0x1000, 0x0, 0x0, 0, 32, .rc, 0⟩
def KAL_STAT.residue_fail : Fld := ⟨0x4000A0, 0x1000, 0x0, 0x0, 32, 16, .rc, 0⟩
def KAL_STAT.replay_fail : Fld := ⟨0x4000A0, 0x1000, 0x0, 0x0, 48, 16, .rc, 0⟩
/-- KAL_STAT (R192). -/
def KAL_STAT : RegDef := ⟨0x4000A0, 32, 0x1000, 1, 0x0, 1, 0x0, false,
  [KAL_STAT.lines, KAL_STAT.residue_fail, KAL_STAT.replay_fail]⟩

def KAL_STAT2.substituted : Fld := ⟨0x4000A8, 0x1000, 0x0, 0x0, 0, 16, .rc, 0⟩
def KAL_STAT2.gap_fail : Fld := ⟨0x4000A8, 0x1000, 0x0, 0x0, 16, 16, .rc, 0⟩
def KAL_STAT2.gen_mixed : Fld := ⟨0x4000A8, 0x1000, 0x0, 0x0, 32, 16, .rc, 0⟩
def KAL_STAT2.clipped : Fld := ⟨0x4000A8, 0x1000, 0x0, 0x0, 48, 16, .rc, 0⟩
/-- KAL_STAT2 (R192). -/
def KAL_STAT2 : RegDef := ⟨0x4000A8, 32, 0x1000, 1, 0x0, 1, 0x0, false,
  [KAL_STAT2.substituted, KAL_STAT2.gap_fail, KAL_STAT2.gen_mixed, KAL_STAT2.clipped]⟩

def KAL_P_KERN.kernel_base : Fld := ⟨0x10000400100, 0x1000, 0x0, 0x10000000000, 0, 23, .rw, 0⟩
def KAL_P_KERN.v_half : Fld := ⟨0x10000400100, 0x1000, 0x0, 0x10000000000, 23, 2, .rw, 0⟩
def KAL_P_KERN.guided : Fld := ⟨0x10000400100, 0x1000, 0x0, 0x10000000000, 25, 1, .rw, 0⟩
/-- KAL_P_KERN (R192). -/
def KAL_P_KERN : RegDef := ⟨0x10000400100, 32, 0x1000, 1, 0x0, 17, 0x10000000000, true,
  [KAL_P_KERN.kernel_base, KAL_P_KERN.v_half, KAL_P_KERN.guided]⟩

def KAL_P_PLANE.channel0 : Fld := ⟨0x10000400108, 0x1000, 0x0, 0x10000000000, 0, 3, .rw, 0⟩
def KAL_P_PLANE.channel1 : Fld := ⟨0x10000400108, 0x1000, 0x0, 0x10000000000, 7, 3, .rw, 0⟩
def KAL_P_PLANE.channel2 : Fld := ⟨0x10000400108, 0x1000, 0x0, 0x10000000000, 14, 3, .rw, 0⟩
def KAL_P_PLANE.channel3 : Fld := ⟨0x10000400108, 0x1000, 0x0, 0x10000000000, 21, 3, .rw, 0⟩
def KAL_P_PLANE.channel4 : Fld := ⟨0x10000400108, 0x1000, 0x0, 0x10000000000, 28, 3, .rw, 0⟩
def KAL_P_PLANE.channel5 : Fld := ⟨0x10000400108, 0x1000, 0x0, 0x10000000000, 35, 3, .rw, 0⟩
def KAL_P_PLANE.centre_row0 : Fld := ⟨0x10000400108, 0x1000, 0x0, 0x10000000000, 3, 3, .rw, 0⟩
def KAL_P_PLANE.centre_row1 : Fld := ⟨0x10000400108, 0x1000, 0x0, 0x10000000000, 10, 3, .rw, 0⟩
def KAL_P_PLANE.centre_row2 : Fld := ⟨0x10000400108, 0x1000, 0x0, 0x10000000000, 17, 3, .rw, 0⟩
def KAL_P_PLANE.centre_row3 : Fld := ⟨0x10000400108, 0x1000, 0x0, 0x10000000000, 24, 3, .rw, 0⟩
def KAL_P_PLANE.centre_row4 : Fld := ⟨0x10000400108, 0x1000, 0x0, 0x10000000000, 31, 3, .rw, 0⟩
def KAL_P_PLANE.centre_row5 : Fld := ⟨0x10000400108, 0x1000, 0x0, 0x10000000000, 38, 3, .rw, 0⟩
def KAL_P_PLANE.guided0 : Fld := ⟨0x10000400108, 0x1000, 0x0, 0x10000000000, 6, 1, .rw, 0⟩
def KAL_P_PLANE.guided1 : Fld := ⟨0x10000400108, 0x1000, 0x0, 0x10000000000, 13, 1, .rw, 0⟩
def KAL_P_PLANE.guided2 : Fld := ⟨0x10000400108, 0x1000, 0x0, 0x10000000000, 20, 1, .rw, 0⟩
def KAL_P_PLANE.guided3 : Fld := ⟨0x10000400108, 0x1000, 0x0, 0x10000000000, 27, 1, .rw, 0⟩
def KAL_P_PLANE.guided4 : Fld := ⟨0x10000400108, 0x1000, 0x0, 0x10000000000, 34, 1, .rw, 0⟩
def KAL_P_PLANE.guided5 : Fld := ⟨0x10000400108, 0x1000, 0x0, 0x10000000000, 41, 1, .rw, 0⟩
/-- KAL_P_PLANE (R192). -/
def KAL_P_PLANE : RegDef := ⟨0x10000400108, 32, 0x1000, 1, 0x0, 17, 0x10000000000, true,
  [KAL_P_PLANE.channel0, KAL_P_PLANE.channel1, KAL_P_PLANE.channel2, KAL_P_PLANE.channel3, KAL_P_PLANE.channel4, KAL_P_PLANE.channel5, KAL_P_PLANE.centre_row0, KAL_P_PLANE.centre_row1, KAL_P_PLANE.centre_row2, KAL_P_PLANE.centre_row3, KAL_P_PLANE.centre_row4, KAL_P_PLANE.centre_row5, KAL_P_PLANE.guided0, KAL_P_PLANE.guided1, KAL_P_PLANE.guided2, KAL_P_PLANE.guided3, KAL_P_PLANE.guided4, KAL_P_PLANE.guided5]⟩

def KAL_P_OFFSETS.off0 : Fld := ⟨0x10000400110, 0x1000, 0x0, 0x10000000000, 0, 5, .rw, 0⟩
def KAL_P_OFFSETS.off1 : Fld := ⟨0x10000400110, 0x1000, 0x0, 0x10000000000, 5, 5, .rw, 0⟩
def KAL_P_OFFSETS.off2 : Fld := ⟨0x10000400110, 0x1000, 0x0, 0x10000000000, 10, 5, .rw, 0⟩
def KAL_P_OFFSETS.off3 : Fld := ⟨0x10000400110, 0x1000, 0x0, 0x10000000000, 15, 5, .rw, 0⟩
def KAL_P_OFFSETS.off4 : Fld := ⟨0x10000400110, 0x1000, 0x0, 0x10000000000, 20, 5, .rw, 0⟩
def KAL_P_OFFSETS.off5 : Fld := ⟨0x10000400110, 0x1000, 0x0, 0x10000000000, 25, 5, .rw, 0⟩
def KAL_P_OFFSETS.off6 : Fld := ⟨0x10000400110, 0x1000, 0x0, 0x10000000000, 30, 5, .rw, 0⟩
def KAL_P_OFFSETS.off7 : Fld := ⟨0x10000400110, 0x1000, 0x0, 0x10000000000, 35, 5, .rw, 0⟩
/-- KAL_P_OFFSETS (R192). -/
def KAL_P_OFFSETS : RegDef := ⟨0x10000400110, 32, 0x1000, 1, 0x0, 17, 0x10000000000, true,
  [KAL_P_OFFSETS.off0, KAL_P_OFFSETS.off1, KAL_P_OFFSETS.off2, KAL_P_OFFSETS.off3, KAL_P_OFFSETS.off4, KAL_P_OFFSETS.off5, KAL_P_OFFSETS.off6, KAL_P_OFFSETS.off7]⟩

def KAL_P_SEL.sel0 : Fld := ⟨0x10000400118, 0x1000, 0x0, 0x10000000000, 0, 3, .rw, 0⟩
def KAL_P_SEL.sel1 : Fld := ⟨0x10000400118, 0x1000, 0x0, 0x10000000000, 3, 3, .rw, 0⟩
def KAL_P_SEL.sel2 : Fld := ⟨0x10000400118, 0x1000, 0x0, 0x10000000000, 6, 3, .rw, 0⟩
def KAL_P_SEL.sel3 : Fld := ⟨0x10000400118, 0x1000, 0x0, 0x10000000000, 9, 3, .rw, 0⟩
def KAL_P_SEL.sel4 : Fld := ⟨0x10000400118, 0x1000, 0x0, 0x10000000000, 12, 3, .rw, 0⟩
def KAL_P_SEL.sel5 : Fld := ⟨0x10000400118, 0x1000, 0x0, 0x10000000000, 15, 3, .rw, 0⟩
def KAL_P_SEL.xt_bypass : Fld := ⟨0x10000400118, 0x1000, 0x0, 0x10000000000, 18, 1, .rw, 0⟩
/-- KAL_P_SEL (R192). -/
def KAL_P_SEL : RegDef := ⟨0x10000400118, 32, 0x1000, 1, 0x0, 17, 0x10000000000, true,
  [KAL_P_SEL.sel0, KAL_P_SEL.sel1, KAL_P_SEL.sel2, KAL_P_SEL.sel3, KAL_P_SEL.sel4, KAL_P_SEL.sel5, KAL_P_SEL.xt_bypass]⟩

def KAL_P_LUMA.w0 : Fld := ⟨0x10000400120, 0x1000, 0x8, 0x10000000000, 0, 16, .rw, 0⟩
def KAL_P_LUMA.w1 : Fld := ⟨0x10000400120, 0x1000, 0x8, 0x10000000000, 16, 16, .rw, 0⟩
def KAL_P_LUMA.w2 : Fld := ⟨0x10000400120, 0x1000, 0x8, 0x10000000000, 32, 16, .rw, 0⟩
def KAL_P_LUMA.w3 : Fld := ⟨0x10000400120, 0x1000, 0x8, 0x10000000000, 48, 16, .rw, 0⟩
/-- KAL_P_LUMA (R192). -/
def KAL_P_LUMA : RegDef := ⟨0x10000400120, 32, 0x1000, 2, 0x8, 17, 0x10000000000, true,
  [KAL_P_LUMA.w0, KAL_P_LUMA.w1, KAL_P_LUMA.w2, KAL_P_LUMA.w3]⟩

def KAL_P_XT.coeff0 : Fld := ⟨0x10000400140, 0x1000, 0x8, 0x10000000000, 0, 17, .rw, 0⟩
def KAL_P_XT.coeff1 : Fld := ⟨0x10000400140, 0x1000, 0x8, 0x10000000000, 17, 17, .rw, 0⟩
def KAL_P_XT.coeff2 : Fld := ⟨0x10000400140, 0x1000, 0x8, 0x10000000000, 34, 17, .rw, 0⟩
/-- KAL_P_XT (R192). -/
def KAL_P_XT : RegDef := ⟨0x10000400140, 32, 0x1000, 12, 0x8, 17, 0x10000000000, true,
  [KAL_P_XT.coeff0, KAL_P_XT.coeff1, KAL_P_XT.coeff2]⟩

def PGR_CTRL.enable : Fld := ⟨0x480000, 0x1000, 0x0, 0x0, 0, 1, .rwl, 0⟩
def PGR_CTRL.owner : Fld := ⟨0x480000, 0x1000, 0x0, 0x0, 1, 4, .rwl, 0⟩
/-- PGR_CTRL (R213). -/
def PGR_CTRL : RegDef := ⟨0x480000, 32, 0x1000, 1, 0x0, 1, 0x0, false,
  [PGR_CTRL.enable, PGR_CTRL.owner]⟩

def PGR_STREAM_A.in_q : Fld := ⟨0x480040, 0x1000, 0x40, 0x0, 0, 15, .rwl, 0⟩
def PGR_STREAM_A.out_q : Fld := ⟨0x480040, 0x1000, 0x40, 0x0, 15, 15, .rwl, 0⟩
def PGR_STREAM_A.enable : Fld := ⟨0x480040, 0x1000, 0x40, 0x0, 30, 1, .rwl, 0⟩
def PGR_STREAM_A.in_width : Fld := ⟨0x480040, 0x1000, 0x40, 0x0, 31, 16, .rwl, 0⟩
/-- PGR_STREAM_A (R213). -/
def PGR_STREAM_A : RegDef := ⟨0x480040, 32, 0x1000, 4, 0x40, 1, 0x0, false,
  [PGR_STREAM_A.in_q, PGR_STREAM_A.out_q, PGR_STREAM_A.enable, PGR_STREAM_A.in_width]⟩

def PGR_STREAM_B.g_start : Fld := ⟨0x480048, 0x1000, 0x40, 0x0, 0, 24, .rwl, 0⟩
def PGR_STREAM_B.g_count : Fld := ⟨0x480048, 0x1000, 0x40, 0x0, 24, 16, .rwl, 0⟩
def PGR_STREAM_B.int_k : Fld := ⟨0x480048, 0x1000, 0x40, 0x0, 40, 5, .rwl, 0⟩
/-- PGR_STREAM_B (R213). -/
def PGR_STREAM_B : RegDef := ⟨0x480048, 32, 0x1000, 4, 0x40, 1, 0x0, false,
  [PGR_STREAM_B.g_start, PGR_STREAM_B.g_count, PGR_STREAM_B.int_k]⟩

def PGR_ROWS.row_shift : Fld := ⟨0x480050, 0x1000, 0x40, 0x0, 0, 32, .rwl, 0⟩
/-- PGR_ROWS (R213). -/
def PGR_ROWS : RegDef := ⟨0x480050, 32, 0x1000, 4, 0x40, 1, 0x0, false,
  [PGR_ROWS.row_shift]⟩

def PGR_SCRATCH.base : Fld := ⟨0x480058, 0x1000, 0x40, 0x0, 0, 23, .rwl, 0⟩
def PGR_SCRATCH.stride : Fld := ⟨0x480058, 0x1000, 0x40, 0x0, 23, 23, .rwl, 0⟩
/-- PGR_SCRATCH (R213). -/
def PGR_SCRATCH : RegDef := ⟨0x480058, 32, 0x1000, 4, 0x40, 1, 0x0, false,
  [PGR_SCRATCH.base, PGR_SCRATCH.stride]⟩

def PGR_STAT.lines : Fld := ⟨0x480060, 0x1000, 0x40, 0x0, 0, 32, .rc, 0⟩
def PGR_STAT.late : Fld := ⟨0x480060, 0x1000, 0x40, 0x0, 32, 16, .rc, 0⟩
def PGR_STAT.mid_missing : Fld := ⟨0x480060, 0x1000, 0x40, 0x0, 48, 16, .rc, 0⟩
/-- PGR_STAT (R213). -/
def PGR_STAT : RegDef := ⟨0x480060, 32, 0x1000, 4, 0x40, 1, 0x0, false,
  [PGR_STAT.lines, PGR_STAT.late, PGR_STAT.mid_missing]⟩

def PGR_STAT2.clipped : Fld := ⟨0x480068, 0x1000, 0x40, 0x0, 0, 16, .rc, 0⟩
def PGR_STAT2.bridged : Fld := ⟨0x480068, 0x1000, 0x40, 0x0, 16, 16, .rc, 0⟩
def PGR_STAT2.gen_mixed : Fld := ⟨0x480068, 0x1000, 0x40, 0x0, 32, 16, .rc, 0⟩
def PGR_STAT2.map_clamped : Fld := ⟨0x480068, 0x1000, 0x40, 0x0, 48, 16, .rc, 0⟩
/-- PGR_STAT2 (R213). -/
def PGR_STAT2 : RegDef := ⟨0x480068, 32, 0x1000, 4, 0x40, 1, 0x0, false,
  [PGR_STAT2.clipped, PGR_STAT2.bridged, PGR_STAT2.gen_mixed, PGR_STAT2.map_clamped]⟩

def PGR_STAT3.residue_fail : Fld := ⟨0x480070, 0x1000, 0x40, 0x0, 0, 16, .rc, 0⟩
def PGR_STAT3.replay_fail : Fld := ⟨0x480070, 0x1000, 0x40, 0x0, 16, 16, .rc, 0⟩
/-- PGR_STAT3 (R213). -/
def PGR_STAT3 : RegDef := ⟨0x480070, 32, 0x1000, 4, 0x40, 1, 0x0, false,
  [PGR_STAT3.residue_fail, PGR_STAT3.replay_fail]⟩

def PGR_COMMIT.commit_index : Fld := ⟨0x480180, 0x1000, 0x0, 0x0, 0, 48, .rw, 0⟩
def PGR_COMMIT.ctx_mask : Fld := ⟨0x480180, 0x1000, 0x0, 0x0, 48, 16, .rw, 0⟩
/-- PGR_COMMIT (R213). -/
def PGR_COMMIT : RegDef := ⟨0x480180, 32, 0x1000, 1, 0x0, 1, 0x0, false,
  [PGR_COMMIT.commit_index, PGR_COMMIT.ctx_mask]⟩

def PGR_COMMIT_CTL.arm : Fld := ⟨0x480188, 0x1000, 0x0, 0x0, 0, 1, .w1s, 0⟩
def PGR_COMMIT_CTL.cancel : Fld := ⟨0x480188, 0x1000, 0x0, 0x0, 1, 1, .w1s, 0⟩
def PGR_COMMIT_CTL.status : Fld := ⟨0x480188, 0x1000, 0x0, 0x0, 2, 2, .ro, 0⟩
def PGR_COMMIT_CTL.late : Fld := ⟨0x480188, 0x1000, 0x0, 0x0, 4, 1, .ro, 0⟩
def PGR_COMMIT_CTL.pending_ctx : Fld := ⟨0x480188, 0x1000, 0x0, 0x0, 5, 16, .ro, 0⟩
/-- PGR_COMMIT_CTL (R213). -/
def PGR_COMMIT_CTL : RegDef := ⟨0x480188, 32, 0x1000, 1, 0x0, 1, 0x0, false,
  [PGR_COMMIT_CTL.arm, PGR_COMMIT_CTL.cancel, PGR_COMMIT_CTL.status, PGR_COMMIT_CTL.late, PGR_COMMIT_CTL.pending_ctx]⟩

def PGR_BANK_SEL.bank : Fld := ⟨0x480190, 0x1000, 0x0, 0x0, 0, 5, .rw, 0⟩
def PGR_BANK_SEL.src : Fld := ⟨0x480190, 0x1000, 0x0, 0x0, 5, 5, .rw, 0⟩
def PGR_BANK_SEL.copy : Fld := ⟨0x480190, 0x1000, 0x0, 0x0, 10, 1, .w1s, 0⟩
/-- PGR_BANK_SEL (R213). -/
def PGR_BANK_SEL : RegDef := ⟨0x480190, 32, 0x1000, 1, 0x0, 1, 0x0, false,
  [PGR_BANK_SEL.bank, PGR_BANK_SEL.src, PGR_BANK_SEL.copy]⟩

def PGR_P_MODE.along : Fld := ⟨0x10000480200, 0x1000, 0x0, 0x10000000000, 0, 2, .rw, 1⟩
def PGR_P_MODE.lateral : Fld := ⟨0x10000480200, 0x1000, 0x0, 0x10000000000, 2, 2, .rw, 1⟩
def PGR_P_MODE.win : Fld := ⟨0x10000480200, 0x1000, 0x0, 0x10000000000, 4, 8, .rw, 128⟩
def PGR_P_MODE.max_gap : Fld := ⟨0x10000480200, 0x1000, 0x0, 0x10000000000, 12, 3, .rw, 1⟩
def PGR_P_MODE.int_shift : Fld := ⟨0x10000480200, 0x1000, 0x0, 0x10000000000, 15, 3, .rw, 0⟩
/-- PGR_P_MODE (R213). -/
def PGR_P_MODE : RegDef := ⟨0x10000480200, 32, 0x1000, 1, 0x0, 17, 0x10000000000, true,
  [PGR_P_MODE.along, PGR_P_MODE.lateral, PGR_P_MODE.win, PGR_P_MODE.max_gap, PGR_P_MODE.int_shift]⟩

def PGR_P_MAP.map_base : Fld := ⟨0x10000480208, 0x1000, 0x8, 0x10000000000, 0, 23, .rw, 0⟩
/-- PGR_P_MAP (R213). -/
def PGR_P_MAP : RegDef := ⟨0x10000480208, 32, 0x1000, 4, 0x8, 17, 0x10000000000, true,
  [PGR_P_MAP.map_base]⟩

def JIG_CTRL.enable : Fld := ⟨0x500000, 0x1000, 0x0, 0x0, 0, 1, .rwl, 0⟩
def JIG_CTRL.owner : Fld := ⟨0x500000, 0x1000, 0x0, 0x0, 1, 4, .rwl, 0⟩
def JIG_CTRL.in_count : Fld := ⟨0x500000, 0x1000, 0x0, 0x0, 5, 4, .rwl, 0⟩
def JIG_CTRL.out_shape : Fld := ⟨0x500000, 0x1000, 0x0, 0x0, 9, 3, .rwl, 2⟩
def JIG_CTRL.out_shift : Fld := ⟨0x500000, 0x1000, 0x0, 0x0, 12, 5, .rwl, 0⟩
def JIG_CTRL.out_ordinal : Fld := ⟨0x500000, 0x1000, 0x0, 0x0, 17, 7, .rwl, 0⟩
def JIG_CTRL.seam_deadline : Fld := ⟨0x500000, 0x1000, 0x0, 0x0, 24, 16, .rwl, 65535⟩
/-- JIG_CTRL (R235). -/
def JIG_CTRL : RegDef := ⟨0x500000, 16, 0x1000, 1, 0x0, 1, 0x0, false,
  [JIG_CTRL.enable, JIG_CTRL.owner, JIG_CTRL.in_count, JIG_CTRL.out_shape, JIG_CTRL.out_shift, JIG_CTRL.out_ordinal, JIG_CTRL.seam_deadline]⟩

def JIG_OUT.out_q : Fld := ⟨0x500008, 0x1000, 0x0, 0x0, 0, 15, .rwl, 0⟩
def JIG_OUT.out_start : Fld := ⟨0x500008, 0x1000, 0x0, 0x0, 15, 24, .rwl, 0⟩
def JIG_OUT.out_count : Fld := ⟨0x500008, 0x1000, 0x0, 0x0, 39, 18, .rwl, 0⟩
/-- JIG_OUT (R235). -/
def JIG_OUT : RegDef := ⟨0x500008, 16, 0x1000, 1, 0x0, 1, 0x0, false,
  [JIG_OUT.out_q, JIG_OUT.out_start, JIG_OUT.out_count]⟩

def JIG_EXPORT.exp_q : Fld := ⟨0x500010, 0x1000, 0x0, 0x0, 0, 15, .rwl, 0⟩
def JIG_EXPORT.enable : Fld := ⟨0x500010, 0x1000, 0x0, 0x0, 15, 1, .rwl, 0⟩
def JIG_EXPORT.exp_start : Fld := ⟨0x500010, 0x1000, 0x0, 0x0, 16, 24, .rwl, 0⟩
def JIG_EXPORT.exp_count : Fld := ⟨0x500010, 0x1000, 0x0, 0x0, 40, 11, .rwl, 0⟩
/-- JIG_EXPORT (R235). -/
def JIG_EXPORT : RegDef := ⟨0x500010, 16, 0x1000, 1, 0x0, 1, 0x0, false,
  [JIG_EXPORT.exp_q, JIG_EXPORT.enable, JIG_EXPORT.exp_start, JIG_EXPORT.exp_count]⟩

def JIG_REMOTE.rem_q : Fld := ⟨0x500018, 0x1000, 0x8, 0x0, 0, 15, .rwl, 0⟩
def JIG_REMOTE.enable : Fld := ⟨0x500018, 0x1000, 0x8, 0x0, 15, 1, .rwl, 0⟩
def JIG_REMOTE.rem_start : Fld := ⟨0x500018, 0x1000, 0x8, 0x0, 16, 24, .rwl, 0⟩
def JIG_REMOTE.rem_count : Fld := ⟨0x500018, 0x1000, 0x8, 0x0, 40, 11, .rwl, 0⟩
/-- JIG_REMOTE (R235). -/
def JIG_REMOTE : RegDef := ⟨0x500018, 16, 0x1000, 2, 0x8, 1, 0x0, false,
  [JIG_REMOTE.rem_q, JIG_REMOTE.enable, JIG_REMOTE.rem_start, JIG_REMOTE.rem_count]⟩

def JIG_IN.in_q : Fld := ⟨0x500040, 0x1000, 0x8, 0x0, 0, 15, .rwl, 0⟩
def JIG_IN.g_start : Fld := ⟨0x500040, 0x1000, 0x8, 0x0, 15, 24, .rwl, 0⟩
def JIG_IN.g_count : Fld := ⟨0x500040, 0x1000, 0x8, 0x0, 39, 16, .rwl, 0⟩
/-- JIG_IN (R235). -/
def JIG_IN : RegDef := ⟨0x500040, 16, 0x1000, 16, 0x8, 1, 0x0, false,
  [JIG_IN.in_q, JIG_IN.g_start, JIG_IN.g_count]⟩

def JIG_SEAM.mode : Fld := ⟨0x5000C0, 0x1000, 0x8, 0x0, 0, 1, .rwl, 0⟩
def JIG_SEAM.lo : Fld := ⟨0x5000C0, 0x1000, 0x8, 0x0, 1, 24, .rwl, 0⟩
def JIG_SEAM.hi : Fld := ⟨0x5000C0, 0x1000, 0x8, 0x0, 25, 24, .rwl, 0⟩
/-- JIG_SEAM (R235). -/
def JIG_SEAM : RegDef := ⟨0x5000C0, 16, 0x1000, 17, 0x8, 1, 0x0, false,
  [JIG_SEAM.mode, JIG_SEAM.lo, JIG_SEAM.hi]⟩

def JIG_STAT.lines : Fld := ⟨0x500180, 0x1000, 0x0, 0x0, 0, 32, .rc, 0⟩
def JIG_STAT.half_seams : Fld := ⟨0x500180, 0x1000, 0x0, 0x0, 32, 16, .rc, 0⟩
def JIG_STAT.filled : Fld := ⟨0x500180, 0x1000, 0x0, 0x0, 48, 16, .rc, 0⟩
/-- JIG_STAT (R235). -/
def JIG_STAT : RegDef := ⟨0x500180, 16, 0x1000, 1, 0x0, 1, 0x0, false,
  [JIG_STAT.lines, JIG_STAT.half_seams, JIG_STAT.filled]⟩

def JIG_STAT2.late_discards : Fld := ⟨0x500188, 0x1000, 0x0, 0x0, 0, 16, .rc, 0⟩
def JIG_STAT2.seam_late : Fld := ⟨0x500188, 0x1000, 0x0, 0x0, 16, 16, .rc, 0⟩
def JIG_STAT2.export_drops : Fld := ⟨0x500188, 0x1000, 0x0, 0x0, 32, 16, .rc, 0⟩
def JIG_STAT2.gen_split : Fld := ⟨0x500188, 0x1000, 0x0, 0x0, 48, 16, .rc, 0⟩
/-- JIG_STAT2 (R235). -/
def JIG_STAT2 : RegDef := ⟨0x500188, 16, 0x1000, 1, 0x0, 1, 0x0, false,
  [JIG_STAT2.late_discards, JIG_STAT2.seam_late, JIG_STAT2.export_drops, JIG_STAT2.gen_split]⟩

def JIG_STAT3.residue_fail : Fld := ⟨0x500190, 0x1000, 0x0, 0x0, 0, 16, .rc, 0⟩
def JIG_STAT3.replay_fail : Fld := ⟨0x500190, 0x1000, 0x0, 0x0, 16, 16, .rc, 0⟩
def JIG_STAT3.pilcrow_mismatch : Fld := ⟨0x500190, 0x1000, 0x0, 0x0, 32, 16, .rc, 0⟩
def JIG_STAT3.clipped : Fld := ⟨0x500190, 0x1000, 0x0, 0x0, 48, 16, .rc, 0⟩
/-- JIG_STAT3 (R235). -/
def JIG_STAT3 : RegDef := ⟨0x500190, 16, 0x1000, 1, 0x0, 1, 0x0, false,
  [JIG_STAT3.residue_fail, JIG_STAT3.replay_fail, JIG_STAT3.pilcrow_mismatch, JIG_STAT3.clipped]⟩

def JIG_STATE.behind : Fld := ⟨0x500198, 0x1000, 0x0, 0x0, 0, 16, .ro, 0⟩
def JIG_STATE.rem_behind : Fld := ⟨0x500198, 0x1000, 0x0, 0x0, 16, 2, .ro, 0⟩
/-- JIG_STATE (R235). -/
def JIG_STATE : RegDef := ⟨0x500198, 16, 0x1000, 1, 0x0, 1, 0x0, false,
  [JIG_STATE.behind, JIG_STATE.rem_behind]⟩

def JIG_COL_CFG.enable : Fld := ⟨0x500200, 0x1000, 0x0, 0x0, 0, 1, .rwl, 0⟩
def JIG_COL_CFG.out_q : Fld := ⟨0x500200, 0x1000, 0x0, 0x0, 1, 15, .rwl, 0⟩
def JIG_COL_CFG.in_base : Fld := ⟨0x500200, 0x1000, 0x0, 0x0, 16, 15, .rwl, 0⟩
def JIG_COL_CFG.in_count : Fld := ⟨0x500200, 0x1000, 0x0, 0x0, 31, 4, .rwl, 0⟩
def JIG_COL_CFG.block_deadline : Fld := ⟨0x500200, 0x1000, 0x0, 0x0, 35, 16, .rwl, 65535⟩
/-- JIG_COL_CFG (R235). -/
def JIG_COL_CFG : RegDef := ⟨0x500200, 16, 0x1000, 1, 0x0, 1, 0x0, false,
  [JIG_COL_CFG.enable, JIG_COL_CFG.out_q, JIG_COL_CFG.in_base, JIG_COL_CFG.in_count, JIG_COL_CFG.block_deadline]⟩

def JIG_COL_STAT.lines : Fld := ⟨0x500208, 0x1000, 0x0, 0x0, 0, 32, .rc, 0⟩
def JIG_COL_STAT.deadline_ellipses : Fld := ⟨0x500208, 0x1000, 0x0, 0x0, 32, 16, .rc, 0⟩
def JIG_COL_STAT.late_discards : Fld := ⟨0x500208, 0x1000, 0x0, 0x0, 48, 16, .rc, 0⟩
/-- JIG_COL_STAT (R235). -/
def JIG_COL_STAT : RegDef := ⟨0x500208, 16, 0x1000, 1, 0x0, 1, 0x0, false,
  [JIG_COL_STAT.lines, JIG_COL_STAT.deadline_ellipses, JIG_COL_STAT.late_discards]⟩

def JIG_COL_STAT2.pilcrow_mismatch : Fld := ⟨0x500210, 0x1000, 0x0, 0x0, 0, 16, .rc, 0⟩
def JIG_COL_STAT2.forced_closures : Fld := ⟨0x500210, 0x1000, 0x0, 0x0, 16, 16, .rc, 0⟩
/-- JIG_COL_STAT2 (R235). -/
def JIG_COL_STAT2 : RegDef := ⟨0x500210, 16, 0x1000, 1, 0x0, 1, 0x0, false,
  [JIG_COL_STAT2.pilcrow_mismatch, JIG_COL_STAT2.forced_closures]⟩

def JIG_COL_EXP.ordinals_low : Fld := ⟨0x500300, 0x1000, 0x10, 0x0, 0, 64, .rwl, 0⟩
/-- JIG_COL_EXP (R235). -/
def JIG_COL_EXP : RegDef := ⟨0x500300, 16, 0x1000, 16, 0x10, 1, 0x0, false,
  [JIG_COL_EXP.ordinals_low]⟩

def JIG_COL_EXP_HI.ordinals_high : Fld := ⟨0x500308, 0x1000, 0x10, 0x0, 0, 64, .rwl, 0⟩
/-- JIG_COL_EXP_HI (R235). -/
def JIG_COL_EXP_HI : RegDef := ⟨0x500308, 16, 0x1000, 16, 0x10, 1, 0x0, false,
  [JIG_COL_EXP_HI.ordinals_high]⟩

def ABA_CTRL.enable : Fld := ⟨0x580000, 0x1000, 0x0, 0x0, 0, 1, .rwl, 0⟩
def ABA_CTRL.owner : Fld := ⟨0x580000, 0x1000, 0x0, 0x0, 1, 4, .rwl, 0⟩
def ABA_CTRL.in_q : Fld := ⟨0x580000, 0x1000, 0x0, 0x0, 5, 15, .rwl, 0⟩
def ABA_CTRL.rec_q : Fld := ⟨0x580000, 0x1000, 0x0, 0x0, 20, 15, .rwl, 0⟩
def ABA_CTRL.rec_ordinal : Fld := ⟨0x580000, 0x1000, 0x0, 0x0, 35, 7, .rwl, 0⟩
def ABA_CTRL.stats_en : Fld := ⟨0x580000, 0x1000, 0x0, 0x0, 42, 1, .rwl, 0⟩
def ABA_CTRL.hist_en : Fld := ⟨0x580000, 0x1000, 0x0, 0x0, 43, 1, .rwl, 0⟩
def ABA_CTRL.screen_en : Fld := ⟨0x580000, 0x1000, 0x0, 0x0, 44, 1, .rwl, 0⟩
def ABA_CTRL.gen_policy : Fld := ⟨0x580000, 0x1000, 0x0, 0x0, 45, 1, .rwl, 0⟩
def ABA_CTRL.skip_suspect : Fld := ⟨0x580000, 0x1000, 0x0, 0x0, 46, 1, .rwl, 0⟩
/-- ABA_CTRL (R254). -/
def ABA_CTRL : RegDef := ⟨0x580000, 64, 0x1000, 1, 0x0, 1, 0x0, false,
  [ABA_CTRL.enable, ABA_CTRL.owner, ABA_CTRL.in_q, ABA_CTRL.rec_q, ABA_CTRL.rec_ordinal, ABA_CTRL.stats_en, ABA_CTRL.hist_en, ABA_CTRL.screen_en, ABA_CTRL.gen_policy, ABA_CTRL.skip_suspect]⟩

def ABA_CTX.ctx_mask : Fld := ⟨0x580008, 0x1000, 0x0, 0x0, 0, 16, .rwl, 0⟩
def ABA_CTX.hist_ctx_mask : Fld := ⟨0x580008, 0x1000, 0x0, 0x0, 16, 16, .rwl, 0⟩
def ABA_CTX.in_width : Fld := ⟨0x580008, 0x1000, 0x0, 0x0, 32, 16, .rwl, 0⟩
/-- ABA_CTX (R254). -/
def ABA_CTX : RegDef := ⟨0x580008, 64, 0x1000, 1, 0x0, 1, 0x0, false,
  [ABA_CTX.ctx_mask, ABA_CTX.hist_ctx_mask, ABA_CTX.in_width]⟩

def ABA_COLS.col_base : Fld := ⟨0x580010, 0x1000, 0x0, 0x0, 0, 24, .rwl, 0⟩
def ABA_COLS.hist_zone : Fld := ⟨0x580010, 0x1000, 0x0, 0x0, 24, 6, .rwl, 0⟩
def ABA_COLS.bins_log2 : Fld := ⟨0x580010, 0x1000, 0x0, 0x0, 30, 4, .rwl, 12⟩
def ABA_COLS.hist_shift : Fld := ⟨0x580010, 0x1000, 0x0, 0x0, 34, 5, .rwl, 0⟩
def ABA_COLS.hist_lo : Fld := ⟨0x580010, 0x1000, 0x0, 0x0, 39, 24, .rwl, 0⟩
/-- ABA_COLS (R254). -/
def ABA_COLS : RegDef := ⟨0x580010, 64, 0x1000, 1, 0x0, 1, 0x0, false,
  [ABA_COLS.col_base, ABA_COLS.hist_zone, ABA_COLS.bins_log2, ABA_COLS.hist_shift, ABA_COLS.hist_lo]⟩

def ABA_SCREEN.k : Fld := ⟨0x580018, 0x1000, 0x0, 0x0, 0, 4, .rw, 6⟩
def ABA_SCREEN.thr : Fld := ⟨0x580018, 0x1000, 0x0, 0x0, 4, 23, .rw, 8388607⟩
def ABA_SCREEN.gap : Fld := ⟨0x580018, 0x1000, 0x0, 0x0, 27, 4, .rw, 0⟩
def ABA_SCREEN.min_run : Fld := ⟨0x580018, 0x1000, 0x0, 0x0, 31, 5, .rw, 0⟩
def ABA_SCREEN.cand_cap : Fld := ⟨0x580018, 0x1000, 0x0, 0x0, 36, 6, .rw, 8⟩
def ABA_SCREEN.freeze_runs : Fld := ⟨0x580018, 0x1000, 0x0, 0x0, 42, 1, .rw, 0⟩
def ABA_SCREEN.reseed : Fld := ⟨0x580018, 0x1000, 0x0, 0x0, 43, 16, .w1s, 0⟩
/-- ABA_SCREEN (R254). -/
def ABA_SCREEN : RegDef := ⟨0x580018, 64, 0x1000, 1, 0x0, 1, 0x0, false,
  [ABA_SCREEN.k, ABA_SCREEN.thr, ABA_SCREEN.gap, ABA_SCREEN.min_run, ABA_SCREEN.cand_cap, ABA_SCREEN.freeze_runs, ABA_SCREEN.reseed]⟩

def ABA_REF.ref_base : Fld := ⟨0x580020, 0x1000, 0x0, 0x0, 0, 23, .rwl, 0⟩
def ABA_REF.ref_stride : Fld := ⟨0x580020, 0x1000, 0x0, 0x0, 23, 23, .rwl, 0⟩
/-- ABA_REF (R254). -/
def ABA_REF : RegDef := ⟨0x580020, 64, 0x1000, 1, 0x0, 1, 0x0, false,
  [ABA_REF.ref_base, ABA_REF.ref_stride]⟩

def ABA_TAP.src_q : Fld := ⟨0x580040, 0x1000, 0x0, 0x0, 0, 15, .rwl, 0⟩
def ABA_TAP.tap_q : Fld := ⟨0x580040, 0x1000, 0x0, 0x0, 15, 15, .rwl, 0⟩
def ABA_TAP.enable : Fld := ⟨0x580040, 0x1000, 0x0, 0x0, 30, 1, .rwl, 0⟩
/-- ABA_TAP (R254). -/
def ABA_TAP : RegDef := ⟨0x580040, 64, 0x1000, 1, 0x0, 1, 0x0, false,
  [ABA_TAP.src_q, ABA_TAP.tap_q, ABA_TAP.enable]⟩

def ABA_STAT.lines : Fld := ⟨0x580080, 0x1000, 0x0, 0x0, 0, 32, .rc, 0⟩
def ABA_STAT.lines_skipped : Fld := ⟨0x580080, 0x1000, 0x0, 0x0, 32, 16, .rc, 0⟩
def ABA_STAT.residue_fail : Fld := ⟨0x580080, 0x1000, 0x0, 0x0, 48, 16, .rc, 0⟩
/-- ABA_STAT (R254). -/
def ABA_STAT : RegDef := ⟨0x580080, 64, 0x1000, 1, 0x0, 1, 0x0, false,
  [ABA_STAT.lines, ABA_STAT.lines_skipped, ABA_STAT.residue_fail]⟩

def ABA_STAT2.replay_fail : Fld := ⟨0x580088, 0x1000, 0x0, 0x0, 0, 16, .rc, 0⟩
def ABA_STAT2.mixed : Fld := ⟨0x580088, 0x1000, 0x0, 0x0, 16, 16, .rc, 0⟩
def ABA_STAT2.splits : Fld := ⟨0x580088, 0x1000, 0x0, 0x0, 32, 16, .rc, 0⟩
def ABA_STAT2.saturated : Fld := ⟨0x580088, 0x1000, 0x0, 0x0, 48, 16, .rc, 0⟩
/-- ABA_STAT2 (R254). -/
def ABA_STAT2 : RegDef := ⟨0x580088, 64, 0x1000, 1, 0x0, 1, 0x0, false,
  [ABA_STAT2.replay_fail, ABA_STAT2.mixed, ABA_STAT2.splits, ABA_STAT2.saturated]⟩

def ABA_CAND.candidates : Fld := ⟨0x580090, 0x1000, 0x0, 0x0, 0, 32, .rc, 0⟩
def ABA_CAND.overflow_runs : Fld := ⟨0x580090, 0x1000, 0x0, 0x0, 32, 32, .rc, 0⟩
/-- ABA_CAND (R254). -/
def ABA_CAND : RegDef := ⟨0x580090, 64, 0x1000, 1, 0x0, 1, 0x0, false,
  [ABA_CAND.candidates, ABA_CAND.overflow_runs]⟩

def ABA_TAP_STAT.lines_copied : Fld := ⟨0x580098, 0x1000, 0x0, 0x0, 0, 32, .rc, 0⟩
def ABA_TAP_STAT.lines_dropped : Fld := ⟨0x580098, 0x1000, 0x0, 0x0, 32, 32, .rc, 0⟩
/-- ABA_TAP_STAT (R254). -/
def ABA_TAP_STAT : RegDef := ⟨0x580098, 64, 0x1000, 1, 0x0, 1, 0x0, false,
  [ABA_TAP_STAT.lines_copied, ABA_TAP_STAT.lines_dropped]⟩

def ABA_ZONE.z_start : Fld := ⟨0x580100, 0x1000, 0x8, 0x0, 0, 15, .rwl, 0⟩
def ABA_ZONE.z_count : Fld := ⟨0x580100, 0x1000, 0x8, 0x0, 15, 16, .rwl, 0⟩
def ABA_ZONE.enable : Fld := ⟨0x580100, 0x1000, 0x8, 0x0, 31, 1, .rwl, 0⟩
/-- ABA_ZONE (R254). -/
def ABA_ZONE : RegDef := ⟨0x580100, 64, 0x1000, 64, 0x8, 1, 0x0, false,
  [ABA_ZONE.z_start, ABA_ZONE.z_count, ABA_ZONE.enable]⟩

def IMG_CTRL.load_start : Fld := ⟨0xE00000, 0x0, 0x0, 0x0, 0, 1, .w1s, 0⟩
def IMG_CTRL.load_end : Fld := ⟨0xE00000, 0x0, 0x0, 0x0, 1, 1, .w1s, 0⟩
def IMG_CTRL.discard : Fld := ⟨0xE00000, 0x0, 0x0, 0x0, 2, 1, .w1s, 0⟩
def IMG_CTRL.commit : Fld := ⟨0xE00000, 0x0, 0x0, 0x0, 3, 1, .w1s, 0⟩
/-- IMG_CTRL (R276). -/
def IMG_CTRL : RegDef := ⟨0xE00000, 1, 0x0, 1, 0x0, 1, 0x0, false,
  [IMG_CTRL.load_start, IMG_CTRL.load_end, IMG_CTRL.discard, IMG_CTRL.commit]⟩

def IMG_STATUS.state : Fld := ⟨0xE00008, 0x0, 0x0, 0x0, 0, 3, .ro, 0⟩
def IMG_STATUS.result : Fld := ⟨0xE00008, 0x0, 0x0, 0x0, 3, 5, .ro, 0⟩
def IMG_STATUS.frozen : Fld := ⟨0xE00008, 0x0, 0x0, 0x0, 8, 1, .ro, 0⟩
def IMG_STATUS.committed : Fld := ⟨0xE00008, 0x0, 0x0, 0x0, 9, 1, .ro, 0⟩
def IMG_STATUS.failed_section : Fld := ⟨0xE00008, 0x0, 0x0, 0x0, 10, 8, .ro, 255⟩
/-- IMG_STATUS (R276). -/
def IMG_STATUS : RegDef := ⟨0xE00008, 1, 0x0, 1, 0x0, 1, 0x0, false,
  [IMG_STATUS.state, IMG_STATUS.result, IMG_STATUS.frozen, IMG_STATUS.committed, IMG_STATUS.failed_section]⟩

def IMG_LOAD.received : Fld := ⟨0xE00010, 0x0, 0x0, 0x0, 0, 25, .ro, 0⟩
def IMG_LOAD.staged_generation : Fld := ⟨0xE00010, 0x0, 0x0, 0x0, 25, 32, .ro, 0⟩
def IMG_LOAD.staged_partition : Fld := ⟨0xE00010, 0x0, 0x0, 0x0, 57, 4, .ro, 0⟩
def IMG_LOAD.staged_is_partition : Fld := ⟨0xE00010, 0x0, 0x0, 0x0, 61, 1, .ro, 0⟩
/-- IMG_LOAD (R276). -/
def IMG_LOAD : RegDef := ⟨0xE00010, 1, 0x0, 1, 0x0, 1, 0x0, false,
  [IMG_LOAD.received, IMG_LOAD.staged_generation, IMG_LOAD.staged_partition, IMG_LOAD.staged_is_partition]⟩

def IMG_COMMIT_TAG.commit_tag : Fld := ⟨0xE00018, 0x0, 0x0, 0x0, 0, 32, .rw, 0⟩
/-- IMG_COMMIT_TAG (R276). -/
def IMG_COMMIT_TAG : RegDef := ⟨0xE00018, 1, 0x0, 1, 0x0, 1, 0x0, false,
  [IMG_COMMIT_TAG.commit_tag]⟩

def IMG_CHAIN_MASK.mask : Fld := ⟨0xE00020, 0x0, 0x0, 0x0, 0, 64, .rw, 0⟩
/-- IMG_CHAIN_MASK (R276). -/
def IMG_CHAIN_MASK : RegDef := ⟨0xE00020, 1, 0x0, 1, 0x0, 1, 0x0, false,
  [IMG_CHAIN_MASK.mask]⟩

def IMG_CHAIN_CFG.min_index : Fld := ⟨0xE00028, 0x0, 0x0, 0x0, 0, 48, .rw, 0⟩
def IMG_CHAIN_CFG.ready_timeout : Fld := ⟨0xE00028, 0x0, 0x0, 0x0, 48, 12, .rw, 1000⟩
def IMG_CHAIN_CFG.chain_status : Fld := ⟨0xE00028, 0x0, 0x0, 0x0, 60, 2, .ro, 0⟩
/-- IMG_CHAIN_CFG (R276). -/
def IMG_CHAIN_CFG : RegDef := ⟨0xE00028, 1, 0x0, 1, 0x0, 1, 0x0, false,
  [IMG_CHAIN_CFG.min_index, IMG_CHAIN_CFG.ready_timeout, IMG_CHAIN_CFG.chain_status]⟩

def IMG_COMMIT_REC.generation : Fld := ⟨0xE00040, 0x0, 0x0, 0x0, 0, 32, .ro, 0⟩
def IMG_COMMIT_REC.crc : Fld := ⟨0xE00040, 0x0, 0x0, 0x0, 32, 32, .ro, 0⟩
/-- IMG_COMMIT_REC (R276). -/
def IMG_COMMIT_REC : RegDef := ⟨0xE00040, 1, 0x0, 1, 0x0, 1, 0x0, false,
  [IMG_COMMIT_REC.generation, IMG_COMMIT_REC.crc]⟩

def IMG_COMMIT_REC2.boundary : Fld := ⟨0xE00048, 0x0, 0x0, 0x0, 0, 48, .ro, 0⟩
def IMG_COMMIT_REC2.late : Fld := ⟨0xE00048, 0x0, 0x0, 0x0, 48, 1, .ro, 0⟩
def IMG_COMMIT_REC2.idle : Fld := ⟨0xE00048, 0x0, 0x0, 0x0, 49, 1, .ro, 0⟩
def IMG_COMMIT_REC2.partition : Fld := ⟨0xE00048, 0x0, 0x0, 0x0, 50, 1, .ro, 0⟩
def IMG_COMMIT_REC2.part : Fld := ⟨0xE00048, 0x0, 0x0, 0x0, 51, 4, .ro, 0⟩
/-- IMG_COMMIT_REC2 (R276). -/
def IMG_COMMIT_REC2 : RegDef := ⟨0xE00048, 1, 0x0, 1, 0x0, 1, 0x0, false,
  [IMG_COMMIT_REC2.boundary, IMG_COMMIT_REC2.late, IMG_COMMIT_REC2.idle, IMG_COMMIT_REC2.partition, IMG_COMMIT_REC2.part]⟩

def IMG_COMMIT_REC3.block_number : Fld := ⟨0xE00050, 0x0, 0x0, 0x0, 0, 32, .ro, 0⟩
def IMG_COMMIT_REC3.image_generation : Fld := ⟨0xE00050, 0x0, 0x0, 0x0, 32, 32, .ro, 0⟩
/-- IMG_COMMIT_REC3 (R276). -/
def IMG_COMMIT_REC3 : RegDef := ⟨0xE00050, 1, 0x0, 1, 0x0, 1, 0x0, false,
  [IMG_COMMIT_REC3.block_number, IMG_COMMIT_REC3.image_generation]⟩

def IMG_COPY.generation : Fld := ⟨0xE00060, 0x8, 0x0, 0x0, 0, 32, .ro, 0⟩
def IMG_COPY.intact : Fld := ⟨0xE00060, 0x8, 0x0, 0x0, 32, 1, .ro, 1⟩
def IMG_COPY.outvoted : Fld := ⟨0xE00060, 0x8, 0x0, 0x0, 33, 1, .ro, 0⟩
def IMG_COPY.half : Fld := ⟨0xE00060, 0x8, 0x0, 0x0, 34, 1, .ro, 0⟩
/-- IMG_COPY (R276). -/
def IMG_COPY : RegDef := ⟨0xE00060, 3, 0x8, 1, 0x0, 1, 0x0, false,
  [IMG_COPY.generation, IMG_COPY.intact, IMG_COPY.outvoted, IMG_COPY.half]⟩

def IMG_PART_GEN.image_generation : Fld := ⟨0xE00100, 0x8, 0x0, 0x0, 0, 32, .ro, 0⟩
def IMG_PART_GEN.valid : Fld := ⟨0xE00100, 0x8, 0x0, 0x0, 32, 1, .ro, 0⟩
/-- IMG_PART_GEN (R276). -/
def IMG_PART_GEN : RegDef := ⟨0xE00100, 16, 0x8, 1, 0x0, 1, 0x0, false,
  [IMG_PART_GEN.image_generation, IMG_PART_GEN.valid]⟩

def IMG_ROLLBACK.count : Fld := ⟨0xE00180, 0x0, 0x0, 0x0, 0, 7, .ro, 0⟩
def IMG_ROLLBACK.target : Fld := ⟨0xE00180, 0x0, 0x0, 0x0, 8, 7, .rw, 0⟩
def IMG_ROLLBACK.burn : Fld := ⟨0xE00180, 0x0, 0x0, 0x0, 15, 1, .w1s, 0⟩
def IMG_ROLLBACK.burn_status : Fld := ⟨0xE00180, 0x0, 0x0, 0x0, 16, 2, .ro, 0⟩
/-- IMG_ROLLBACK (R276). -/
def IMG_ROLLBACK : RegDef := ⟨0xE00180, 1, 0x0, 1, 0x0, 1, 0x0, false,
  [IMG_ROLLBACK.count, IMG_ROLLBACK.target, IMG_ROLLBACK.burn, IMG_ROLLBACK.burn_status]⟩

def IMG_KEYS.programmed : Fld := ⟨0xE00188, 0x0, 0x0, 0x0, 0, 4, .ro, 0⟩
def IMG_KEYS.revoked : Fld := ⟨0xE00188, 0x0, 0x0, 0x0, 4, 4, .ro, 0⟩
def IMG_KEYS.revoke : Fld := ⟨0xE00188, 0x0, 0x0, 0x0, 8, 4, .w1s, 0⟩
/-- IMG_KEYS (R276). -/
def IMG_KEYS : RegDef := ⟨0xE00188, 1, 0x0, 1, 0x0, 1, 0x0, false,
  [IMG_KEYS.programmed, IMG_KEYS.revoked, IMG_KEYS.revoke]⟩

def IMG_STAT.refusals : Fld := ⟨0xE00190, 0x0, 0x0, 0x0, 0, 16, .rc, 0⟩
def IMG_STAT.commits : Fld := ⟨0xE00190, 0x0, 0x0, 0x0, 16, 16, .rc, 0⟩
def IMG_STAT.vote_mismatch : Fld := ⟨0xE00190, 0x0, 0x0, 0x0, 32, 16, .rc, 0⟩
def IMG_STAT.copy_repairs : Fld := ⟨0xE00190, 0x0, 0x0, 0x0, 48, 16, .rc, 0⟩
/-- IMG_STAT (R276). -/
def IMG_STAT : RegDef := ⟨0xE00190, 1, 0x0, 1, 0x0, 1, 0x0, false,
  [IMG_STAT.refusals, IMG_STAT.commits, IMG_STAT.vote_mismatch, IMG_STAT.copy_repairs]⟩

def UPL_CTRL.enable : Fld := ⟨0x900000, 0x1000, 0x0, 0x0, 0, 1, .rwl, 0⟩
def UPL_CTRL.mtu : Fld := ⟨0x900000, 0x1000, 0x0, 0x0, 1, 14, .rwl, 1500⟩
def UPL_CTRL.vlan_en : Fld := ⟨0x900000, 0x1000, 0x0, 0x0, 15, 1, .rwl, 0⟩
def UPL_CTRL.vlan_id : Fld := ⟨0x900000, 0x1000, 0x0, 0x0, 16, 12, .rwl, 0⟩
def UPL_CTRL.pfc_rx_en : Fld := ⟨0x900000, 0x1000, 0x0, 0x0, 28, 8, .rwl, 0⟩
def UPL_CTRL.kmp_prio : Fld := ⟨0x900000, 0x1000, 0x0, 0x0, 36, 3, .rwl, 0⟩
def UPL_CTRL.pfc_watchdog : Fld := ⟨0x900000, 0x1000, 0x0, 0x0, 39, 16, .rwl, 100⟩
def UPL_CTRL.fec_limit : Fld := ⟨0x900000, 0x1000, 0x0, 0x0, 55, 8, .rwl, 16⟩
/-- UPL_CTRL (R308). -/
def UPL_CTRL : RegDef := ⟨0x900000, 2, 0x1000, 1, 0x0, 1, 0x0, false,
  [UPL_CTRL.enable, UPL_CTRL.mtu, UPL_CTRL.vlan_en, UPL_CTRL.vlan_id, UPL_CTRL.pfc_rx_en, UPL_CTRL.kmp_prio, UPL_CTRL.pfc_watchdog, UPL_CTRL.fec_limit]⟩

def UPL_STATUS.state : Fld := ⟨0x900008, 0x1000, 0x0, 0x0, 0, 2, .ro, 0⟩
def UPL_STATUS.lanes_ok : Fld := ⟨0x900008, 0x1000, 0x0, 0x0, 2, 8, .ro, 0⟩
def UPL_STATUS.paused : Fld := ⟨0x900008, 0x1000, 0x0, 0x0, 10, 8, .ro, 0⟩
/-- UPL_STATUS (R308). -/
def UPL_STATUS : RegDef := ⟨0x900008, 2, 0x1000, 1, 0x0, 1, 0x0, false,
  [UPL_STATUS.state, UPL_STATUS.lanes_ok, UPL_STATUS.paused]⟩

def UPL_ADDR.mac : Fld := ⟨0x900010, 0x1000, 0x0, 0x0, 0, 48, .rwl, 0⟩
def UPL_ADDR.ttl : Fld := ⟨0x900010, 0x1000, 0x0, 0x0, 48, 8, .rwl, 64⟩
/-- UPL_ADDR (R308). -/
def UPL_ADDR : RegDef := ⟨0x900010, 2, 0x1000, 1, 0x0, 1, 0x0, false,
  [UPL_ADDR.mac, UPL_ADDR.ttl]⟩

def UPL_IPV4.ipv4 : Fld := ⟨0x900018, 0x1000, 0x0, 0x0, 0, 32, .rwl, 0⟩
/-- UPL_IPV4 (R308). -/
def UPL_IPV4 : RegDef := ⟨0x900018, 2, 0x1000, 1, 0x0, 1, 0x0, false,
  [UPL_IPV4.ipv4]⟩

def UPL_IPV6_HI.ipv6 : Fld := ⟨0x900020, 0x1000, 0x0, 0x0, 0, 64, .rwl, 0⟩
/-- UPL_IPV6_HI (R308). -/
def UPL_IPV6_HI : RegDef := ⟨0x900020, 2, 0x1000, 1, 0x0, 1, 0x0, false,
  [UPL_IPV6_HI.ipv6]⟩

def UPL_IPV6_LO.ipv6 : Fld := ⟨0x900028, 0x1000, 0x0, 0x0, 0, 64, .rwl, 0⟩
/-- UPL_IPV6_LO (R308). -/
def UPL_IPV6_LO : RegDef := ⟨0x900028, 2, 0x1000, 1, 0x0, 1, 0x0, false,
  [UPL_IPV6_LO.ipv6]⟩

def UPL_CC.cut_shift : Fld := ⟨0x900030, 0x1000, 0x0, 0x0, 0, 3, .rwl, 1⟩
def UPL_CC.cnp_interval : Fld := ⟨0x900030, 0x1000, 0x0, 0x0, 3, 10, .rwl, 50⟩
def UPL_CC.recover_us : Fld := ⟨0x900030, 0x1000, 0x0, 0x0, 13, 10, .rwl, 55⟩
def UPL_CC.step : Fld := ⟨0x900030, 0x1000, 0x0, 0x0, 23, 10, .rwl, 5⟩
def UPL_CC.min_rate : Fld := ⟨0x900030, 0x1000, 0x0, 0x0, 33, 10, .rwl, 1⟩
/-- UPL_CC (R308). -/
def UPL_CC : RegDef := ⟨0x900030, 2, 0x1000, 1, 0x0, 1, 0x0, false,
  [UPL_CC.cut_shift, UPL_CC.cnp_interval, UPL_CC.recover_us, UPL_CC.step, UPL_CC.min_rate]⟩

def UPL_STAT.fec_corrected : Fld := ⟨0x900040, 0x1000, 0x0, 0x0, 0, 32, .rc, 0⟩
def UPL_STAT.fec_uncorrectable : Fld := ⟨0x900040, 0x1000, 0x0, 0x0, 32, 32, .rc, 0⟩
/-- UPL_STAT (R308). -/
def UPL_STAT : RegDef := ⟨0x900040, 2, 0x1000, 1, 0x0, 1, 0x0, false,
  [UPL_STAT.fec_corrected, UPL_STAT.fec_uncorrectable]⟩

def UPL_STAT2.rx_discard : Fld := ⟨0x900048, 0x1000, 0x0, 0x0, 0, 16, .rc, 0⟩
def UPL_STAT2.cnp_rx : Fld := ⟨0x900048, 0x1000, 0x0, 0x0, 16, 16, .rc, 0⟩
def UPL_STAT2.auth_fail : Fld := ⟨0x900048, 0x1000, 0x0, 0x0, 32, 16, .rc, 0⟩
def UPL_STAT2.replay : Fld := ⟨0x900048, 0x1000, 0x0, 0x0, 48, 16, .rc, 0⟩
/-- UPL_STAT2 (R308). -/
def UPL_STAT2 : RegDef := ⟨0x900048, 2, 0x1000, 1, 0x0, 1, 0x0, false,
  [UPL_STAT2.rx_discard, UPL_STAT2.cnp_rx, UPL_STAT2.auth_fail, UPL_STAT2.replay]⟩

def UPL_STAT3.pfc_stuck : Fld := ⟨0x900050, 0x1000, 0x0, 0x0, 0, 16, .rc, 0⟩
def UPL_STAT3.pause_ignored : Fld := ⟨0x900050, 0x1000, 0x0, 0x0, 16, 16, .rc, 0⟩
def UPL_STAT3.link_drops : Fld := ⟨0x900050, 0x1000, 0x0, 0x0, 32, 16, .rc, 0⟩
/-- UPL_STAT3 (R308). -/
def UPL_STAT3 : RegDef := ⟨0x900050, 2, 0x1000, 1, 0x0, 1, 0x0, false,
  [UPL_STAT3.pfc_stuck, UPL_STAT3.pause_ignored, UPL_STAT3.link_drops]⟩

def UPL_FLOW_A.dest_mac : Fld := ⟨0x904000, 0x20, 0x0, 0x0, 0, 48, .rwl, 0⟩
def UPL_FLOW_A.pcp : Fld := ⟨0x904000, 0x20, 0x0, 0x0, 48, 3, .rwl, 0⟩
def UPL_FLOW_A.dscp : Fld := ⟨0x904000, 0x20, 0x0, 0x0, 51, 6, .rwl, 0⟩
def UPL_FLOW_A.ipv6 : Fld := ⟨0x904000, 0x20, 0x0, 0x0, 57, 1, .rwl, 0⟩
def UPL_FLOW_A.owner : Fld := ⟨0x904000, 0x20, 0x0, 0x0, 58, 4, .rwl, 0⟩
def UPL_FLOW_A.uplink : Fld := ⟨0x904000, 0x20, 0x0, 0x0, 62, 1, .rwl, 0⟩
def UPL_FLOW_A.enable : Fld := ⟨0x904000, 0x20, 0x0, 0x0, 63, 1, .rwl, 0⟩
/-- UPL_FLOW_A (R308). -/
def UPL_FLOW_A : RegDef := ⟨0x904000, 64, 0x20, 1, 0x0, 1, 0x0, false,
  [UPL_FLOW_A.dest_mac, UPL_FLOW_A.pcp, UPL_FLOW_A.dscp, UPL_FLOW_A.ipv6, UPL_FLOW_A.owner, UPL_FLOW_A.uplink, UPL_FLOW_A.enable]⟩

def UPL_FLOW_B.col_start : Fld := ⟨0x904008, 0x20, 0x0, 0x0, 0, 24, .rwl, 0⟩
def UPL_FLOW_B.dest_ipv4 : Fld := ⟨0x904008, 0x20, 0x0, 0x0, 24, 32, .rwl, 0⟩
/-- UPL_FLOW_B (R308). -/
def UPL_FLOW_B : RegDef := ⟨0x904008, 64, 0x20, 1, 0x0, 1, 0x0, false,
  [UPL_FLOW_B.col_start, UPL_FLOW_B.dest_ipv4]⟩

def UPL_FLOW_C.dest_ipv6 : Fld := ⟨0x904010, 0x20, 0x0, 0x0, 0, 64, .rwl, 0⟩
/-- UPL_FLOW_C (R308). -/
def UPL_FLOW_C : RegDef := ⟨0x904010, 64, 0x20, 1, 0x0, 1, 0x0, false,
  [UPL_FLOW_C.dest_ipv6]⟩

def UPL_FLOW_D.dest_ipv6 : Fld := ⟨0x904018, 0x20, 0x0, 0x0, 0, 64, .rwl, 0⟩
/-- UPL_FLOW_D (R308). -/
def UPL_FLOW_D : RegDef := ⟨0x904018, 64, 0x20, 1, 0x0, 1, 0x0, false,
  [UPL_FLOW_D.dest_ipv6]⟩

def UPL_KMP.enable : Fld := ⟨0x908000, 0x0, 0x0, 0x0, 0, 1, .rwl, 1⟩
def UPL_KMP.kmp_relay_timeout : Fld := ⟨0x908000, 0x0, 0x0, 0x0, 1, 16, .rwl, 1000⟩
/-- UPL_KMP (R308). -/
def UPL_KMP : RegDef := ⟨0x908000, 1, 0x0, 1, 0x0, 1, 0x0, false,
  [UPL_KMP.enable, UPL_KMP.kmp_relay_timeout]⟩

def DMA_CH_CFG.kind : Fld := ⟨0x800000, 0x40, 0x0, 0x0, 0, 1, .rwl, 0⟩
def DMA_CH_CFG.owner : Fld := ⟨0x800000, 0x40, 0x0, 0x0, 1, 4, .rwl, 0⟩
def DMA_CH_CFG.priority : Fld := ⟨0x800000, 0x40, 0x0, 0x0, 5, 3, .rwl, 0⟩
def DMA_CH_CFG.desc_q : Fld := ⟨0x800000, 0x40, 0x0, 0x0, 8, 15, .rwl, 0⟩
def DMA_CH_CFG.flow : Fld := ⟨0x800000, 0x40, 0x0, 0x0, 23, 6, .rwl, 0⟩
def DMA_CH_CFG.pack : Fld := ⟨0x800000, 0x40, 0x0, 0x0, 29, 3, .rwl, 2⟩
def DMA_CH_CFG.pack_shift : Fld := ⟨0x800000, 0x40, 0x0, 0x0, 32, 5, .rwl, 0⟩
def DMA_CH_CFG.pack_signed : Fld := ⟨0x800000, 0x40, 0x0, 0x0, 37, 1, .rwl, 0⟩
def DMA_CH_CFG.pmtu : Fld := ⟨0x800000, 0x40, 0x0, 0x0, 38, 2, .rwl, 2⟩
def DMA_CH_CFG.retry_count : Fld := ⟨0x800000, 0x40, 0x0, 0x0, 40, 3, .rwl, 7⟩
def DMA_CH_CFG.retry_timeout : Fld := ⟨0x800000, 0x40, 0x0, 0x0, 43, 5, .rwl, 14⟩
def DMA_CH_CFG.mirror_lag : Fld := ⟨0x800000, 0x40, 0x0, 0x0, 48, 12, .rwl, 1024⟩
/-- DMA_CH_CFG (R309). -/
def DMA_CH_CFG : RegDef := ⟨0x800000, 512, 0x40, 1, 0x0, 1, 0x0, false,
  [DMA_CH_CFG.kind, DMA_CH_CFG.owner, DMA_CH_CFG.priority, DMA_CH_CFG.desc_q, DMA_CH_CFG.flow, DMA_CH_CFG.pack, DMA_CH_CFG.pack_shift, DMA_CH_CFG.pack_signed, DMA_CH_CFG.pmtu, DMA_CH_CFG.retry_count, DMA_CH_CFG.retry_timeout, DMA_CH_CFG.mirror_lag]⟩

def DMA_CH_CTRL.enable : Fld := ⟨0x800008, 0x40, 0x0, 0x0, 0, 1, .rw, 0⟩
def DMA_CH_CTRL.state : Fld := ⟨0x800008, 0x40, 0x0, 0x0, 1, 2, .ro, 0⟩
def DMA_CH_CTRL.in_service : Fld := ⟨0x800008, 0x40, 0x0, 0x0, 3, 2, .ro, 0⟩
/-- DMA_CH_CTRL (R309). -/
def DMA_CH_CTRL : RegDef := ⟨0x800008, 512, 0x40, 1, 0x0, 1, 0x0, false,
  [DMA_CH_CTRL.enable, DMA_CH_CTRL.state, DMA_CH_CTRL.in_service]⟩

def DMA_CH_QP.dest_qpn : Fld := ⟨0x800010, 0x40, 0x8, 0x0, 0, 24, .rw, 0⟩
def DMA_CH_QP.psn : Fld := ⟨0x800010, 0x40, 0x8, 0x0, 24, 24, .rw, 0⟩
def DMA_CH_QP.qp_state : Fld := ⟨0x800010, 0x40, 0x8, 0x0, 48, 2, .ro, 0⟩
def DMA_CH_QP.connect : Fld := ⟨0x800010, 0x40, 0x8, 0x0, 50, 1, .w1s, 0⟩
/-- DMA_CH_QP (R309). -/
def DMA_CH_QP : RegDef := ⟨0x800010, 512, 0x40, 2, 0x8, 1, 0x0, false,
  [DMA_CH_QP.dest_qpn, DMA_CH_QP.psn, DMA_CH_QP.qp_state, DMA_CH_QP.connect]⟩

def DMA_CH_U1.addr_delta : Fld := ⟨0x800020, 0x40, 0x0, 0x0, 0, 64, .rw, 0⟩
/-- DMA_CH_U1 (R309). -/
def DMA_CH_U1 : RegDef := ⟨0x800020, 512, 0x40, 1, 0x0, 1, 0x0, false,
  [DMA_CH_U1.addr_delta]⟩

def DMA_CH_U1KEY.rkey : Fld := ⟨0x800028, 0x40, 0x0, 0x0, 0, 32, .rw, 0⟩
/-- DMA_CH_U1KEY (R309). -/
def DMA_CH_U1KEY : RegDef := ⟨0x800028, 512, 0x40, 1, 0x0, 1, 0x0, false,
  [DMA_CH_U1KEY.rkey]⟩

def DMA_CH_STAT.lines : Fld := ⟨0x800030, 0x40, 0x0, 0x0, 0, 32, .rc, 0⟩
def DMA_CH_STAT.descriptors : Fld := ⟨0x800030, 0x40, 0x0, 0x0, 32, 16, .rc, 0⟩
def DMA_CH_STAT.starved : Fld := ⟨0x800030, 0x40, 0x0, 0x0, 48, 16, .rc, 0⟩
/-- DMA_CH_STAT (R309). -/
def DMA_CH_STAT : RegDef := ⟨0x800030, 512, 0x40, 1, 0x0, 1, 0x0, false,
  [DMA_CH_STAT.lines, DMA_CH_STAT.descriptors, DMA_CH_STAT.starved]⟩

def DMA_CH_STAT2.retransmits : Fld := ⟨0x800038, 0x40, 0x0, 0x0, 0, 16, .rc, 0⟩
def DMA_CH_STAT2.mirror_drops : Fld := ⟨0x800038, 0x40, 0x0, 0x0, 16, 16, .rc, 0⟩
def DMA_CH_STAT2.cnp_cuts : Fld := ⟨0x800038, 0x40, 0x0, 0x0, 32, 16, .rc, 0⟩
def DMA_CH_STAT2.oversize : Fld := ⟨0x800038, 0x40, 0x0, 0x0, 48, 16, .rc, 0⟩
/-- DMA_CH_STAT2 (R309). -/
def DMA_CH_STAT2 : RegDef := ⟨0x800038, 512, 0x40, 1, 0x0, 1, 0x0, false,
  [DMA_CH_STAT2.retransmits, DMA_CH_STAT2.mirror_drops, DMA_CH_STAT2.cnp_cuts, DMA_CH_STAT2.oversize]⟩

def DMA_DESC_PUSH.word : Fld := ⟨0x810000, 0x20, 0x8, 0x0, 0, 64, .wo, 0⟩
/-- DMA_DESC_PUSH (R309). -/
def DMA_DESC_PUSH : RegDef := ⟨0x810000, 512, 0x20, 4, 0x8, 1, 0x0, false,
  [DMA_DESC_PUSH.word]⟩

def FLK_CTRL.enable : Fld := ⟨0xA00000, 0x1000, 0x0, 0x0, 0, 1, .rwl, 0⟩
def FLK_CTRL.rate_max : Fld := ⟨0xA00000, 0x1000, 0x0, 0x0, 1, 2, .rwl, 0⟩
def FLK_CTRL.rate_min : Fld := ⟨0xA00000, 0x1000, 0x0, 0x0, 3, 2, .rwl, 2⟩
def FLK_CTRL.ack_timeout : Fld := ⟨0xA00000, 0x1000, 0x0, 0x0, 5, 11, .rwl, 2000⟩
def FLK_CTRL.retry_limit : Fld := ⟨0xA00000, 0x1000, 0x0, 0x0, 16, 5, .rwl, 16⟩
/-- FLK_CTRL (R330). -/
def FLK_CTRL : RegDef := ⟨0xA00000, 2, 0x1000, 1, 0x0, 1, 0x0, false,
  [FLK_CTRL.enable, FLK_CTRL.rate_max, FLK_CTRL.rate_min, FLK_CTRL.ack_timeout, FLK_CTRL.retry_limit]⟩

def FLK_LANES.inverted : Fld := ⟨0xA00008, 0x1000, 0x0, 0x0, 0, 4, .ro, 0⟩
def FLK_LANES.lane_map : Fld := ⟨0xA00008, 0x1000, 0x0, 0x0, 4, 8, .ro, 0⟩
def FLK_LANES.reversed : Fld := ⟨0xA00008, 0x1000, 0x0, 0x0, 12, 1, .ro, 0⟩
def FLK_LANES.rate : Fld := ⟨0xA00008, 0x1000, 0x0, 0x0, 13, 2, .ro, 0⟩
/-- FLK_LANES (R330). -/
def FLK_LANES : RegDef := ⟨0xA00008, 2, 0x1000, 1, 0x0, 1, 0x0, false,
  [FLK_LANES.inverted, FLK_LANES.lane_map, FLK_LANES.reversed, FLK_LANES.rate]⟩

def FLK_STATUS.state : Fld := ⟨0xA00010, 0x1000, 0x0, 0x0, 0, 3, .ro, 0⟩
def FLK_STATUS.attempts : Fld := ⟨0xA00010, 0x1000, 0x0, 0x0, 3, 2, .ro, 0⟩
def FLK_STATUS.backoff : Fld := ⟨0xA00010, 0x1000, 0x0, 0x0, 5, 4, .ro, 0⟩
def FLK_STATUS.partner : Fld := ⟨0xA00010, 0x1000, 0x0, 0x0, 9, 7, .ro, 0⟩
/-- FLK_STATUS (R330). -/
def FLK_STATUS : RegDef := ⟨0xA00010, 2, 0x1000, 1, 0x0, 1, 0x0, false,
  [FLK_STATUS.state, FLK_STATUS.attempts, FLK_STATUS.backoff, FLK_STATUS.partner]⟩

def FLK_STAT.crc_fail : Fld := ⟨0xA00040, 0x1000, 0x0, 0x0, 0, 16, .rc, 0⟩
def FLK_STAT.retransmits : Fld := ⟨0xA00040, 0x1000, 0x0, 0x0, 16, 16, .rc, 0⟩
def FLK_STAT.naks_sent : Fld := ⟨0xA00040, 0x1000, 0x0, 0x0, 32, 16, .rc, 0⟩
def FLK_STAT.run_exits : Fld := ⟨0xA00040, 0x1000, 0x0, 0x0, 48, 16, .rc, 0⟩
/-- FLK_STAT (R330). -/
def FLK_STAT : RegDef := ⟨0xA00040, 2, 0x1000, 1, 0x0, 1, 0x0, false,
  [FLK_STAT.crc_fail, FLK_STAT.retransmits, FLK_STAT.naks_sent, FLK_STAT.run_exits]⟩

def FLK_STAT2.train_fail : Fld := ⟨0xA00048, 0x1000, 0x0, 0x0, 0, 16, .rc, 0⟩
def FLK_STAT2.seam_rx_drops : Fld := ⟨0xA00048, 0x1000, 0x0, 0x0, 16, 16, .rc, 0⟩
def FLK_STAT2.downs : Fld := ⟨0xA00048, 0x1000, 0x0, 0x0, 32, 16, .rc, 0⟩
/-- FLK_STAT2 (R330). -/
def FLK_STAT2 : RegDef := ⟨0xA00048, 2, 0x1000, 1, 0x0, 1, 0x0, false,
  [FLK_STAT2.train_fail, FLK_STAT2.seam_rx_drops, FLK_STAT2.downs]⟩

def FLK_SEAM.tx_q : Fld := ⟨0xA00100, 0x1000, 0x8, 0x0, 0, 15, .rwl, 0⟩
def FLK_SEAM.tx_en : Fld := ⟨0xA00100, 0x1000, 0x8, 0x0, 15, 1, .rwl, 0⟩
def FLK_SEAM.rx_q : Fld := ⟨0xA00100, 0x1000, 0x8, 0x0, 16, 15, .rwl, 0⟩
def FLK_SEAM.rx_en : Fld := ⟨0xA00100, 0x1000, 0x8, 0x0, 31, 1, .rwl, 0⟩
/-- FLK_SEAM (R330). -/
def FLK_SEAM : RegDef := ⟨0xA00100, 2, 0x1000, 16, 0x8, 1, 0x0, false,
  [FLK_SEAM.tx_q, FLK_SEAM.tx_en, FLK_SEAM.rx_q, FLK_SEAM.rx_en]⟩

def FLK_CHAIN.position : Fld := ⟨0xA02000, 0x0, 0x0, 0x0, 0, 6, .ro, 0⟩
def FLK_CHAIN.row : Fld := ⟨0xA02000, 0x0, 0x0, 0x0, 6, 1, .ro, 0⟩
def FLK_CHAIN.assigned : Fld := ⟨0xA02000, 0x0, 0x0, 0x0, 7, 1, .ro, 0⟩
def FLK_CHAIN.chain_count : Fld := ⟨0xA02000, 0x0, 0x0, 0x0, 8, 7, .ro, 0⟩
def FLK_CHAIN.closed : Fld := ⟨0xA02000, 0x0, 0x0, 0x0, 15, 1, .ro, 0⟩
def FLK_CHAIN.enum_state : Fld := ⟨0xA02000, 0x0, 0x0, 0x0, 16, 3, .ro, 0⟩
def FLK_CHAIN.root : Fld := ⟨0xA02000, 0x0, 0x0, 0x0, 19, 1, .ro, 0⟩
def FLK_CHAIN.renumber : Fld := ⟨0xA02000, 0x0, 0x0, 0x0, 20, 1, .w1s, 0⟩
def FLK_CHAIN.force_renumber : Fld := ⟨0xA02000, 0x0, 0x0, 0x0, 21, 1, .w1s, 0⟩
def FLK_CHAIN.enum_timeout : Fld := ⟨0xA02000, 0x0, 0x0, 0x0, 22, 16, .rwl, 2000⟩
/-- FLK_CHAIN (R330). -/
def FLK_CHAIN : RegDef := ⟨0xA02000, 1, 0x0, 1, 0x0, 1, 0x0, false,
  [FLK_CHAIN.position, FLK_CHAIN.row, FLK_CHAIN.assigned, FLK_CHAIN.chain_count, FLK_CHAIN.closed, FLK_CHAIN.enum_state, FLK_CHAIN.root, FLK_CHAIN.renumber, FLK_CHAIN.force_renumber, FLK_CHAIN.enum_timeout]⟩

def FLK_CHAIN_MAP.present : Fld := ⟨0xA02008, 0x0, 0x0, 0x0, 0, 64, .ro, 0⟩
/-- FLK_CHAIN_MAP (R330). -/
def FLK_CHAIN_MAP : RegDef := ⟨0xA02008, 1, 0x0, 1, 0x0, 1, 0x0, false,
  [FLK_CHAIN_MAP.present]⟩

def FLK_CHAIN_MAP2.assigned : Fld := ⟨0xA02010, 0x0, 0x0, 0x0, 0, 64, .ro, 0⟩
/-- FLK_CHAIN_MAP2 (R330). -/
def FLK_CHAIN_MAP2 : RegDef := ⟨0xA02010, 1, 0x0, 1, 0x0, 1, 0x0, false,
  [FLK_CHAIN_MAP2.assigned]⟩

def FLK_TWIN.twin_flow : Fld := ⟨0xA02018, 0x0, 0x0, 0x0, 0, 6, .rwl, 0⟩
def FLK_TWIN.twin_en : Fld := ⟨0xA02018, 0x0, 0x0, 0x0, 6, 1, .rwl, 0⟩
def FLK_TWIN.twin_timeout : Fld := ⟨0xA02018, 0x0, 0x0, 0x0, 7, 16, .rwl, 20⟩
def FLK_TWIN.twin_state : Fld := ⟨0xA02018, 0x0, 0x0, 0x0, 23, 2, .ro, 0⟩
/-- FLK_TWIN (R330). -/
def FLK_TWIN : RegDef := ⟨0xA02018, 1, 0x0, 1, 0x0, 1, 0x0, false,
  [FLK_TWIN.twin_flow, FLK_TWIN.twin_en, FLK_TWIN.twin_timeout, FLK_TWIN.twin_state]⟩

def FLK_TWIN_MAP.twin_live : Fld := ⟨0xA02020, 0x0, 0x0, 0x0, 0, 64, .ro, 0⟩
/-- FLK_TWIN_MAP (R330). -/
def FLK_TWIN_MAP : RegDef := ⟨0xA02020, 1, 0x0, 1, 0x0, 1, 0x0, false,
  [FLK_TWIN_MAP.twin_live]⟩

def FLK_DUP.dup_mismatch : Fld := ⟨0xA02028, 0x0, 0x0, 0x0, 0, 16, .rc, 0⟩
def FLK_DUP.dup_stale : Fld := ⟨0xA02028, 0x0, 0x0, 0x0, 16, 16, .rc, 0⟩
def FLK_DUP.relay_events : Fld := ⟨0xA02028, 0x0, 0x0, 0x0, 32, 16, .rc, 0⟩
/-- FLK_DUP (R330). -/
def FLK_DUP : RegDef := ⟨0xA02028, 1, 0x0, 1, 0x0, 1, 0x0, false,
  [FLK_DUP.dup_mismatch, FLK_DUP.dup_stale, FLK_DUP.relay_events]⟩

def TIME_CTRL.u0_en : Fld := ⟨0xB00000, 0x0, 0x0, 0x0, 0, 1, .rwl, 0⟩
def TIME_CTRL.u1_en : Fld := ⟨0xB00000, 0x0, 0x0, 0x0, 1, 1, .rwl, 0⟩
def TIME_CTRL.chain_en : Fld := ⟨0xB00000, 0x0, 0x0, 0x0, 2, 1, .rwl, 0⟩
def TIME_CTRL.src_order : Fld := ⟨0xB00000, 0x0, 0x0, 0x0, 3, 1, .rwl, 0⟩
def TIME_CTRL.transports : Fld := ⟨0xB00000, 0x0, 0x0, 0x0, 4, 3, .rwl, 7⟩
def TIME_CTRL.domain : Fld := ⟨0xB00000, 0x0, 0x0, 0x0, 7, 8, .rwl, 0⟩
def TIME_CTRL.restep : Fld := ⟨0xB00000, 0x0, 0x0, 0x0, 15, 1, .w1s, 0⟩
/-- TIME_CTRL (R480). -/
def TIME_CTRL : RegDef := ⟨0xB00000, 1, 0x0, 1, 0x0, 1, 0x0, false,
  [TIME_CTRL.u0_en, TIME_CTRL.u1_en, TIME_CTRL.chain_en, TIME_CTRL.src_order, TIME_CTRL.transports, TIME_CTRL.domain, TIME_CTRL.restep]⟩

def TIME_SERVO.kp_shift : Fld := ⟨0xB00008, 0x0, 0x0, 0x0, 0, 5, .rwl, 3⟩
def TIME_SERVO.ki_shift : Fld := ⟨0xB00008, 0x0, 0x0, 0x0, 5, 5, .rwl, 7⟩
def TIME_SERVO.step_threshold : Fld := ⟨0xB00008, 0x0, 0x0, 0x0, 10, 20, .rwl, 1000⟩
def TIME_SERVO.sigma_min : Fld := ⟨0xB00008, 0x0, 0x0, 0x0, 30, 8, .rwl, 2⟩
def TIME_SERVO.lock_count : Fld := ⟨0xB00008, 0x0, 0x0, 0x0, 38, 5, .rwl, 8⟩
/-- TIME_SERVO (R480). -/
def TIME_SERVO : RegDef := ⟨0xB00008, 1, 0x0, 1, 0x0, 1, 0x0, false,
  [TIME_SERVO.kp_shift, TIME_SERVO.ki_shift, TIME_SERVO.step_threshold, TIME_SERVO.sigma_min, TIME_SERVO.lock_count]⟩

def TIME_CFG.time_wait : Fld := ⟨0xB00010, 0x0, 0x0, 0x0, 0, 16, .rwl, 10000⟩
def TIME_CFG.announce_timeout : Fld := ⟨0xB00010, 0x0, 0x0, 0x0, 16, 4, .rwl, 3⟩
/-- TIME_CFG (R480). -/
def TIME_CFG : RegDef := ⟨0xB00010, 1, 0x0, 1, 0x0, 1, 0x0, false,
  [TIME_CFG.time_wait, TIME_CFG.announce_timeout]⟩

def TIME_STATUS.time_state : Fld := ⟨0xB00018, 0x0, 0x0, 0x0, 0, 2, .ro, 0⟩
def TIME_STATUS.source : Fld := ⟨0xB00018, 0x0, 0x0, 0x0, 2, 2, .ro, 0⟩
def TIME_STATUS.restep_pending : Fld := ⟨0xB00018, 0x0, 0x0, 0x0, 4, 1, .ro, 0⟩
def TIME_STATUS.restep_result : Fld := ⟨0xB00018, 0x0, 0x0, 0x0, 5, 2, .ro, 0⟩
def TIME_STATUS.stepped : Fld := ⟨0xB00018, 0x0, 0x0, 0x0, 7, 1, .ro, 0⟩
/-- TIME_STATUS (R480). -/
def TIME_STATUS : RegDef := ⟨0xB00018, 1, 0x0, 1, 0x0, 1, 0x0, false,
  [TIME_STATUS.time_state, TIME_STATUS.source, TIME_STATUS.restep_pending, TIME_STATUS.restep_result, TIME_STATUS.stepped]⟩

def TIME_NOW.seconds : Fld := ⟨0xB00020, 0x0, 0x0, 0x0, 0, 64, .ro, 0⟩
/-- TIME_NOW (R480). -/
def TIME_NOW : RegDef := ⟨0xB00020, 1, 0x0, 1, 0x0, 1, 0x0, false,
  [TIME_NOW.seconds]⟩

def TIME_NOW_NS.nanoseconds : Fld := ⟨0xB00028, 0x0, 0x0, 0x0, 0, 32, .ro, 0⟩
def TIME_NOW_NS.fraction : Fld := ⟨0xB00028, 0x0, 0x0, 0x0, 32, 32, .ro, 0⟩
/-- TIME_NOW_NS (R480). -/
def TIME_NOW_NS : RegDef := ⟨0xB00028, 1, 0x0, 1, 0x0, 1, 0x0, false,
  [TIME_NOW_NS.nanoseconds, TIME_NOW_NS.fraction]⟩

def TIME_EPOCH.epoch : Fld := ⟨0xB00030, 0x0, 0x0, 0x0, 0, 32, .ro, 0⟩
/-- TIME_EPOCH (R480). -/
def TIME_EPOCH : RegDef := ⟨0xB00030, 1, 0x0, 1, 0x0, 1, 0x0, false,
  [TIME_EPOCH.epoch]⟩

def TIME_OFFSET.offset : Fld := ⟨0xB00038, 0x0, 0x0, 0x0, 0, 64, .ro, 0⟩
/-- TIME_OFFSET (R480). -/
def TIME_OFFSET : RegDef := ⟨0xB00038, 1, 0x0, 1, 0x0, 1, 0x0, false,
  [TIME_OFFSET.offset]⟩

def TIME_PATH.path : Fld := ⟨0xB00040, 0x0, 0x0, 0x0, 0, 64, .ro, 0⟩
/-- TIME_PATH (R480). -/
def TIME_PATH : RegDef := ⟨0xB00040, 1, 0x0, 1, 0x0, 1, 0x0, false,
  [TIME_PATH.path]⟩

def TIME_RATE.rate : Fld := ⟨0xB00048, 0x0, 0x0, 0x0, 0, 32, .ro, 0⟩
/-- TIME_RATE (R480). -/
def TIME_RATE : RegDef := ⟨0xB00048, 1, 0x0, 1, 0x0, 1, 0x0, false,
  [TIME_RATE.rate]⟩

def TIME_GM.gm_identity : Fld := ⟨0xB00050, 0x0, 0x0, 0x0, 0, 64, .ro, 0⟩
/-- TIME_GM (R480). -/
def TIME_GM : RegDef := ⟨0xB00050, 1, 0x0, 1, 0x0, 1, 0x0, false,
  [TIME_GM.gm_identity]⟩

def TIME_ASYM.rx_delay : Fld := ⟨0xB00080, 0x8, 0x0, 0x0, 0, 32, .rwl, 0⟩
def TIME_ASYM.tx_delay : Fld := ⟨0xB00080, 0x8, 0x0, 0x0, 32, 32, .rwl, 0⟩
/-- TIME_ASYM (R480). -/
def TIME_ASYM : RegDef := ⟨0xB00080, 4, 0x8, 1, 0x0, 1, 0x0, false,
  [TIME_ASYM.rx_delay, TIME_ASYM.tx_delay]⟩

def TIME_STAT.outliers : Fld := ⟨0xB000C0, 0x0, 0x0, 0x0, 0, 16, .rc, 0⟩
def TIME_STAT.jumps : Fld := ⟨0xB000C0, 0x0, 0x0, 0x0, 16, 16, .rc, 0⟩
def TIME_STAT.holdovers : Fld := ⟨0xB000C0, 0x0, 0x0, 0x0, 32, 16, .rc, 0⟩
def TIME_STAT.resteps : Fld := ⟨0xB000C0, 0x0, 0x0, 0x0, 48, 16, .rc, 0⟩
/-- TIME_STAT (R480). -/
def TIME_STAT : RegDef := ⟨0xB000C0, 1, 0x0, 1, 0x0, 1, 0x0, false,
  [TIME_STAT.outliers, TIME_STAT.jumps, TIME_STAT.holdovers, TIME_STAT.resteps]⟩

def TIME_STAT2.rx_discard : Fld := ⟨0xB000C8, 0x0, 0x0, 0x0, 0, 16, .rc, 0⟩
def TIME_STAT2.announce_timeouts : Fld := ⟨0xB000C8, 0x0, 0x0, 0x0, 16, 16, .rc, 0⟩
/-- TIME_STAT2 (R480). -/
def TIME_STAT2 : RegDef := ⟨0xB000C8, 1, 0x0, 1, 0x0, 1, 0x0, false,
  [TIME_STAT2.rx_discard, TIME_STAT2.announce_timeouts]⟩

def PART_CTRL.enable : Fld := ⟨0x20000, 0x400, 0x0, 0x0, 0, 1, .rwl, 0⟩
def PART_CTRL.drain : Fld := ⟨0x20000, 0x400, 0x0, 0x0, 1, 1, .w1s, 0⟩
def PART_CTRL.abort : Fld := ⟨0x20000, 0x400, 0x0, 0x0, 2, 1, .w1s, 0⟩
def PART_CTRL.resume : Fld := ⟨0x20000, 0x400, 0x0, 0x0, 3, 1, .w1s, 0⟩
def PART_CTRL.state : Fld := ⟨0x20000, 0x400, 0x0, 0x0, 4, 2, .ro, 0⟩
def PART_CTRL.drain_timeout : Fld := ⟨0x20000, 0x400, 0x0, 0x0, 6, 16, .rwl, 100⟩
/-- PART_CTRL (R375). -/
def PART_CTRL : RegDef := ⟨0x20000, 16, 0x400, 1, 0x0, 1, 0x0, false,
  [PART_CTRL.enable, PART_CTRL.drain, PART_CTRL.abort, PART_CTRL.resume, PART_CTRL.state, PART_CTRL.drain_timeout]⟩

def PART_PORTS.ports : Fld := ⟨0x20008, 0x400, 0x0, 0x0, 0, 32, .rwl, 0⟩
/-- PART_PORTS (R375). -/
def PART_PORTS : RegDef := ⟨0x20008, 16, 0x400, 1, 0x0, 1, 0x0, false,
  [PART_PORTS.ports]⟩

def PART_CQ.cq_q : Fld := ⟨0x20010, 0x400, 0x0, 0x0, 0, 15, .rwl, 0⟩
def PART_CQ.cq_channel : Fld := ⟨0x20010, 0x400, 0x0, 0x0, 15, 9, .rwl, 0⟩
def PART_CQ.cq_ordinal : Fld := ⟨0x20010, 0x400, 0x0, 0x0, 24, 7, .rwl, 0⟩
def PART_CQ.cq_enable : Fld := ⟨0x20010, 0x400, 0x0, 0x0, 31, 1, .rwl, 0⟩
/-- PART_CQ (R375). -/
def PART_CQ : RegDef := ⟨0x20010, 16, 0x400, 1, 0x0, 1, 0x0, false,
  [PART_CQ.cq_q, PART_CQ.cq_channel, PART_CQ.cq_ordinal, PART_CQ.cq_enable]⟩

def PART_SHARE.quantum : Fld := ⟨0x20018, 0x400, 0x0, 0x0, 0, 16, .rwl, 16⟩
def PART_SHARE.notice_rate : Fld := ⟨0x20018, 0x400, 0x0, 0x0, 16, 16, .rwl, 16⟩
def PART_SHARE.notice_burst : Fld := ⟨0x20018, 0x400, 0x0, 0x0, 32, 8, .rwl, 16⟩
/-- PART_SHARE (R375). -/
def PART_SHARE : RegDef := ⟨0x20018, 16, 0x400, 1, 0x0, 1, 0x0, false,
  [PART_SHARE.quantum, PART_SHARE.notice_rate, PART_SHARE.notice_burst]⟩

def PART_NOTICE_CFG.notice_flow : Fld := ⟨0x20020, 0x400, 0x0, 0x0, 0, 6, .rwl, 0⟩
def PART_NOTICE_CFG.notice_en : Fld := ⟨0x20020, 0x400, 0x0, 0x0, 6, 1, .rwl, 0⟩
def PART_NOTICE_CFG.int_pin : Fld := ⟨0x20020, 0x400, 0x0, 0x0, 7, 2, .rwl, 0⟩
def PART_NOTICE_CFG.int_en : Fld := ⟨0x20020, 0x400, 0x0, 0x0, 9, 1, .rwl, 0⟩
def PART_NOTICE_CFG.int_min_sev : Fld := ⟨0x20020, 0x400, 0x0, 0x0, 10, 2, .rwl, 2⟩
def PART_NOTICE_CFG.retry : Fld := ⟨0x20020, 0x400, 0x0, 0x0, 12, 12, .rwl, 10⟩
/-- PART_NOTICE_CFG (R375). -/
def PART_NOTICE_CFG : RegDef := ⟨0x20020, 16, 0x400, 1, 0x0, 1, 0x0, false,
  [PART_NOTICE_CFG.notice_flow, PART_NOTICE_CFG.notice_en, PART_NOTICE_CFG.int_pin, PART_NOTICE_CFG.int_en, PART_NOTICE_CFG.int_min_sev, PART_NOTICE_CFG.retry]⟩

def PART_NOTICE_STAT.pending : Fld := ⟨0x20028, 0x400, 0x0, 0x0, 0, 9, .ro, 0⟩
def PART_NOTICE_STAT.overflow_pending : Fld := ⟨0x20028, 0x400, 0x0, 0x0, 9, 1, .ro, 0⟩
/-- PART_NOTICE_STAT (R375). -/
def PART_NOTICE_STAT : RegDef := ⟨0x20028, 16, 0x400, 1, 0x0, 1, 0x0, false,
  [PART_NOTICE_STAT.pending, PART_NOTICE_STAT.overflow_pending]⟩

def PART_NOTICE_STAT2.raised : Fld := ⟨0x20030, 0x400, 0x0, 0x0, 0, 16, .rc, 0⟩
def PART_NOTICE_STAT2.retries : Fld := ⟨0x20030, 0x400, 0x0, 0x0, 16, 16, .rc, 0⟩
def PART_NOTICE_STAT2.coalesced : Fld := ⟨0x20030, 0x400, 0x0, 0x0, 32, 16, .rc, 0⟩
def PART_NOTICE_STAT2.overflowed : Fld := ⟨0x20030, 0x400, 0x0, 0x0, 48, 16, .rc, 0⟩
/-- PART_NOTICE_STAT2 (R375). -/
def PART_NOTICE_STAT2 : RegDef := ⟨0x20030, 16, 0x400, 1, 0x0, 1, 0x0, false,
  [PART_NOTICE_STAT2.raised, PART_NOTICE_STAT2.retries, PART_NOTICE_STAT2.coalesced, PART_NOTICE_STAT2.overflowed]⟩

def PART_NOTICE_ACK.notice_id : Fld := ⟨0x20038, 0x400, 0x0, 0x0, 0, 32, .wo, 0⟩
/-- PART_NOTICE_ACK (R375). -/
def PART_NOTICE_ACK : RegDef := ⟨0x20038, 16, 0x400, 1, 0x0, 1, 0x0, false,
  [PART_NOTICE_ACK.notice_id]⟩

def PART_KEY_ID.key_id : Fld := ⟨0x20040, 0x400, 0x0, 0x0, 0, 32, .ro, 0⟩
def PART_KEY_ID.key_set : Fld := ⟨0x20040, 0x400, 0x0, 0x0, 32, 1, .ro, 0⟩
/-- PART_KEY_ID (R375). -/
def PART_KEY_ID : RegDef := ⟨0x20040, 16, 0x400, 1, 0x0, 1, 0x0, false,
  [PART_KEY_ID.key_id, PART_KEY_ID.key_set]⟩

def PART_STAT.records : Fld := ⟨0x20048, 0x400, 0x0, 0x0, 0, 32, .rc, 0⟩
def PART_STAT.drains : Fld := ⟨0x20048, 0x400, 0x0, 0x0, 32, 16, .rc, 0⟩
def PART_STAT.aborts : Fld := ⟨0x20048, 0x400, 0x0, 0x0, 48, 16, .rc, 0⟩
/-- PART_STAT (R375). -/
def PART_STAT : RegDef := ⟨0x20048, 16, 0x400, 1, 0x0, 1, 0x0, false,
  [PART_STAT.records, PART_STAT.drains, PART_STAT.aborts]⟩

def PART_STAT2.drain_timeouts : Fld := ⟨0x20050, 0x400, 0x0, 0x0, 0, 16, .rc, 0⟩
def PART_STAT2.range_refusals : Fld := ⟨0x20050, 0x400, 0x0, 0x0, 16, 16, .rc, 0⟩
def PART_STAT2.cq_stalls : Fld := ⟨0x20050, 0x400, 0x0, 0x0, 32, 16, .rc, 0⟩
/-- PART_STAT2 (R375). -/
def PART_STAT2 : RegDef := ⟨0x20050, 16, 0x400, 1, 0x0, 1, 0x0, false,
  [PART_STAT2.drain_timeouts, PART_STAT2.range_refusals, PART_STAT2.cq_stalls]⟩

def PART_KEY.key : Fld := ⟨0x20080, 0x400, 0x8, 0x0, 0, 64, .rwl, 0⟩
/-- PART_KEY (R375). -/
def PART_KEY : RegDef := ⟨0x20080, 16, 0x400, 4, 0x8, 1, 0x0, false,
  [PART_KEY.key]⟩

def PART_WATCH.queue : Fld := ⟨0x20100, 0x400, 0x8, 0x0, 0, 15, .rwl, 0⟩
/-- PART_WATCH (R375). -/
def PART_WATCH : RegDef := ⟨0x20100, 16, 0x400, 32, 0x8, 1, 0x0, false,
  [PART_WATCH.queue]⟩

def PART_CAUSE.enable : Fld := ⟨0x20200, 0x400, 0x8, 0x0, 0, 1, .rw, 0⟩
def PART_CAUSE.severity : Fld := ⟨0x20200, 0x400, 0x8, 0x0, 1, 2, .rwl, 0⟩
def PART_CAUSE.moderation : Fld := ⟨0x20200, 0x400, 0x8, 0x0, 3, 16, .rwl, 0⟩
/-- PART_CAUSE (R375). -/
def PART_CAUSE : RegDef := ⟨0x20200, 16, 0x400, 64, 0x8, 1, 0x0, false,
  [PART_CAUSE.enable, PART_CAUSE.severity, PART_CAUSE.moderation]⟩

def PART_SESSION.session : Fld := ⟨0x24000, 0x0, 0x0, 0x0, 0, 16, .ro, 0⟩
def PART_SESSION.cold : Fld := ⟨0x24000, 0x0, 0x0, 0x0, 16, 1, .ro, 1⟩
/-- PART_SESSION (R375). -/
def PART_SESSION : RegDef := ⟨0x24000, 1, 0x0, 1, 0x0, 1, 0x0, false,
  [PART_SESSION.session, PART_SESSION.cold]⟩

def PART_GLOBAL.warm_flush : Fld := ⟨0x24008, 0x0, 0x0, 0x0, 0, 10, .rwl, 10⟩
/-- PART_GLOBAL (R375). -/
def PART_GLOBAL : RegDef := ⟨0x24008, 1, 0x0, 1, 0x0, 1, 0x0, false,
  [PART_GLOBAL.warm_flush]⟩

def INTG_CTRL.scrub_period : Fld := ⟨0xC00000, 0x0, 0x0, 0x0, 0, 6, .rwl, 32⟩
def INTG_CTRL.retire_limit : Fld := ⟨0xC00000, 0x0, 0x0, 0x0, 6, 4, .rwl, 3⟩
def INTG_CTRL.retire_window : Fld := ⟨0xC00000, 0x0, 0x0, 0x0, 10, 16, .rwl, 1000⟩
def INTG_CTRL.twin_batch : Fld := ⟨0xC00000, 0x0, 0x0, 0x0, 26, 10, .rwl, 20⟩
def INTG_CTRL.twin_window : Fld := ⟨0xC00000, 0x0, 0x0, 0x0, 36, 8, .rwl, 5⟩
/-- INTG_CTRL (R402). -/
def INTG_CTRL : RegDef := ⟨0xC00000, 1, 0x0, 1, 0x0, 1, 0x0, false,
  [INTG_CTRL.scrub_period, INTG_CTRL.retire_limit, INTG_CTRL.retire_window, INTG_CTRL.twin_batch, INTG_CTRL.twin_window]⟩

def INTG_EVT_CFG.evt_rate : Fld := ⟨0xC00008, 0x0, 0x0, 0x0, 0, 10, .rwl, 64⟩
def INTG_EVT_CFG.evt_burst : Fld := ⟨0xC00008, 0x0, 0x0, 0x0, 10, 10, .rwl, 256⟩
def INTG_EVT_CFG.alarm_holdoff : Fld := ⟨0xC00008, 0x0, 0x0, 0x0, 20, 16, .rwl, 100⟩
def INTG_EVT_CFG.push_min : Fld := ⟨0xC00008, 0x0, 0x0, 0x0, 36, 2, .rwl, 1⟩
/-- INTG_EVT_CFG (R402). -/
def INTG_EVT_CFG : RegDef := ⟨0xC00008, 1, 0x0, 1, 0x0, 1, 0x0, false,
  [INTG_EVT_CFG.evt_rate, INTG_EVT_CFG.evt_burst, INTG_EVT_CFG.alarm_holdoff, INTG_EVT_CFG.push_min]⟩

def INTG_SCRUB_STAT.corrected : Fld := ⟨0xC00010, 0x0, 0x0, 0x0, 0, 32, .rc, 0⟩
def INTG_SCRUB_STAT.uncorrectable : Fld := ⟨0xC00010, 0x0, 0x0, 0x0, 32, 16, .rc, 0⟩
def INTG_SCRUB_STAT.abandoned : Fld := ⟨0xC00010, 0x0, 0x0, 0x0, 48, 16, .rc, 0⟩
/-- INTG_SCRUB_STAT (R402). -/
def INTG_SCRUB_STAT : RegDef := ⟨0xC00010, 1, 0x0, 1, 0x0, 1, 0x0, false,
  [INTG_SCRUB_STAT.corrected, INTG_SCRUB_STAT.uncorrectable, INTG_SCRUB_STAT.abandoned]⟩

def INTG_ECC_LAST.slot : Fld := ⟨0xC00018, 0x0, 0x0, 0x0, 0, 23, .ro, 0⟩
def INTG_ECC_LAST.queue : Fld := ⟨0xC00018, 0x0, 0x0, 0x0, 23, 15, .ro, 0⟩
def INTG_ECC_LAST.owned : Fld := ⟨0xC00018, 0x0, 0x0, 0x0, 38, 1, .ro, 0⟩
def INTG_ECC_LAST.valid : Fld := ⟨0xC00018, 0x0, 0x0, 0x0, 39, 1, .ro, 0⟩
/-- INTG_ECC_LAST (R402). -/
def INTG_ECC_LAST : RegDef := ⟨0xC00018, 1, 0x0, 1, 0x0, 1, 0x0, false,
  [INTG_ECC_LAST.slot, INTG_ECC_LAST.queue, INTG_ECC_LAST.owned, INTG_ECC_LAST.valid]⟩

def INTG_SPARE.free : Fld := ⟨0xC00020, 0x0, 0x0, 0x0, 0, 5, .ro, 16⟩
def INTG_SPARE.bist_failed : Fld := ⟨0xC00020, 0x0, 0x0, 0x0, 5, 9, .ro, 0⟩
/-- INTG_SPARE (R402). -/
def INTG_SPARE : RegDef := ⟨0xC00020, 1, 0x0, 1, 0x0, 1, 0x0, false,
  [INTG_SPARE.free, INTG_SPARE.bist_failed]⟩

def INTG_UND.state : Fld := ⟨0xC00040, 0x8, 0x0, 0x0, 0, 2, .ro, 0⟩
def INTG_UND.tile : Fld := ⟨0xC00040, 0x8, 0x0, 0x0, 2, 8, .ro, 0⟩
def INTG_UND.mismatches : Fld := ⟨0xC00040, 0x8, 0x0, 0x0, 10, 16, .rc, 0⟩
/-- INTG_UND (R402). -/
def INTG_UND : RegDef := ⟨0xC00040, 16, 0x8, 1, 0x0, 1, 0x0, false,
  [INTG_UND.state, INTG_UND.tile, INTG_UND.mismatches]⟩

def INTG_TWIN_STAT.diverged : Fld := ⟨0xC000C0, 0x0, 0x0, 0x0, 0, 16, .rc, 0⟩
def INTG_TWIN_STAT.diverged_clean : Fld := ⟨0xC000C0, 0x0, 0x0, 0x0, 16, 16, .rc, 0⟩
def INTG_TWIN_STAT.onesided : Fld := ⟨0xC000C0, 0x0, 0x0, 0x0, 32, 16, .rc, 0⟩
def INTG_TWIN_STAT.unmatched : Fld := ⟨0xC000C0, 0x0, 0x0, 0x0, 48, 16, .rc, 0⟩
/-- INTG_TWIN_STAT (R402). -/
def INTG_TWIN_STAT : RegDef := ⟨0xC000C0, 1, 0x0, 1, 0x0, 1, 0x0, false,
  [INTG_TWIN_STAT.diverged, INTG_TWIN_STAT.diverged_clean, INTG_TWIN_STAT.onesided, INTG_TWIN_STAT.unmatched]⟩

def INTG_ALARM.summary : Fld := ⟨0xC00100, 0x8, 0x0, 0x0, 0, 64, .w1c, 0⟩
/-- INTG_ALARM (R402). -/
def INTG_ALARM : RegDef := ⟨0xC00100, 4, 0x8, 1, 0x0, 1, 0x0, false,
  [INTG_ALARM.summary]⟩

def INTG_ALARM_MASK.mask : Fld := ⟨0xC00120, 0x8, 0x0, 0x0, 0, 64, .rw, 18446744073709551615⟩
/-- INTG_ALARM_MASK (R402). -/
def INTG_ALARM_MASK : RegDef := ⟨0xC00120, 4, 0x8, 1, 0x0, 1, 0x0, false,
  [INTG_ALARM_MASK.mask]⟩

def INTG_ALARM_COUNT.count0 : Fld := ⟨0xC00200, 0x8, 0x0, 0x0, 0, 16, .rc, 0⟩
def INTG_ALARM_COUNT.count1 : Fld := ⟨0xC00200, 0x8, 0x0, 0x0, 16, 16, .rc, 0⟩
def INTG_ALARM_COUNT.count2 : Fld := ⟨0xC00200, 0x8, 0x0, 0x0, 32, 16, .rc, 0⟩
def INTG_ALARM_COUNT.count3 : Fld := ⟨0xC00200, 0x8, 0x0, 0x0, 48, 16, .rc, 0⟩
/-- INTG_ALARM_COUNT (R402). -/
def INTG_ALARM_COUNT : RegDef := ⟨0xC00200, 64, 0x8, 1, 0x0, 1, 0x0, false,
  [INTG_ALARM_COUNT.count0, INTG_ALARM_COUNT.count1, INTG_ALARM_COUNT.count2, INTG_ALARM_COUNT.count3]⟩

def INTG_EVT_RING.ring_base : Fld := ⟨0xC00400, 0x20, 0x0, 0x0, 0, 23, .rwl, 0⟩
def INTG_EVT_RING.enable : Fld := ⟨0xC00400, 0x20, 0x0, 0x0, 23, 1, .rwl, 0⟩
def INTG_EVT_RING.evt_flow : Fld := ⟨0xC00400, 0x20, 0x0, 0x0, 24, 6, .rwl, 0⟩
def INTG_EVT_RING.push_en : Fld := ⟨0xC00400, 0x20, 0x0, 0x0, 30, 1, .rwl, 0⟩
/-- INTG_EVT_RING (R402). -/
def INTG_EVT_RING : RegDef := ⟨0xC00400, 16, 0x20, 1, 0x0, 1, 0x0, false,
  [INTG_EVT_RING.ring_base, INTG_EVT_RING.enable, INTG_EVT_RING.evt_flow, INTG_EVT_RING.push_en]⟩

def INTG_EVT_HEAD.head : Fld := ⟨0xC00408, 0x20, 0x0, 0x0, 0, 13, .ro, 0⟩
/-- INTG_EVT_HEAD (R402). -/
def INTG_EVT_HEAD : RegDef := ⟨0xC00408, 16, 0x20, 1, 0x0, 1, 0x0, false,
  [INTG_EVT_HEAD.head]⟩

def INTG_EVT_TAIL.tail : Fld := ⟨0xC00410, 0x20, 0x0, 0x0, 0, 13, .rw, 0⟩
/-- INTG_EVT_TAIL (R402). -/
def INTG_EVT_TAIL : RegDef := ⟨0xC00410, 16, 0x20, 1, 0x0, 1, 0x0, false,
  [INTG_EVT_TAIL.tail]⟩

def INTG_EVT_STAT.trace_dropped : Fld := ⟨0xC00418, 0x20, 0x0, 0x0, 0, 16, .rc, 0⟩
def INTG_EVT_STAT.log_suppressed : Fld := ⟨0xC00418, 0x20, 0x0, 0x0, 16, 16, .rc, 0⟩
def INTG_EVT_STAT.alarm_unwritten : Fld := ⟨0xC00418, 0x20, 0x0, 0x0, 32, 16, .rc, 0⟩
/-- INTG_EVT_STAT (R402). -/
def INTG_EVT_STAT : RegDef := ⟨0xC00418, 16, 0x20, 1, 0x0, 1, 0x0, false,
  [INTG_EVT_STAT.trace_dropped, INTG_EVT_STAT.log_suppressed, INTG_EVT_STAT.alarm_unwritten]⟩

def CHK_CFG.enable : Fld := ⟨0xC80000, 0x40, 0x0, 0x0, 0, 1, .rwl, 0⟩
def CHK_CFG.owner : Fld := ⟨0xC80000, 0x40, 0x0, 0x0, 1, 4, .rwl, 0⟩
def CHK_CFG.algorithm : Fld := ⟨0xC80000, 0x40, 0x0, 0x0, 5, 3, .rw, 0⟩
def CHK_CFG.width : Fld := ⟨0xC80000, 0x40, 0x0, 0x0, 8, 6, .rw, 31⟩
def CHK_CFG.reflect_in : Fld := ⟨0xC80000, 0x40, 0x0, 0x0, 14, 1, .rw, 0⟩
def CHK_CFG.reflect_out : Fld := ⟨0xC80000, 0x40, 0x0, 0x0, 15, 1, .rw, 0⟩
def CHK_CFG.with_mark : Fld := ⟨0xC80000, 0x40, 0x0, 0x0, 16, 1, .rw, 0⟩
/-- CHK_CFG (R403). -/
def CHK_CFG : RegDef := ⟨0xC80000, 64, 0x40, 1, 0x0, 1, 0x0, false,
  [CHK_CFG.enable, CHK_CFG.owner, CHK_CFG.algorithm, CHK_CFG.width, CHK_CFG.reflect_in, CHK_CFG.reflect_out, CHK_CFG.with_mark]⟩

def CHK_POLY.poly : Fld := ⟨0xC80008, 0x40, 0x0, 0x0, 0, 64, .rw, 0⟩
/-- CHK_POLY (R403). -/
def CHK_POLY : RegDef := ⟨0xC80008, 64, 0x40, 1, 0x0, 1, 0x0, false,
  [CHK_POLY.poly]⟩

def CHK_INIT.init : Fld := ⟨0xC80010, 0x40, 0x0, 0x0, 0, 64, .rw, 0⟩
/-- CHK_INIT (R403). -/
def CHK_INIT : RegDef := ⟨0xC80010, 64, 0x40, 1, 0x0, 1, 0x0, false,
  [CHK_INIT.init]⟩

def CHK_XOROUT.xorout : Fld := ⟨0xC80018, 0x40, 0x0, 0x0, 0, 64, .rw, 0⟩
/-- CHK_XOROUT (R403). -/
def CHK_XOROUT : RegDef := ⟨0xC80018, 64, 0x40, 1, 0x0, 1, 0x0, false,
  [CHK_XOROUT.xorout]⟩

def CHK_SCAN.start : Fld := ⟨0xC80020, 0x40, 0x0, 0x0, 0, 23, .rw, 0⟩
def CHK_SCAN.length : Fld := ⟨0xC80020, 0x40, 0x0, 0x0, 23, 24, .rw, 0⟩
def CHK_SCAN.stride : Fld := ⟨0xC80020, 0x40, 0x0, 0x0, 47, 17, .rw, 0⟩
/-- CHK_SCAN (R403). -/
def CHK_SCAN : RegDef := ⟨0xC80020, 64, 0x40, 1, 0x0, 1, 0x0, false,
  [CHK_SCAN.start, CHK_SCAN.length, CHK_SCAN.stride]⟩

def CHK_CTRL.go : Fld := ⟨0xC80028, 0x40, 0x0, 0x0, 0, 1, .w1s, 0⟩
def CHK_CTRL.pause : Fld := ⟨0xC80028, 0x40, 0x0, 0x0, 1, 1, .w1s, 0⟩
def CHK_CTRL.resume : Fld := ⟨0xC80028, 0x40, 0x0, 0x0, 2, 1, .w1s, 0⟩
def CHK_CTRL.status : Fld := ⟨0xC80028, 0x40, 0x0, 0x0, 3, 3, .ro, 0⟩
def CHK_CTRL.done_slots : Fld := ⟨0xC80028, 0x40, 0x0, 0x0, 6, 24, .ro, 0⟩
/-- CHK_CTRL (R403). -/
def CHK_CTRL : RegDef := ⟨0xC80028, 64, 0x40, 1, 0x0, 1, 0x0, false,
  [CHK_CTRL.go, CHK_CTRL.pause, CHK_CTRL.resume, CHK_CTRL.status, CHK_CTRL.done_slots]⟩

def CHK_VALUE.value : Fld := ⟨0xC80030, 0x40, 0x0, 0x0, 0, 64, .rw, 0⟩
/-- CHK_VALUE (R403). -/
def CHK_VALUE : RegDef := ⟨0xC80030, 64, 0x40, 1, 0x0, 1, 0x0, false,
  [CHK_VALUE.value]⟩

def CHK_RESULT.result : Fld := ⟨0xC80038, 0x40, 0x0, 0x0, 0, 64, .ro, 0⟩
/-- CHK_RESULT (R403). -/
def CHK_RESULT : RegDef := ⟨0xC80038, 64, 0x40, 1, 0x0, 1, 0x0, false,
  [CHK_RESULT.result]⟩

def CLK_REF.primary : Fld := ⟨0xD00000, 0x0, 0x0, 0x0, 0, 1, .ro, 0⟩
def CLK_REF.in_use : Fld := ⟨0xD00000, 0x0, 0x0, 0x0, 1, 1, .ro, 0⟩
def CLK_REF.xtal_present : Fld := ⟨0xD00000, 0x0, 0x0, 0x0, 2, 1, .ro, 0⟩
def CLK_REF.ext_present : Fld := ⟨0xD00000, 0x0, 0x0, 0x0, 3, 1, .ro, 0⟩
def CLK_REF.ref_fallback : Fld := ⟨0xD00000, 0x0, 0x0, 0x0, 4, 1, .rwl, 1⟩
/-- CLK_REF (R423). -/
def CLK_REF : RegDef := ⟨0xD00000, 1, 0x0, 1, 0x0, 1, 0x0, false,
  [CLK_REF.primary, CLK_REF.in_use, CLK_REF.xtal_present, CLK_REF.ext_present, CLK_REF.ref_fallback]⟩

def CLK_FREQ.freq : Fld := ⟨0xD00040, 0x8, 0x0, 0x0, 0, 7, .rwl, 64⟩
/-- CLK_FREQ (R423). -/
def CLK_FREQ : RegDef := ⟨0xD00040, 9, 0x8, 1, 0x0, 1, 0x0, false,
  [CLK_FREQ.freq]⟩

def CLK_MEAS_SEL.island : Fld := ⟨0xD000B0, 0x0, 0x0, 0x0, 0, 10, .rw, 0⟩
def CLK_MEAS_SEL.go : Fld := ⟨0xD000B0, 0x0, 0x0, 0x0, 10, 1, .w1s, 0⟩
/-- CLK_MEAS_SEL (R423). -/
def CLK_MEAS_SEL : RegDef := ⟨0xD000B0, 1, 0x0, 1, 0x0, 1, 0x0, false,
  [CLK_MEAS_SEL.island, CLK_MEAS_SEL.go]⟩

def CLK_MEAS.khz : Fld := ⟨0xD000B8, 0x0, 0x0, 0x0, 0, 22, .ro, 0⟩
def CLK_MEAS.on_haven : Fld := ⟨0xD000B8, 0x0, 0x0, 0x0, 22, 1, .ro, 1⟩
def CLK_MEAS.stuck : Fld := ⟨0xD000B8, 0x0, 0x0, 0x0, 23, 1, .ro, 0⟩
/-- CLK_MEAS (R423). -/
def CLK_MEAS : RegDef := ⟨0xD000B8, 1, 0x0, 1, 0x0, 1, 0x0, false,
  [CLK_MEAS.khz, CLK_MEAS.on_haven, CLK_MEAS.stuck]⟩

def CLK_STAT.ref_losses : Fld := ⟨0xD00090, 0x0, 0x0, 0x0, 0, 16, .rc, 0⟩
def CLK_STAT.relocks : Fld := ⟨0xD00090, 0x0, 0x0, 0x0, 16, 16, .rc, 0⟩
def CLK_STAT.relock_fail : Fld := ⟨0xD00090, 0x0, 0x0, 0x0, 32, 16, .rc, 0⟩
def CLK_STAT.guard_trips : Fld := ⟨0xD00090, 0x0, 0x0, 0x0, 48, 16, .rc, 0⟩
/-- CLK_STAT (R423). -/
def CLK_STAT : RegDef := ⟨0xD00090, 1, 0x0, 1, 0x0, 1, 0x0, false,
  [CLK_STAT.ref_losses, CLK_STAT.relocks, CLK_STAT.relock_fail, CLK_STAT.guard_trips]⟩

def CLK_BOOT.state : Fld := ⟨0xD000A0, 0x0, 0x0, 0x0, 0, 4, .ro, 0⟩
def CLK_BOOT.boot : Fld := ⟨0xD000A0, 0x0, 0x0, 0x0, 4, 2, .ro, 0⟩
def CLK_BOOT.fw_slot : Fld := ⟨0xD000A0, 0x0, 0x0, 0x0, 6, 1, .ro, 0⟩
def CLK_BOOT.fw_rom : Fld := ⟨0xD000A0, 0x0, 0x0, 0x0, 7, 1, .ro, 0⟩
def CLK_BOOT.img_slot : Fld := ⟨0xD000A0, 0x0, 0x0, 0x0, 8, 1, .ro, 0⟩
def CLK_BOOT.img_kmp : Fld := ⟨0xD000A0, 0x0, 0x0, 0x0, 9, 1, .ro, 0⟩
def CLK_BOOT.record_ok : Fld := ⟨0xD000A0, 0x0, 0x0, 0x0, 10, 1, .ro, 0⟩
def CLK_BOOT.links_wait : Fld := ⟨0xD000A0, 0x0, 0x0, 0x0, 11, 16, .rwl, 5000⟩
/-- CLK_BOOT (R423). -/
def CLK_BOOT : RegDef := ⟨0xD000A0, 1, 0x0, 1, 0x0, 1, 0x0, false,
  [CLK_BOOT.state, CLK_BOOT.boot, CLK_BOOT.fw_slot, CLK_BOOT.fw_rom, CLK_BOOT.img_slot, CLK_BOOT.img_kmp, CLK_BOOT.record_ok, CLK_BOOT.links_wait]⟩

def CLK_TEMP_CFG.temp_warn : Fld := ⟨0xD000A8, 0x0, 0x0, 0x0, 0, 12, .rwl, 1600⟩
def CLK_TEMP_CFG.temp_crit : Fld := ⟨0xD000A8, 0x0, 0x0, 0x0, 12, 12, .rwl, 1760⟩
/-- CLK_TEMP_CFG (R423). -/
def CLK_TEMP_CFG : RegDef := ⟨0xD000A8, 1, 0x0, 1, 0x0, 1, 0x0, false,
  [CLK_TEMP_CFG.temp_warn, CLK_TEMP_CFG.temp_crit]⟩

def CLK_TEMP.temp : Fld := ⟨0xD00100, 0x8, 0x0, 0x0, 0, 12, .ro, 0⟩
def CLK_TEMP.temp_max : Fld := ⟨0xD00100, 0x8, 0x0, 0x0, 12, 12, .rc, 0⟩
/-- CLK_TEMP (R423). -/
def CLK_TEMP : RegDef := ⟨0xD00100, 16, 0x8, 1, 0x0, 1, 0x0, false,
  [CLK_TEMP.temp, CLK_TEMP.temp_max]⟩

def CLK_VMON.mv : Fld := ⟨0xD00200, 0x8, 0x0, 0x0, 0, 12, .ro, 0⟩
def CLK_VMON.lo : Fld := ⟨0xD00200, 0x8, 0x0, 0x0, 12, 12, .rwl, 0⟩
def CLK_VMON.hi : Fld := ⟨0xD00200, 0x8, 0x0, 0x0, 24, 12, .rwl, 0⟩
def CLK_VMON.out : Fld := ⟨0xD00200, 0x8, 0x0, 0x0, 36, 1, .ro, 0⟩
/-- CLK_VMON (R423). -/
def CLK_VMON : RegDef := ⟨0xD00200, 24, 0x8, 1, 0x0, 1, 0x0, false,
  [CLK_VMON.mv, CLK_VMON.lo, CLK_VMON.hi, CLK_VMON.out]⟩

def CAL_CTRL.cal_period : Fld := ⟨0xD80000, 0x0, 0x0, 0x0, 0, 8, .rwl, 10⟩
def CAL_CTRL.temp_delta : Fld := ⟨0xD80000, 0x0, 0x0, 0x0, 8, 4, .rwl, 5⟩
/-- CAL_CTRL (R424). -/
def CAL_CTRL : RegDef := ⟨0xD80000, 1, 0x0, 1, 0x0, 1, 0x0, false,
  [CAL_CTRL.cal_period, CAL_CTRL.temp_delta]⟩

def CAL_TRIM_SEL.block : Fld := ⟨0xD80010, 0x0, 0x0, 0x0, 0, 6, .rw, 0⟩
def CAL_TRIM_SEL.index : Fld := ⟨0xD80010, 0x0, 0x0, 0x0, 6, 6, .rw, 0⟩
/-- CAL_TRIM_SEL (R424). -/
def CAL_TRIM_SEL : RegDef := ⟨0xD80010, 1, 0x0, 1, 0x0, 1, 0x0, false,
  [CAL_TRIM_SEL.block, CAL_TRIM_SEL.index]⟩

def CAL_TRIM.code : Fld := ⟨0xD80018, 0x0, 0x0, 0x0, 0, 12, .ro, 0⟩
def CAL_TRIM.target : Fld := ⟨0xD80018, 0x0, 0x0, 0x0, 12, 12, .ro, 0⟩
/-- CAL_TRIM (R424). -/
def CAL_TRIM : RegDef := ⟨0xD80018, 1, 0x0, 1, 0x0, 1, 0x0, false,
  [CAL_TRIM.code, CAL_TRIM.target]⟩

def CAL_BLK.run : Fld := ⟨0xD80100, 0x20, 0x0, 0x0, 0, 1, .w1s, 0⟩
def CAL_BLK.result : Fld := ⟨0xD80100, 0x20, 0x0, 0x0, 1, 3, .ro, 0⟩
def CAL_BLK.state : Fld := ⟨0xD80100, 0x20, 0x0, 0x0, 4, 2, .ro, 0⟩
def CAL_BLK.pending : Fld := ⟨0xD80100, 0x20, 0x0, 0x0, 6, 1, .ro, 0⟩
def CAL_BLK.sensor : Fld := ⟨0xD80100, 0x20, 0x0, 0x0, 7, 4, .ro, 0⟩
def CAL_BLK.last_ns : Fld := ⟨0xD80100, 0x20, 0x0, 0x0, 32, 30, .ro, 0⟩
/-- CAL_BLK (R424). -/
def CAL_BLK : RegDef := ⟨0xD80100, 62, 0x20, 1, 0x0, 1, 0x0, false,
  [CAL_BLK.run, CAL_BLK.result, CAL_BLK.state, CAL_BLK.pending, CAL_BLK.sensor, CAL_BLK.last_ns]⟩

def CAL_BLK_COUNT.completed : Fld := ⟨0xD80108, 0x20, 0x0, 0x0, 0, 32, .ro, 0⟩
def CAL_BLK_COUNT.attempts : Fld := ⟨0xD80108, 0x20, 0x0, 0x0, 32, 32, .ro, 0⟩
/-- CAL_BLK_COUNT (R424). -/
def CAL_BLK_COUNT : RegDef := ⟨0xD80108, 62, 0x20, 1, 0x0, 1, 0x0, false,
  [CAL_BLK_COUNT.completed, CAL_BLK_COUNT.attempts]⟩

def CAL_BLK_SEC.last_sec : Fld := ⟨0xD80110, 0x20, 0x0, 0x0, 0, 64, .ro, 0⟩
/-- CAL_BLK_SEC (R424). -/
def CAL_BLK_SEC : RegDef := ⟨0xD80110, 62, 0x20, 1, 0x0, 1, 0x0, false,
  [CAL_BLK_SEC.last_sec]⟩

def TMB_ID.part_code : Fld := ⟨0x10000, 0x0, 0x0, 0x0, 0, 16, .ro, 29234⟩
def TMB_ID.stepping : Fld := ⟨0x10000, 0x0, 0x0, 0x0, 16, 8, .ro, 162⟩
/-- TMB_ID (R445). -/
def TMB_ID : RegDef := ⟨0x10000, 1, 0x0, 1, 0x0, 1, 0x0, false,
  [TMB_ID.part_code, TMB_ID.stepping]⟩

def TMB_UID.uid : Fld := ⟨0x10008, 0x0, 0x0, 0x0, 0, 64, .ro, 0⟩
/-- TMB_UID (R445). -/
def TMB_UID : RegDef := ⟨0x10008, 1, 0x0, 1, 0x0, 1, 0x0, false,
  [TMB_UID.uid]⟩

def TMB_STATUS.start_state : Fld := ⟨0x10010, 0x0, 0x0, 0x0, 0, 4, .ro, 0⟩
def TMB_STATUS.thermal : Fld := ⟨0x10010, 0x0, 0x0, 0x0, 4, 1, .ro, 0⟩
def TMB_STATUS.selftest_hold : Fld := ⟨0x10010, 0x0, 0x0, 0x0, 5, 1, .ro, 0⟩
def TMB_STATUS.last_reset : Fld := ⟨0x10010, 0x0, 0x0, 0x0, 6, 2, .ro, 0⟩
def TMB_STATUS.failed_memory : Fld := ⟨0x10010, 0x0, 0x0, 0x0, 8, 8, .ro, 0⟩
/-- TMB_STATUS (R445). -/
def TMB_STATUS : RegDef := ⟨0x10010, 1, 0x0, 1, 0x0, 1, 0x0, false,
  [TMB_STATUS.start_state, TMB_STATUS.thermal, TMB_STATUS.selftest_hold, TMB_STATUS.last_reset, TMB_STATUS.failed_memory]⟩

def TMB_RESET.abort : Fld := ⟨0x10018, 0x0, 0x0, 0x0, 0, 16, .w1s, 0⟩
def TMB_RESET.warm : Fld := ⟨0x10018, 0x0, 0x0, 0x0, 16, 1, .w1s, 0⟩
def TMB_RESET.cold : Fld := ⟨0x10018, 0x0, 0x0, 0x0, 17, 1, .w1s, 0⟩
def TMB_RESET.confirm : Fld := ⟨0x10018, 0x0, 0x0, 0x0, 24, 8, .wo, 0⟩
/-- TMB_RESET (R445). -/
def TMB_RESET : RegDef := ⟨0x10018, 1, 0x0, 1, 0x0, 1, 0x0, false,
  [TMB_RESET.abort, TMB_RESET.warm, TMB_RESET.cold, TMB_RESET.confirm]⟩

def TMB_WDOG.wd_timeout : Fld := ⟨0x10020, 0x0, 0x0, 0x0, 0, 8, .rwl, 50⟩
def TMB_WDOG.fabric_timeout : Fld := ⟨0x10020, 0x0, 0x0, 0x0, 8, 10, .rwl, 100⟩
def TMB_WDOG.thermal_resume : Fld := ⟨0x10020, 0x0, 0x0, 0x0, 18, 12, .rwl, 1520⟩
/-- TMB_WDOG (R445). -/
def TMB_WDOG : RegDef := ⟨0x10020, 1, 0x0, 1, 0x0, 1, 0x0, false,
  [TMB_WDOG.wd_timeout, TMB_WDOG.fabric_timeout, TMB_WDOG.thermal_resume]⟩

def TMB_REPEATER.force : Fld := ⟨0x10028, 0x0, 0x0, 0x0, 0, 1, .rw, 0⟩
def TMB_REPEATER.active : Fld := ⟨0x10028, 0x0, 0x0, 0x0, 1, 1, .ro, 1⟩
/-- TMB_REPEATER (R445). -/
def TMB_REPEATER : RegDef := ⟨0x10028, 1, 0x0, 1, 0x0, 1, 0x0, false,
  [TMB_REPEATER.force, TMB_REPEATER.active]⟩

def TMB_TIME.seconds : Fld := ⟨0x10030, 0x0, 0x0, 0x0, 0, 64, .ro, 0⟩
/-- TMB_TIME (R445). -/
def TMB_TIME : RegDef := ⟨0x10030, 1, 0x0, 1, 0x0, 1, 0x0, false,
  [TMB_TIME.seconds]⟩

def TMB_TIME_NS.nanoseconds : Fld := ⟨0x10038, 0x0, 0x0, 0x0, 0, 32, .ro, 0⟩
/-- TMB_TIME_NS (R445). -/
def TMB_TIME_NS : RegDef := ⟨0x10038, 1, 0x0, 1, 0x0, 1, 0x0, false,
  [TMB_TIME_NS.nanoseconds]⟩

def TMB_STAT.core_restarts : Fld := ⟨0x10040, 0x0, 0x0, 0x0, 0, 16, .rc, 0⟩
def TMB_STAT.wedges : Fld := ⟨0x10040, 0x0, 0x0, 0x0, 16, 16, .rc, 0⟩
def TMB_STAT.thermal_trips : Fld := ⟨0x10040, 0x0, 0x0, 0x0, 32, 16, .rc, 0⟩
def TMB_STAT.warm_resets : Fld := ⟨0x10040, 0x0, 0x0, 0x0, 48, 16, .rc, 0⟩
/-- TMB_STAT (R445). -/
def TMB_STAT : RegDef := ⟨0x10040, 1, 0x0, 1, 0x0, 1, 0x0, false,
  [TMB_STAT.core_restarts, TMB_STAT.wedges, TMB_STAT.thermal_trips, TMB_STAT.warm_resets]⟩

def TMB_ALARM.summary : Fld := ⟨0x10100, 0x8, 0x0, 0x0, 0, 64, .ro, 0⟩
/-- TMB_ALARM (R445). -/
def TMB_ALARM : RegDef := ⟨0x10100, 4, 0x8, 1, 0x0, 1, 0x0, false,
  [TMB_ALARM.summary]⟩

def TMB_EVT_HEAD.head : Fld := ⟨0x10200, 0x8, 0x0, 0x0, 0, 13, .ro, 0⟩
/-- TMB_EVT_HEAD (R445). -/
def TMB_EVT_HEAD : RegDef := ⟨0x10200, 16, 0x8, 1, 0x0, 1, 0x0, false,
  [TMB_EVT_HEAD.head]⟩

def DBG_STATUS.unlocked : Fld := ⟨0xF00000, 0x0, 0x0, 0x0, 0, 1, .ro, 0⟩
def DBG_STATUS.fuse_open : Fld := ⟨0xF00000, 0x0, 0x0, 0x0, 1, 1, .ro, 0⟩
def DBG_STATUS.halted : Fld := ⟨0xF00000, 0x0, 0x0, 0x0, 2, 1, .ro, 0⟩
def DBG_STATUS.step_refused : Fld := ⟨0xF00000, 0x0, 0x0, 0x0, 3, 1, .w1c, 0⟩
def DBG_STATUS.failures : Fld := ⟨0xF00000, 0x0, 0x0, 0x0, 4, 4, .ro, 0⟩
def DBG_STATUS.lockout : Fld := ⟨0xF00000, 0x0, 0x0, 0x0, 8, 7, .ro, 0⟩
/-- DBG_STATUS (R446). -/
def DBG_STATUS : RegDef := ⟨0xF00000, 1, 0x0, 1, 0x0, 1, 0x0, false,
  [DBG_STATUS.unlocked, DBG_STATUS.fuse_open, DBG_STATUS.halted, DBG_STATUS.step_refused, DBG_STATUS.failures, DBG_STATUS.lockout]⟩

def DBG_CTRL.fabric_on_hit : Fld := ⟨0xF00008, 0x0, 0x0, 0x0, 0, 1, .rw, 0⟩
def DBG_CTRL.relock : Fld := ⟨0xF00008, 0x0, 0x0, 0x0, 1, 1, .w1s, 0⟩
/-- DBG_CTRL (R446). -/
def DBG_CTRL : RegDef := ⟨0xF00008, 1, 0x0, 1, 0x0, 1, 0x0, false,
  [DBG_CTRL.fabric_on_hit, DBG_CTRL.relock]⟩

def DBG_HIT.hit : Fld := ⟨0xF00010, 0x0, 0x0, 0x0, 0, 16, .w1c, 0⟩
/-- DBG_HIT (R446). -/
def DBG_HIT : RegDef := ⟨0xF00010, 1, 0x0, 1, 0x0, 1, 0x0, false,
  [DBG_HIT.hit]⟩

def DBG_HIT_INFO.pointer : Fld := ⟨0xF00100, 0x8, 0x0, 0x0, 0, 23, .ro, 0⟩
def DBG_HIT_INFO.island : Fld := ⟨0xF00100, 0x8, 0x0, 0x0, 23, 10, .ro, 0⟩
/-- DBG_HIT_INFO (R446). -/
def DBG_HIT_INFO : RegDef := ⟨0xF00100, 16, 0x8, 1, 0x0, 1, 0x0, false,
  [DBG_HIT_INFO.pointer, DBG_HIT_INFO.island]⟩

/-- The registers of the QD window. -/
def tableQD : List RegDef := [QD_BASE, QD_PROD, QD_CONS, QD_FILL]

/-- The registers of the QFAB window. -/
def tableQFAB : List RegDef := [QFAB_CTRL, QFAB_WAIT_MAX, QFAB_IDLE_WRITES, QFAB_CLASS, QFAB_QUOTA, QFAB_USED, QFAB_TAP_DROPS, QFAB_CONJ_CFG, QFAB_CONJ_ORD, QFAB_CONJ_ORD_HI, QFAB_CONJ_STAT]

/-- The registers of the SPORT window. -/
def tableSPORT : List RegDef := [SPORT_CTRL, SPORT_LANES, SPORT_TIMING, SPORT_STREAM_A, SPORT_STREAM_B, SPORT_STREAM_STAT, SPORT_STREAM_STAT2, SPORT_STAT, SPORT_STAT2, SPORT_CCI_CFG, SPORT_EXP_CFG, SPORT_CCI_CMD, SPORT_CCI_DATA, SPORT_EXP_ENTRY, SPORT_EXP_SLOT]

/-- The registers of the MARN window. -/
def tableMARN : List RegDef := [MARN_CTRL, MARN_STATUS, MARN_ENC, MARN_ENC_CHK, MARN_ZCHK, MARN_XCHK, MARN_XRATIO, MARN_PITCH, MARN_POS, MARN_POS_FRAC, MARN_ORIGIN, MARN_BCAST, MARN_RATE, MARN_BLOCK, MARN_SYNC, MARN_BLOCK_STAT, MARN_NEXT_BOUND, MARN_SEQ_CFG, MARN_SEQ, MARN_STB, MARN_HEAD, MARN_HEAD_MID, MARN_STAT, MARN_STAT2]

/-- The registers of the TILE window. -/
def tableTILE : List RegDef := [TILE_CTRL, TILE_CTRL2, TILE_SCRATCH, TILE_COMMIT, TILE_COMMIT_CTL, TILE_BANK_SEL, TILE_LUT_LOAD, TILE_STATE, TILE_STAT, TILE_STAT2, TILE_STAT3, TILE_P_OPS, TILE_P_BLK, TILE_P_BLK_INIT, TILE_P_DFX, TILE_P_FLT, TILE_P_LUT, TILE_P_CNV, TILE_P_SUM, TILE_P_MIX, TILE_P_MIX2, TILE_P_CLP, TILE_P_PAK, TILE_P_CNV_H, TILE_P_CNV_V, TILE_P_LIN]

/-- The registers of the KAL window. -/
def tableKAL : List RegDef := [KAL_CTRL, KAL_MOSAIC, KAL_SCRATCH, KAL_CELLS, KAL_OUT, KAL_COMMIT, KAL_COMMIT_CTL, KAL_BANK_SEL, KAL_STAT, KAL_STAT2, KAL_P_KERN, KAL_P_PLANE, KAL_P_OFFSETS, KAL_P_SEL, KAL_P_LUMA, KAL_P_XT]

/-- The registers of the PGR window. -/
def tablePGR : List RegDef := [PGR_CTRL, PGR_STREAM_A, PGR_STREAM_B, PGR_ROWS, PGR_SCRATCH, PGR_STAT, PGR_STAT2, PGR_STAT3, PGR_COMMIT, PGR_COMMIT_CTL, PGR_BANK_SEL, PGR_P_MODE, PGR_P_MAP]

/-- The registers of the JIG window. -/
def tableJIG : List RegDef := [JIG_CTRL, JIG_OUT, JIG_EXPORT, JIG_REMOTE, JIG_IN, JIG_SEAM, JIG_STAT, JIG_STAT2, JIG_STAT3, JIG_STATE, JIG_COL_CFG, JIG_COL_STAT, JIG_COL_STAT2, JIG_COL_EXP, JIG_COL_EXP_HI]

/-- The registers of the ABA window. -/
def tableABA : List RegDef := [ABA_CTRL, ABA_CTX, ABA_COLS, ABA_SCREEN, ABA_REF, ABA_TAP, ABA_STAT, ABA_STAT2, ABA_CAND, ABA_TAP_STAT, ABA_ZONE]

/-- The registers of the IMG window. -/
def tableIMG : List RegDef := [IMG_CTRL, IMG_STATUS, IMG_LOAD, IMG_COMMIT_TAG, IMG_CHAIN_MASK, IMG_CHAIN_CFG, IMG_COMMIT_REC, IMG_COMMIT_REC2, IMG_COMMIT_REC3, IMG_COPY, IMG_PART_GEN, IMG_ROLLBACK, IMG_KEYS, IMG_STAT]

/-- The registers of the UPL window. -/
def tableUPL : List RegDef := [UPL_CTRL, UPL_STATUS, UPL_ADDR, UPL_IPV4, UPL_IPV6_HI, UPL_IPV6_LO, UPL_CC, UPL_STAT, UPL_STAT2, UPL_STAT3, UPL_FLOW_A, UPL_FLOW_B, UPL_FLOW_C, UPL_FLOW_D, UPL_KMP]

/-- The registers of the DMA window. -/
def tableDMA : List RegDef := [DMA_CH_CFG, DMA_CH_CTRL, DMA_CH_QP, DMA_CH_U1, DMA_CH_U1KEY, DMA_CH_STAT, DMA_CH_STAT2, DMA_DESC_PUSH]

/-- The registers of the FLK window. -/
def tableFLK : List RegDef := [FLK_CTRL, FLK_LANES, FLK_STATUS, FLK_STAT, FLK_STAT2, FLK_SEAM, FLK_CHAIN, FLK_CHAIN_MAP, FLK_CHAIN_MAP2, FLK_TWIN, FLK_TWIN_MAP, FLK_DUP]

/-- The registers of the TIME window. -/
def tableTIME : List RegDef := [TIME_CTRL, TIME_SERVO, TIME_CFG, TIME_STATUS, TIME_NOW, TIME_NOW_NS, TIME_EPOCH, TIME_OFFSET, TIME_PATH, TIME_RATE, TIME_GM, TIME_ASYM, TIME_STAT, TIME_STAT2]

/-- The registers of the PART window. -/
def tablePART : List RegDef := [PART_CTRL, PART_PORTS, PART_CQ, PART_SHARE, PART_NOTICE_CFG, PART_NOTICE_STAT, PART_NOTICE_STAT2, PART_NOTICE_ACK, PART_KEY_ID, PART_STAT, PART_STAT2, PART_KEY, PART_WATCH, PART_CAUSE, PART_SESSION, PART_GLOBAL]

/-- The registers of the INTG window. -/
def tableINTG : List RegDef := [INTG_CTRL, INTG_EVT_CFG, INTG_SCRUB_STAT, INTG_ECC_LAST, INTG_SPARE, INTG_UND, INTG_TWIN_STAT, INTG_ALARM, INTG_ALARM_MASK, INTG_ALARM_COUNT, INTG_EVT_RING, INTG_EVT_HEAD, INTG_EVT_TAIL, INTG_EVT_STAT]

/-- The registers of the CHK window. -/
def tableCHK : List RegDef := [CHK_CFG, CHK_POLY, CHK_INIT, CHK_XOROUT, CHK_SCAN, CHK_CTRL, CHK_VALUE, CHK_RESULT]

/-- The registers of the CLK window. -/
def tableCLK : List RegDef := [CLK_REF, CLK_FREQ, CLK_MEAS_SEL, CLK_MEAS, CLK_STAT, CLK_BOOT, CLK_TEMP_CFG, CLK_TEMP, CLK_VMON]

/-- The registers of the CAL window. -/
def tableCAL : List RegDef := [CAL_CTRL, CAL_TRIM_SEL, CAL_TRIM, CAL_BLK, CAL_BLK_COUNT, CAL_BLK_SEC]

/-- The registers of the TMB window. -/
def tableTMB : List RegDef := [TMB_ID, TMB_UID, TMB_STATUS, TMB_RESET, TMB_WDOG, TMB_REPEATER, TMB_TIME, TMB_TIME_NS, TMB_STAT, TMB_ALARM, TMB_EVT_HEAD]

/-- The registers of the DBG window. -/
def tableDBG : List RegDef := [DBG_STATUS, DBG_CTRL, DBG_HIT, DBG_HIT_INFO]

/-- A register window of the address map (R470), by the name of its registers. -/
inductive Window where
  | wTMB
  | wPART
  | wSPORT
  | wMARN
  | wTILE
  | wKAL
  | wPGR
  | wJIG
  | wABA
  | wQD
  | wQFAB
  | wDMA
  | wUPL
  | wFLK
  | wTIME
  | wINTG
  | wCHK
  | wCLK
  | wCAL
  | wIMG
  | wDBG
  | wGLB
  | wQMEM
  | wNone
  deriving DecidableEq, Repr

/-- The window in which a bus address lies (R470); GLB holds GLB_ID only. -/
def windowOf (a : Nat) : Window :=
  if a < 8 then .wGLB
  else if 0x10000 ≤ a ∧ a ≤ 0x1027F then .wTMB
  else if 0x20000 ≤ a ∧ a ≤ 0x2400F then .wPART
  else if 0x100000 ≤ a ∧ a ≤ 0x11FFFF then .wSPORT
  else if 0x200000 ≤ a ∧ a ≤ 0x200FFF then .wMARN
  else if 0x300000 ≤ a ∧ a ≤ 0x343FFF then .wTILE
  else if 0x400000 ≤ a ∧ a ≤ 0x41FFFF then .wKAL
  else if 0x480000 ≤ a ∧ a ≤ 0x49FFFF then .wPGR
  else if 0x500000 ≤ a ∧ a ≤ 0x50FFFF then .wJIG
  else if 0x580000 ≤ a ∧ a ≤ 0x5BFFFF then .wABA
  else if 0x600000 ≤ a ∧ a ≤ 0x6FFFFF then .wQD
  else if 0x700000 ≤ a ∧ a ≤ 0x717FFF then .wQFAB
  else if 0x800000 ≤ a ∧ a ≤ 0x813FFF then .wDMA
  else if 0x900000 ≤ a ∧ a ≤ 0x908007 then .wUPL
  else if 0xA00000 ≤ a ∧ a ≤ 0xA0202F then .wFLK
  else if 0xB00000 ≤ a ∧ a ≤ 0xB000CF then .wTIME
  else if 0xC00000 ≤ a ∧ a ≤ 0xC005FF then .wINTG
  else if 0xC80000 ≤ a ∧ a ≤ 0xC80FFF then .wCHK
  else if 0xD00000 ≤ a ∧ a ≤ 0xD002BF then .wCLK
  else if 0xD80000 ≤ a ∧ a ≤ 0xD808BF then .wCAL
  else if 0xE00000 ≤ a ∧ a ≤ 0xE00197 then .wIMG
  else if 0xF00000 ≤ a ∧ a ≤ 0xF0017F then .wDBG
  else if 0x100000000 ≤ a ∧ a ≤ 0x107FFFFFF then .wQMEM
  else .wNone

/-- The register table of a window. -/
def Window.table : Window → List RegDef
  | .wTMB => tableTMB
  | .wPART => tablePART
  | .wSPORT => tableSPORT
  | .wMARN => tableMARN
  | .wTILE => tableTILE
  | .wKAL => tableKAL
  | .wPGR => tablePGR
  | .wJIG => tableJIG
  | .wABA => tableABA
  | .wQD => tableQD
  | .wQFAB => tableQFAB
  | .wDMA => tableDMA
  | .wUPL => tableUPL
  | .wFLK => tableFLK
  | .wTIME => tableTIME
  | .wINTG => tableINTG
  | .wCHK => tableCHK
  | .wCLK => tableCLK
  | .wCAL => tableCAL
  | .wIMG => tableIMG
  | .wDBG => tableDBG
  | .wGLB => []
  | .wQMEM => []
  | .wNone => []

/-- A register found at a key, with its instance indices. -/
structure Hit where
  reg : RegDef
  i : Nat
  j : Nat
  k : Nat
  deriving DecidableEq, Repr

/-- One index of a register: the quotient by the stride, when the register has that index. -/
def splitIdx (off count stride : Nat) : Nat × Nat :=
  if count ≤ 1 then (0, off) else (off / stride, off % stride)

/-- Does the register own the word whose offset from the register's base is `off`? -/
def RegDef.locate (r : RegDef) (a : Nat) : Option Hit :=
  if a < r.base then none
  else
    let x := splitIdx (a - r.base) (if r.banked then r.c2 else 1) r.s2
    let y := splitIdx x.2 r.c0 r.s0
    let z := splitIdx y.2 r.c1 r.s1
    let w := if r.banked then (x.1, z.2) else splitIdx z.2 r.c2 r.s2
    if y.1 < r.c0 ∧ z.1 < r.c1 ∧ w.1 < r.c2 ∧ w.2 = 0 then some ⟨r, y.1, z.1, w.1⟩ else none

/-- The register that owns a key: a bus address, or a bank word's key. -/
def findReg (a : Nat) : Option Hit := (windowOf (a % 2 ^ 40)).table.findSome? (fun r => r.locate a)

/-- Part of a reset word that depends on the instance (R80 quota, R172 serving, R375 enable, R111 lanes, R456 limits). -/
def vmonLimits (i : Nat) : Nat :=
  let v := if i < 8 then (720, 780) else if i < 12 then (768, 832) else if i < 16 then (864, 936)
    else if i < 20 then (1152, 1248) else if i < 22 then (1692, 1908) else if i = 22 then (3102, 3498) else (768, 832)
  v.1 * 2 ^ 12 + v.2 * 2 ^ 24

/-- The instance-dependent part of a reset word. -/
def resetExtra (base i : Nat) : Nat :=
  if base = QFAB_QUOTA.base then (if i = 0 then 8388608 else 0)
  else if base = TILE_STATE.base then i * 4
  else if base = PART_CTRL.base then (if i = 0 then 1 else 0)
  else if base = SPORT_LANES.base then 1 * 2 ^ 3 + 2 * 2 ^ 6 + 3 * 2 ^ 9
  else if base = CLK_VMON.base then vmonLimits i
  else 0

/-- The constant part of a register's reset word. -/
def RegDef.resetConst (r : RegDef) : Nat := r.fields.foldl (fun n f => n + f.reset * 2 ^ f.lo) 0

/-- The value of the word at a key after a device cold reset (R9); zero where no register is. -/
def resetWord (a : Nat) : Word :=
  match findReg a with
  | none => 0
  | some h => BitVec.ofNat 64 (h.reg.resetConst + resetExtra h.reg.base h.i)

end Sys2Proof.Reg
end

