-- ==== Sys2Proof/Machine/State.lean ====
section
/-! DEFINITION. The whole state of one KP-7232, as plain data: the register words, queue memory, and the dynamic record
of every queue, unit, port, link and partition; the fuses; and the queue of waiting commands. -/

namespace Sys2Proof.Machine

/-- A register file: the listed words that differ from their reset words. -/
abbrev RegFile := List (Nat × Word)

/-- Blemish flags of data: suspect and synthetic (R43). -/
structure Blemish where
  sus : Bool
  syn : Bool
  deriving DecidableEq, Repr

/-- The stored errors of a slot's SEC-DED code (R43, R46). -/
inductive SlotErr where
  | clean
  | single
  | double
  deriving DecidableEq, Repr

/-- What a queue still drops of its producer's grains (R65, R66). -/
inductive Dropping where
  | nothing
  | line
  | block
  deriving DecidableEq, Repr

/-- Where a consumer stands in the stream grammar (R51). `skipIn` and `skipOut` discard up to the grain of resumption. -/
inductive GramPos where
  | outside
  | block
  | afterColon (tag : Grain)
  | inLine (tag : Grain)
  | skipIn
  | skipOut
  deriving DecidableEq, Repr

/-- A unit that counts the lines which it commits to its output queue: a pixel tile, a stream of a resampler, a Jigsaw unit. -/
inductive Tally where
  | tile (t : Nat)
  | pgr (u st : Nat)
  | jig (j : Nat)
  deriving DecidableEq, Repr

/-- What a writer still owes while grains of it wait in a queue's crossing: the release of an input queue once every output has room (with
whether a block ended there); the count of the lines that commit as the grains are written; or the count of one aligned set of a
Kaleidoscope unit, once it has committed to every output queue. -/
inductive Debt where
  | release (q : Nat) (closes : Bool) (outs : List Nat)
  | lines (who : Tally)
  | set (unit : Nat) (outs : List Nat)
  deriving DecidableEq, Repr

/-- The dynamic part of a queue beside its pointers: grains held in the producer's crossing (R58), the tap's copy
buffer (R237), dropping, the tag of the uncommitted line, the commit instants of unreleased items (R77), the
consumer's grammar position and the position saved by mark; of a tap queue, the tap's grammar position in its source (R51); what its
writer owes until the held grains are written (R170, R227); and the line in progress of a digested queue that is not in line-commit mode,
with the pointer of its colon (R388). -/
structure QRec where
  held : List Cell
  copyBuf : List Cell
  dropping : Dropping
  openTag : Option Grain
  lastBlock : Nat
  commits : List (Nat × Nat)
  gram : GramPos
  gramMark : GramPos
  tapGram : GramPos
  owed : List Debt
  lineAt : Nat
  lineCells : List Cell
  deriving DecidableEq, Repr

/-- A queue before its first grain. -/
def QRec.init : QRec := ⟨[], [], .nothing, none, 0, [], .outside, .outside, .outside, [], 0, []⟩

/-- A request standing at a bank (R69, R70): its class (0 queue port, 1 table, 2 DMA, 3 maintenance), its row in the bank, partition,
level, the fc it has waited and its age. -/
structure BankWait where
  cls : Fin 4
  row : Nat
  part : Nat
  level : Nat
  waited : Nat
  age : Nat
  deriving DecidableEq, Repr

/-- One direction of a bank: class buffers and further held requests, oldest first, and the last urgent station served. -/
structure BankRec where
  waiting : List BankWait
  lastUrgent : Fin 4
  deriving DecidableEq, Repr

/-- A bank before its first request. DESIGN CHOICE (log entry 89): the round robin of urgent stations starts as if station 3 had been
served last, so at station 0; R70 names no start. -/
def BankRec.init : BankRec := ⟨[], 3⟩

/-- An event source (R395): tokens, the instant of the last refill, records withheld and the last withheld code. -/
structure EvtSrc where
  spent : Nat
  refilledAt : Nat
  suppressed : Nat
  lastCode : Nat
  deriving DecidableEq, Repr

/-- A source whose bucket is full. -/
def EvtSrc.init : EvtSrc := ⟨0, 0, 0, 0⟩

/-- A notice of a partition (R355–R358). -/
structure Notice where
  id : Nat
  cause : Nat
  sev : Nat
  count : Nat
  bracket : Grain
  seconds : Nat
  epoch : Nat
  detail : BitVec 64
  created : Nat
  sentAt : Option Nat
  deriving DecidableEq, Repr

/-- A run of ended lines that the completion writer has open (R363). -/
structure Run where
  queue : Nat
  firstTag : Grain
  lastIdx : Nat
  count : Nat
  status : Nat
  cause : Nat
  deriving DecidableEq, Repr

/-- A completion record waiting to be written: the colon tag, or none for a record that takes the tag of R366, and CR0 to CR3. -/
structure CompRec where
  tag : Option Grain
  cr0 : Grain
  cr1 : Grain
  cr2 : Grain
  cr3 : Grain
  deriving DecidableEq, Repr

/-- The dynamic part of a partition: events, notices, completion writer; the cause and the instant of a drain or abort in progress, the
block from which its ports write after a restart (R372), the session record and notice, and the instant of an abort by TMB_RESET. -/
structure PartRec where
  evtSeq : Nat
  pushed : List (List Grain)
  pushSince : Nat
  noticeNext : Nat
  notices : List Notice
  overflow : List Nat
  overNote : Option Notice
  lastSend : List (Nat × Nat)
  sendSpent : Nat
  sendRefill : Nat
  runs : List Run
  buffer : List CompRec
  stalled : Bool
  cqBlock : Option Nat
  cause : Nat
  since : Nat
  restartAt : Option Nat
  sessionDue : Bool
  sessionNoted : Bool
  tmbSince : Option Nat
  deriving DecidableEq, Repr

/-- A partition at reset. -/
def PartRec.init : PartRec :=
  ⟨0, [], 0, 1, [], [0, 0, 0, 0], none, [], 0, 0, [], [], false, none, 0, 0, none, true, false, none⟩

/-- The timebase (R331): its value in 2^-32 ns at the instant `ref`; the scale before a step, the boundary up to which brackets still
use it and the instant of the step (R345); whether any timestamp has been issued since the last cold reset (R342); and, latest first, the
instants, values and rates (2^-8 ppb) from which it counted before. -/
structure TimeBase where
  ref : Nat
  value : Nat
  oldShift : Int
  oldBelow : Option Nat
  issued : Bool
  stepAt : Nat
  past : List (Nat × Nat × Int)
  deriving DecidableEq, Repr

/-- The timebase after a cold reset. -/
def TimeBase.init : TimeBase := ⟨0, 0, 0, none, false, 0, []⟩

/-- A conjunction or collector (R75–R79, R231–R233): the pilcrow of the open block; the inputs that have opened and
ended it; the inputs still delivering a closed block (R232); the round in progress, the ordinals taken in it, the next
place, and the instant of its first commit; the last closed round and block; the last exposure generation per ordinal; how many runs of the
grid (R478) it has met, and per input the last block that it delivered with the number of that run. -/
structure MergeRec where
  pil : Option Grain
  opened : List Nat
  ended : List Nat
  lagging : List Nat
  round : Option Nat
  lastRound : Option Nat
  place : Nat
  taken : List Nat
  since : Option Nat
  gens : List (Nat × Nat)
  closed : Option Nat
  forced : Bool
  run : Nat
  lasts : List (Nat × Nat × Nat)
  deriving DecidableEq, Repr

/-- A merge node before its first item. -/
def MergeRec.init : MergeRec := ⟨none, [], [], [], none, none, 0, [], none, [], none, false, 0, []⟩

/-- A breakpoint (R441). -/
structure BreakRec where
  armed : Bool
  onRead : Bool
  queue : Nat
  code : Nat
  codeAny : Bool
  value : Grain
  mask : Grain
  deriving DecidableEq, Repr

/-- A breakpoint that is not armed. -/
def BreakRec.init : BreakRec := ⟨false, false, 0, 0, false, 0, 0⟩

/-- A digest entry of R389, with the instant it was made and, for an own entry, its queue and the pointer of its colon until that has been
read (R391). -/
structure Digest where
  index : Nat
  ordinal : Nat
  touched : Bool
  ellipsis : Bool
  halfSeam : Bool
  digest : Nat
  at_ : Nat
  queue : Nat
  colonPtr : Option Nat
  deriving DecidableEq, Repr

/-- Twin traffic (R329, R388–R391): own and received entries not yet matched, own entries not yet sent, the last
sending and the last hearing. -/
structure TwinRec where
  own : List Digest
  unsent : List Digest
  theirs : List Digest
  sentAt : Nat
  heardAt : Nat
  deriving DecidableEq, Repr

/-- No twin traffic yet. -/
def TwinRec.init : TwinRec := ⟨[], [], [], 0, 0⟩

/-- A descriptor of R299. -/
structure Desc where
  srcQ : Nat
  dst : Nat
  barrier : Bool
  half : Bool
  full : Bool
  chain : Bool
  length : Nat
  addr : Nat
  rkey : Nat
  imm : Nat
  tag : Nat
  bad : Bool
  deriving DecidableEq, Repr

/-- A line record assembled (R287): its bytes, the grain of its tag, whether it is a line (or an ellipsis), its source queue, its number
among the records of the channel, and whether its line ends a block. -/
structure LineRec where
  bytes : List Byte
  tag : Grain
  line : Bool
  srcQ : Nat
  id : Nat
  ends : Bool
  deriving DecidableEq, Repr

/-- Grains read from a source queue and not yet released (R282): the number of their line (0 for punctuation), the queue,
the pointer after them, and whether they may be released. -/
structure Owed where
  id : Nat
  q : Nat
  upTo : Nat
  settled : Bool
  deriving DecidableEq, Repr

/-- A descriptor started (R300–R306): its number, whether the descriptor before it has barrier set, the offset of the next record, the bytes and lines so far, the grid indices of its first
and last line, their exposure generations, its records with the queue pairs that have acknowledged each (by bit), the
queue pairs in service throughout, whether one was lost, how many records reach half the buffer, the queue pairs that
have sent their half notice, whether it is complete, whether the channel works on it, a last record kept back for the full notice,
whether that notice has been sent, and its end: status, cause, counts_valid. -/
structure DescRun where
  d : Desc
  seq : Nat
  fenced : Bool
  offset : Nat
  written : Nat
  lines : Nat
  first : Option Nat
  last : Option Nat
  gens : List Nat
  recs : List (Nat × Nat)
  stayed : Nat
  mirrorLost : Bool
  halfAt : Option Nat
  halfSent : Nat
  complete : Bool
  running : Bool
  held : Option (Nat × LineRec)
  noted : Bool
  ended : Option (Nat × Nat × Bool)
  deriving DecidableEq, Repr

/-- A write in a queue pair's backlog store (R282): its descriptor, the record's number (0 for a notice of its own), the remote
address and key, the bytes, the immediate, and whether all writes before it must be acknowledged first (R303). -/
structure Backlog where
  desc : Nat
  id : Nat
  addr : Nat
  rkey : Nat
  bytes : List Byte
  imm : Option Nat
  fence : Bool
  deriving DecidableEq, Repr

/-- A queue pair (R282, R284, R285): in service; dropped and not yet back; the backlog, oldest write first; how many packets of the
oldest write are acknowledged; the oldest PSN not acknowledged; how many packets from it on have been sent, and which
one is sent next; retransmissions without progress; the instant from which the retry timeout runs; and the send rate in
Mbit/s, none for the line rate (R281), with the last cut, the instant from which recovery runs, and when the next packet may leave. -/
structure QpRec where
  inService : Bool
  dropped : Bool
  backlog : List Backlog
  acked : Nat
  una : Nat
  sent : Nat
  next : Nat
  retries : Nat
  progressAt : Nat
  rate : Option Nat
  cutAt : Option Nat
  recoverAt : Nat
  sendAt : Nat
  startPsn : Nat
  deriving DecidableEq, Repr

/-- A queue pair in RESET. -/
def QpRec.init : QpRec := ⟨false, false, [], 0, 0, 0, 0, 0, 0, none, none, 0, 0, 0⟩

/-- A DMA channel (R298–R307): the words pushed, the descriptors started, oldest first, the line that opens the next
descriptor, the source queue in use, the pilcrow last read of each source queue, an episode of starvation, whether the next
descriptor follows without a test, whether the latest one has barrier set, the next descriptor and line numbers, grains read and not released, its queue pairs, and descriptors that have ended DONE
while a queue pair of theirs has not yet acknowledged up to its half notice (R302). -/
structure ChanRec where
  words : List Nat
  started : List DescRun
  spill : Option LineRec
  srcQ : Option Nat
  pils : List (Nat × Grain)
  starved : Bool
  chained : Bool
  barrier : Bool
  descSeq : Nat
  lineId : Nat
  owed : List Owed
  qp0 : QpRec
  qp1 : QpRec
  lagged : List DescRun
  deriving DecidableEq, Repr

/-- A channel before its first descriptor. -/
def ChanRec.init : ChanRec := ⟨[0, 0, 0, 0], [], none, none, [], false, false, false, 0, 1, [], .init, .init, []⟩

/-- The headers of a frame below its transport (R277, R278, R281): MAC addresses, the 802.1Q tag (priority, VLAN ID) where one is sent,
the IP version, addresses, DF, TTL or hop limit, DSCP and ECN (2 = ECT(0)), and UDP ports. -/
structure FrameHead where
  dstMac : Nat
  srcMac : Nat
  vlan : Option (Nat × Nat)
  v6 : Bool
  src : Nat
  dst : Nat
  noFragment : Bool
  hops : Nat
  dscp : Nat
  ecn : Nat
  srcPort : Nat
  dstPort : Nat
  deriving DecidableEq, Repr

/-- A RoCE packet as it leaves an uplink (R284): the frame's headers, the remote queue pair, channel, PSN, the kind of RDMA WRITE packet,
remote address and key where it opens a write, the immediate, its payload, and whether its FCS is inverted (R377). -/
structure RocePkt where
  head : FrameHead
  destQpn : Nat
  chan : Nat
  psn : Nat
  first : Bool
  last : Bool
  addr : Nat
  rkey : Nat
  imm : Option Nat
  payload : List Byte
  badFcs : Bool
  deriving DecidableEq, Repr

/-- An answer to an ARP request or a neighbour solicitation (R277): the address asked for, this uplink's MAC address, and where it goes. -/
structure AddrReply where
  v6 : Bool
  target : Nat
  mac : Nat
  toMac : Nat
  toIp : Nat
  deriving DecidableEq, Repr

/-- An uplink (R279–R281, R352): the entry of its link state, the end of the wait after a timeout, the deficit of each partition, the
partition visited next, the channel served last of each partition and priority, the instants since which priorities are paused,
the ones whose episode has been reported, the last KMP message sent with its headers, the last address reply, the RoCE packets of the last
visit, in order, the last PTP message sent, and the KMP messages that a pause of their priority holds back, oldest first. -/
structure UplRec where
  since : Nat
  waitUntil : Option Nat
  deficits : List (Nat × Nat)
  nextPart : Nat
  turns : List (Nat × Nat)
  pausedAt : List (Nat × Nat)
  stuck : List Nat
  kmpOut : Option KmpMsg
  kmpHead : Option FrameHead
  reply : Option AddrReply
  packets : List RocePkt
  ptpOut : Option (PtpKind × PtpMsg)
  kmpHeld : List (KmpMsg × FrameHead)
  deriving DecidableEq, Repr

/-- An uplink before its first signal. -/
def UplRec.init : UplRec := ⟨0, none, [], 0, [], [], [], none, none, none, [], none, []⟩

/-- A trigger record of a stream (R94): grid index, context, exposure generation, pin instant, midpoint instant, lines
received, the arrival of the last one, and, for one of an earlier run of the grid, whether its brackets are on the old scale (R345). -/
structure TrigRec where
  index : Nat
  ctx : Nat
  gen : Nat
  pinAt : Nat
  midAt : Nat
  received : Nat
  lastAt : Nat
  oldScale : Option Bool
  deriving DecidableEq, Repr

/-- A stream of a port: open trigger records, oldest first; complete ones still known (R96); grains waiting for the output
queue, the port's own marked true (R481); how many boundaries it has written; whether a block is open, and its start. -/
structure StreamRec where
  recs : List TrigRec
  done : List TrigRec
  store : List (Cell × Bool)
  boundsDone : Nat
  opened : Bool
  startIdx : Nat
  deriving DecidableEq, Repr

/-- A stream before its first trigger. -/
def StreamRec.init : StreamRec := ⟨[], [], [], 0, false, 0⟩

/-- A port: virtual channels inside FS…FE with the instant of FS (R97), whether the link has started and been deskewed
(R88), and a stop whose block end is still to be written. -/
structure PortRec where
  frames : List (Nat × Nat)
  deskewed : Bool
  stopPending : Bool
  deriving DecidableEq, Repr

/-- A port whose link has just started. -/
def PortRec.init : PortRec := ⟨[], false, false⟩

/-- A staged exposure set (R105–R110): the phase shown in status, the next transaction of its plan, whether its gate has
opened, when its last transaction ended, the cause for which it ends once its current transaction is over, and since when it waits
for an abandoned bus (R102). -/
structure ExpRec where
  phase : Nat
  next : Nat
  gateOpen : Bool
  lastEnd : Option Nat
  ending : Option Nat
  due : Option Nat
  deriving DecidableEq, Repr

/-- An empty slot. -/
def ExpRec.init : ExpRec := ⟨0, 0, false, none, none, none⟩

/-- What occupies a control bus (R102, R104): nothing, a direct command, a transaction of a set, or a transaction
abandoned and waiting for its STOP since an instant. -/
inductive CciJob where
  | idle
  | direct
  | set (slot : Nat)
  | abandoned (since : Nat)
  deriving DecidableEq, Repr

/-- A CCI master (R102–R110): its bus, a waiting direct command, a listener waiting to become active since an instant, the
last bus activity, the four slots, and the triggers still to count before each generation advance; `ghosts` are the
ends of latch writes of sets that ended ABORTED after them, `directDue` the instant since which a direct command waits for an abandoned
bus (R102), `lastTrig` the grid index of the head's last trigger in this run of the grid (R106), and `sent` the transaction that the
master put on the bus last, with the device address it went to (R102, R111). -/
structure CciRec where
  job : CciJob
  directWaiting : Bool
  activeWait : Option Nat
  lastBusy : Nat
  slots : List ExpRec
  genDue : List Nat
  ghosts : List Nat
  directDue : Option Nat
  lastTrig : Option Nat
  sent : Option (Nat × CciTrans)
  deriving DecidableEq, Repr

/-- An idle master. -/
def CciRec.init : CciRec := ⟨.idle, false, none, 0, [.init, .init, .init, .init], [], [], none, none, none⟩

/-- A block boundary (R131): grid index, block number, cause, whether an edge moved it (R133), and the epoch in force when it
was reached. -/
structure Bound where
  index : Nat
  block : Nat
  cause : Nat
  moved : Bool
  epoch : Option Nat
  deriving DecidableEq, Repr

/-- An encoder (R112–R116): accepted levels, the decoded count, the instants of the last edge and the last forward edge
with the count there,
the edges of the speed window, the failed flag, the count at the last Z edge, the window of ENC_ACCEL with the count
of the window before, the instant from which ENC_STALL is measured, the instant from which the last one reported was, and the edges
accepted on A and on B since the encoder was enabled, up to 64 of each (R413). -/
structure EncRec where
  a : Bool
  b : Bool
  count : Int
  edgeAt : Nat
  forwardAt : Nat
  forwardCount : Int
  history : List (Nat × Int)
  failed : Bool
  zCount : Option Int
  winAt : Nat
  winCount : Int
  winPrev : Option Int
  stallFrom : Nat
  stalledFrom : Option Nat
  edgesA : Nat
  edgesB : Nat
  deriving DecidableEq, Repr

/-- An encoder before its first edge. -/
def EncRec.init : EncRec := ⟨false, false, 0, 0, 0, 0, [], false, none, 0, 0, none, 0, none, 0, 0⟩

/-- An applied sample (R119): position in 2^-32 counts, speed in s8.24, t_k in 2^-32 ns. -/
structure Model where
  p : Int
  v : Int
  tk : Nat
  seq : Nat
  deriving DecidableEq, Repr

/-- A trigger output (R126–R128): the lowest grid index not yet handled, the last pulse, the pulse's end, midpoints to
capture, and captured midpoints (grid index, u32.32 counts), latest first, and the exposure generation of the last trigger. -/
structure HeadRec where
  next : Nat
  pulseAt : Option Nat
  pulseEnd : Option Nat
  midDue : List (Nat × Nat)
  mids : List (Nat × Nat)
  lastGen : Option Nat
  deriving DecidableEq, Repr

/-- A trigger output before its first pulse. -/
def HeadRec.init : HeadRec := ⟨0, none, none, [], [], none⟩

/-- A strobe output (R130): the lowest grid index not yet handled and the end of the pulse in progress. -/
structure StrobeRec where
  next : Nat
  activeUntil : Option Nat
  deriving DecidableEq, Repr

/-- A strobe output before its first pulse. -/
def StrobeRec.init : StrobeRec := ⟨0, none⟩

/-- Marionette (R117–R136, R477, R478): levels of the SYNC pins, the assertion of the running indication, the sequence and
timebase instant of the last sample taken, samples waiting to be applied, the model, the last application, the entry into
holdover, whether it is the root's own, whether triggers fire, the first untriggered index of a stop under R121 and the
block open then, the stops of this grid (block, first untriggered index, instant; latest first), whether the grid runs at the root and in this device, its boundaries in order (reached ones carry their
epoch), an anchor still to be found, a restart that waits for the stop (R115) or for its anchor, the rate generator (exact
count in 2^-56 / 1000, instant, rate, the rates written and when), the switch to the secondary encoder, the references of the
cross-check, claims of the next boundary to be placed by an image commit or a re-step, the origin of the grid (R123), the models
applied before with their instants, latest first (R132), how many reached boundaries belong to earlier runs (R478), the grid index
of the boundary at which triggers are to begin while it is not reached (R477), whether the root has announced boundary 0 of this run
(R118), an anchor found while the grid of the run before still stands (R478), and whether the 100 µs of the root's holdover are over
(R121), and the instant at which this run of the grid began (R478). -/
structure MarnRec where
  synA : Bool
  synB : Bool
  runningAt : Option Nat
  seq : Nat
  takenAt : Option Nat
  waiting : List PosSample
  model : Option Model
  appliedAt : Nat
  holdAt : Option Nat
  selfHold : Bool
  triggering : Bool
  stopped : Option (Nat × Nat)
  halts : List (Nat × Nat × Nat)
  rootGrid : Bool
  gridOn : Bool
  seen : Bool
  bounds : List Bound
  anchoring : Bool
  restartWaits : Bool
  reanchor : Bool
  genNum : Int
  genAt : Nat
  genRate : Nat
  rateNext : List (Nat × Nat)
  secondary : Bool
  secOffset : Int
  xRefP : Int
  xRefS : Int
  claimCommit : Bool
  claimRestep : Bool
  origin : Int
  past : List (Nat × Model)
  runFrom : Nat
  startsAt : Option Nat
  announced : Bool
  anchored : Option Int
  holdOver : Bool
  runSince : Nat
  deriving DecidableEq, Repr

/-- Marionette before its first sample. -/
def MarnRec.init : MarnRec :=
  { synA := false, synB := false, runningAt := none, seq := 0, takenAt := none, waiting := [], model := none, appliedAt := 0
    holdAt := none, selfHold := false, triggering := false, stopped := none, halts := [], rootGrid := false, gridOn := false, seen := false
    bounds := [], anchoring := false, restartWaits := false, reanchor := false, genNum := 0, genAt := 0, genRate := 0
    rateNext := [], secondary := false, secOffset := 0, xRefP := 0, xRefS := 0, claimCommit := false, claimRestep := false
    origin := 0, past := [], runFrom := 0, startsAt := none, announced := false, anchored := none, holdOver := false, runSince := 0 }

/-- What a flank data frame carries (R311, R313): a ring message, a time-channel message with the
timestamp of its arrival (none for a message of this device's own), a seam line, or nothing any more. -/
inductive FlkLoad where
  | ring (m : RingMsg)
  | time (f : TimeFrame) (ingress : Option Int)
  | seam (k : Nat) (cells : List Cell)
  | lost
  deriving DecidableEq, Repr

/-- A flank frame (R311): the fields of its header, and its grains. -/
structure FlkFrame where
  channel : Nat
  seq : Nat
  ackSeq : Nat
  ackValid : Bool
  type : Nat
  seam : Nat
  grains : List Cell
  deriving DecidableEq, Repr

/-- A flank link (R311, R312, R318–R321): loads waiting for a frame, data frames sent and not acknowledged with their
sequence numbers, the next sequence number to send and to accept, whether the NAK of a gap has been sent, an
acknowledgement still to be sent, retransmissions of the oldest frame and the instant from which ack_timeout runs; the
entry instant of the training state, the end of a wait in DOWN, the rate in trial and the lowest common one, the lanes
found inverted and the lane map of this attempt, and the instants of the frames that failed their CRC in the last ms;
whether a data frame has been accepted in this RUN, the frame sent last, the rates that the partner's training headers allow (R318), and the
seam streams whose copy in arrival is dropped (R317). -/
structure FlkRec where
  waiting : List FlkLoad
  unacked : List (Nat × FlkLoad)
  txSeq : Nat
  rxSeq : Nat
  nakSent : Bool
  ackDue : Option Nat
  retries : Nat
  sentAt : Nat
  since : Nat
  waitUntil : Option Nat
  rate : Nat
  lowest : Nat
  inverted : Nat
  laneMap : Nat
  fails : List Nat
  accepted : Bool
  sent : Option FlkFrame
  partner : Option (Nat × Nat)
  dropped : List Nat
  deriving DecidableEq, Repr

/-- A link before its first training. -/
def FlkRec.init : FlkRec := ⟨[], [], 0, 0, false, none, 0, 0, 0, none, 0, 0, 0, 0, [], false, none, none, []⟩

/-- The chain (R313–R315, R325–R329): the next msg_id of each channel, the first copies kept with their arrival instants,
the last presence heard from each position, the instants of the last own presence, join and twin-state messages, whether a
position was taken in this enumeration, the sticky position (minus 1), the instant since which both links are settled, if they are (R326), and whether the chain is too long
for apply_delay, which write began the enumeration that runs, renumber or force_renumber (true), the messages of its own that a device without a
position has sent (R314), and at the root the positions assigned in the row (R327). -/
structure ChainRec where
  ids : List (Nat × Nat)
  copies : List (RingMsg × Nat)
  heard : List (Nat × Nat)
  presenceAt : Nat
  joinAt : Nat
  beaconAt : Nat
  took : Bool
  sticky : Option Nat
  settledAt : Option Nat
  tooLong : Bool
  asked : Option Bool
  own : List (RingMsg × Nat)
  reserved : Nat
  deriving DecidableEq, Repr

/-- A chain of which nothing is known. -/
def ChainRec.init : ChainRec := ⟨[], [], [], 0, 0, 0, false, none, none, false, none, [], 0⟩

/-- The clock of an island (R407–R410): on the haven clock, kept there, failed attempts, and the start of the attempt. -/
structure PllRec where
  onHaven : Bool
  stuck : Bool
  fails : Nat
  since : Option Nat
  deriving DecidableEq, Repr

/-- An island at power-up: on the haven clock. -/
def PllRec.init : PllRec := ⟨true, false, 0, none⟩

/-- A calibration block (R413–R416): the start of its run's phase, its last start, its trim codes and the codes that they
step to, a refresh of skew trims in progress (R88), the sensor's reading at the last SUCCESS and the last start made
because a precondition was met. -/
structure CalRec where
  since : Nat
  startedAt : Option Nat
  codes : List Int
  targets : List Int
  refresh : Bool
  lastTemp : Option Int
  preStart : Option Nat
  deriving DecidableEq, Repr

/-- A block that has not run. -/
def CalRec.init : CalRec := ⟨0, none, [], [], false, none, none⟩

/-- Why the rest of the device is held in warm reset (R406, R431, R434). -/
inductive Hold where
  | free
  | reference
  | thermal
  | forever
  | selftest
  deriving DecidableEq, Repr

/-- Clocks, sensors and start-up (R405–R412, R422): the entry of the start-up state, the hold, a reference loss not
bridged, the last 16 samples of each sensor (latest first), sensors above temp_warn and temp_crit, the samples running
against each rail's state, the measurement in progress, the islands of a commit still to move, whether VSER is in range, the
start of a warm flush, the logical tiles that no understudy serves (R384), whether the RESET pin has been released since the cold reset, and
whether the timebase counts on the backup oscillator for want of a reference (R406), the instant of the last temperature sample, and the values
that each sensor has read over the last second, each with the last instant at which it read it, latest first (R413). -/
structure StartRec where
  at_ : Nat
  hold : Hold
  refLost : Option Nat
  temps : List (List Int)
  warm : List Nat
  hot : List Nat
  rails : List (Nat × Nat)
  measuring : Option Nat
  moving : List Nat
  vser : Bool
  flushFrom : Option Nat
  unserved : List Nat
  released : Bool
  backup : Bool
  tempAt : Option Nat
  seen : List (List (Nat × Int))
  deriving DecidableEq, Repr

/-- Start-up before power. -/
def StartRec.init : StartRec := ⟨0, .free, none, [], [], [], [], none, [], false, none, [], false, false, none, []⟩

/-- The Tumbler (R428–R431): the last report of each core, the instants of the last restarts, the last heartbeat, and
the instants of the thermal trips. -/
structure TumblerRec where
  reports : List (Nat × Nat)
  restarts : List Nat
  heartbeat : Nat
  trips : List Nat
  deriving DecidableEq, Repr

/-- The Tumbler after a cold reset. -/
def TumblerRec.init : TumblerRec := ⟨[], [], 0, []⟩

/-- The latest Sync of a PTP port (R340): sequence, t1, t2, correction, whether its Follow_Up is still awaited, whether a measurement
has used it, and the origin timestamp of the same master's previous Sync. -/
structure SyncRec where
  master : BitVec 64
  seq : Nat
  t1 : Int
  t2 : Int
  corr : Int
  waits : Bool
  used : Bool
  prevT1 : Option Int
  deriving DecidableEq, Repr

/-- A master heard on a port (R335): its quality, its clock, the last Announce, the Announce interval in ps, the transport that brings it,
and the Announce before. -/
structure Master where
  quality : GmQuality
  clock : BitVec 64
  heardAt : Nat
  interval : Nat
  transport : Fin 3
  before : Option Nat
  deriving DecidableEq, Repr

/-- A Delay_Req sent (R340): its port, sequence, and t3 once it has left. -/
structure DelayRec where
  port : Nat
  seq : Nat
  t3 : Option Int
  deriving DecidableEq, Repr

/-- The time servo (R334–R345), in 2^-16 ns: masters per uplink, the latest Sync per port (0, 1 uplinks, 2 chain) and the
instants of its Syncs, the Delay_Req in flight, the path delay, the offset estimate with its instant, the last 64 accepted
residuals, the measurements of ACQUIRE, the sum of accepted offsets, the run of outliers or measurements that a jump is
judged on, accepted offsets within step_threshold in HOLDOVER, a jump counted in this HOLDOVER, Syncs heard per link with hop
counts, residence times of two-step Syncs, the boundary claimed for a re-step, a first step that waits for a boundary, whether the next
measurement in HOLDOVER sets the estimate, that boundary, the instant of the last accepted measurement, the masters heard per uplink, the
Delay_Req interval that each port's master asks for (R334), the port and instant of the last Delay_Req, and at the root the devices of the row
that have asked through it (R337). -/
structure TimeRec where
  masters : List (Nat × Master)
  syncs : List (Nat × SyncRec)
  rateAt : List (Nat × Nat)
  req : Option DelayRec
  reqSeq : Nat
  path : Option Int
  est : Option (Int × Nat)
  residuals : List Int
  acq : List (Int × Nat)
  integral : Int
  run : List Int
  good : Nat
  jumped : Bool
  hops : List (Nat × Nat × Nat)
  residence : List (Nat × BitVec 64 × Nat × Int)
  claim : Option Nat
  first : Option (Int × Int)
  anew : Bool
  firstAt : Option Nat
  acceptedAt : Nat
  heard : List (Nat × Master)
  delayLog : List (Nat × Int)
  reqAt : Option (Nat × Nat)
  askers : List (BitVec 64)
  deriving DecidableEq, Repr

/-- The servo before any source. -/
def TimeRec.init : TimeRec := ⟨[], [], [], none, 0, none, none, [], [], 0, [], 0, false, [], [], none, none, false, none, 0, [], [], none, []⟩

/-- A line inside a unit: its colon and bracket grains, its position in its trigger group, its samples, the CLP flag of each
sample (R159), and the blemish flags of each of its grains. -/
structure ULine where
  colon : Cell
  bracket : Cell
  pos : Nat
  xs : List Int
  sat : List Bool
  blem : List Blemish
  deriving DecidableEq, Repr

/-- A line of a CNV window or a held line (R152, R156): its colon or ellipsis, the line if present, whether it has been emitted, and the first
slot of its copy in scratch (R164). -/
structure CnvEntry where
  head : Cell
  line : Option ULine
  emitted : Bool
  slot : Option Nat
  deriving DecidableEq, Repr

/-- A SUM group (R154, R155): the colon or ellipsis of its first expected line, lines so far, lines present, line flags, the
first present line with the exact sums as samples, and the first slot of the current copy of these in scratch (R164). -/
structure SumGroup where
  first : Cell
  pos : Nat
  count : Nat
  present : Nat
  flags : Nat
  total : Option ULine
  slot : Option Nat
  deriving DecidableEq, Repr

/-- A pixel tile (R138–R171): LUT pages with the flags of the table grains they came from, the error states of page grains by 1024 × page
+ grain (R169), the source and page of a load in progress, the trigger-group position reached per source
ordinal (grid index, next position), pixel lists whose order error is reported, CNV windows and SUM groups by 128 × context +
ordinal, how many lines CNV has put into the scratch part of each context, held lines of MIX by context, the block open on in_q and on y_q and the last one ended there, a replay that
waits (failures and understudy), the understudy that last replayed for it; as a physical tile, the instants of its
mismatches and whether the want of an understudy has been reported. -/
structure TileRec where
  pages : List (Nat × List (Grain × Blemish))
  pageErrs : List (Nat × SlotErr)
  loading : Option (Nat × Nat)
  places : List (Nat × Nat × Nat)
  disordered : List Nat
  windows : List (Nat × List CnvEntry)
  groups : List (Nat × SumGroup)
  kept : List (Nat × Nat)
  heldLines : List (Nat × CnvEntry)
  block : Option Nat
  yBlock : Option Nat
  yEnded : Option Nat
  replay : Option (Nat × Option Nat)
  lastUnd : Option Nat
  mismatches : List Nat
  noUnd : Bool
  deriving DecidableEq, Repr

/-- A tile before its first line. -/
def TileRec.init : TileRec := ⟨[], [], none, [], [], [], [], [], [], none, none, none, none, none, [], false⟩

/-- One line or ellipsis of a trigger group in a scratch ring: its colon or ellipsis, the line if present, whether its item has ended
or goes on in an output line (R175), and the slot of its colon in the ring (R188, R209). -/
structure RingRow where
  head : Cell
  line : Option ULine
  ended : Bool
  slot : Option Nat
  deriving DecidableEq, Repr

/-- A trigger group of a context (R174, R177): its number in the block, its grid index, its rows in order, and whether it has been emitted. -/
structure KalGroup where
  num : Nat
  index : Nat
  rows : List RingRow
  emitted : Bool
  deriving DecidableEq, Repr

/-- A Kaleidoscope unit (R173–R191): per context the groups of the open block in grid order; an end of block that waits until every set is emitted (full stop on a line, or bare); the block open. -/
structure KalRec where
  groups : List (Nat × List KalGroup)
  ending : Option Bool
  block : Option Nat
  skipping : Bool
  deriving DecidableEq, Repr

/-- A Kaleidoscope unit before its first line. -/
def KalRec.init : KalRec := ⟨[], none, none, false⟩

/-- A trigger group in a resampler's ring (R196–R209): its number in the context's ring, grid index, context, its rows, its midpoint in 2^-32 counts, whether it is
late, whether it has been emitted, whether no midpoint was held for it at its first present line (R197), and the instant at which its
emission conditions were first met (R195). -/
structure PgrGroup where
  num : Nat
  index : Nat
  ctx : Nat
  rows : List RingRow
  mid : Int
  late : Bool
  emitted : Bool
  unheld : Bool
  dueAt : Option Nat
  deriving DecidableEq, Repr

/-- A stream of a resampler: the groups of the open block in grid order, an end of block that waits, and the block open. -/
structure PgrRec where
  groups : List PgrGroup
  ending : Option Bool
  block : Option Nat
  skipping : Bool
  deriving DecidableEq, Repr

/-- A resampler stream before its first line. -/
def PgrRec.init : PgrRec := ⟨[], none, none, false⟩

/-- A Jigsaw unit (R217–R226): the pilcrow of the open block and the last block closed; the pilcrows of earlier blocks that some local
input has not gone past; how many runs of the grid (R478) it has met, and per local input the run and the block it stands in; the inputs that have ended the open block; the round in progress with the
instant it opened; the last round emitted in the block and its generation; whether it discards up to the next pilcrow. -/
structure JigRec where
  pil : Option Grain
  closed : Option Nat
  past : List Grain
  run : Nat
  inBlock : List (Nat × Nat × Nat)
  ended : List Nat
  round : Option (Nat × Nat)
  last : Option Nat
  lastGen : Nat
  skipping : Bool
  deriving DecidableEq, Repr

/-- A Jigsaw unit before its first round. -/
def JigRec.init : JigRec := ⟨none, none, [], 0, [], [], none, none, 0, false⟩

/-- The accumulators of a zone (R242): count, sum, sum of squares, min, max, saturated, and the blemish of the grains that contributed (R45). -/
structure ZoneAcc where
  count : Nat
  sum : Int
  squares : Nat
  least : Int
  most : Int
  saturated : Bool
  blem : Blemish
  deriving DecidableEq, Repr

/-- An accumulation of a context (R242–R247): its part number, zones in ascending order of number, histogram bins that are not zero, below and
above, generations with their line counts, lines used, ellipses, suspect and synthetic lines, first and last grid index, the
excluded flag, and whether a generation overflowed; the blemish of the colons counted, and that of the samples in each bin (below as
4096, above as 4097), where it is not clear (R45). -/
structure Accum where
  part : Nat
  zones : List (Nat × ZoneAcc)
  bins : List (Nat × Nat)
  below : Nat
  above : Nat
  gens : List (Nat × Nat)
  used : Nat
  ellipses : Nat
  suspects : Nat
  synthetics : Nat
  first : Option Nat
  last : Nat
  excluded : Bool
  genOver : Bool
  firstGen : Nat
  head : Blemish
  flags : List (Nat × Blemish)
  deriving DecidableEq, Repr

/-- An accumulation before its first line. -/
def Accum.init : Accum := ⟨0, [], [], 0, 0, [], 0, 0, 0, 0, none, 0, false, false, 0, ⟨false, false⟩, []⟩

/-- An Abacus unit (R239–R253): the pilcrow of the block whose accumulations are open, the accumulations per context, contexts whose
reference has been seeded, the screening settings in force, whether a record of the block has been written, and whether the unit
discards up to the next pilcrow. -/
structure AbaRec where
  pil : Option Grain
  accums : List (Nat × Accum)
  seeded : List Nat
  screen : Word
  opened : Bool
  skipping : Bool
  deriving DecidableEq, Repr

/-- An Abacus unit before its first line. -/
def AbaRec.init : AbaRec := ⟨none, [], [], 0, false, false⟩

/-- One of the three copies of the configuration (R274): the words of its active half, its inactive half, the copy generation, which
half is active, and whether SEC-DED and CRC find it intact. -/
structure CfgCopy where
  active : RegFile
  other : RegFile
  generation : Nat
  half : Nat
  intact : Bool
  deriving DecidableEq, Repr

/-- A copy after a cold reset: every field at its reset value. -/
def CfgCopy.init : CfgCopy := ⟨[], [], 0, 0, true⟩

/-- An image that has passed its checks (R264): the configuration it commits to, the slots of its table data, its generation, the
partition of a partition image, its rollback_version, and the uplink mode and rate of its header. -/
structure Staged where
  cfg : RegFile
  tables : List (Nat × Grain)
  generation : Nat
  part : Option Nat
  rollback : Nat
  upMode : Nat
  upRate : Nat
  deriving DecidableEq, Repr

/-- A chain commit requested at the root (R270): when, its tag, the device mask and min_index. -/
structure CommitReq where
  since : Nat
  tag : Nat
  mask : Nat
  minIndex : Nat
  deriving DecidableEq, Repr

/-- Image loading and committing (R255–R275): the boundary at which this device commits (grid index, block); the staged image; the
configurations made by commits (generation, first block, words), latest first; the load in progress (partition, partition
image) and the image buffer; whether commit_tag has been written since the load began; the ready messages that the root has
received (position − 1, tag) and its request; the tag under which this device has reported ready; whether the claim was late;
queues disabled by a commit and not yet retired; uplink mode and rate in force; the rollback_version of the last whole-device
image committed; the three copies of the configuration; whether an image has been committed since the last reset of any level; the
rollback count being burnt (R262); and the grid index of the last commit made on the running grid, with the configuration that holds
for the lines below it (R272); the banks (unit key, context) that parameter commits have written since the image's (R166). -/
structure ImgRec where
  boundary : Option (Nat × Nat)
  staged : Option Staged
  made : List (Nat × Nat × RegFile)
  loader : Option (Nat × Bool)
  buffer : List Byte
  tagged : Bool
  readies : List (Nat × Nat)
  request : Option CommitReq
  awaiting : Option Nat
  late : Bool
  retiring : List Nat
  upMode : Nat
  upRate : Nat
  rollback : Option Nat
  copies : List CfgCopy
  fresh : Bool
  burning : Option Nat
  before : Option (Nat × RegFile)
  tuned : List (Nat × Nat)
  called : Option (Nat × Bool)
  deriving DecidableEq, Repr

/-- No image loaded. -/
def ImgRec.init : ImgRec :=
  { boundary := none, staged := none, made := [], loader := none, buffer := [], tagged := false, readies := [], request := none
    awaiting := none, late := false, retiring := [], upMode := 0, upRate := 0, rollback := none
    copies := [.init, .init, .init], fresh := false, burning := none, before := none, tuned := [], called := none }

/-- A KMP request sent on over the chain (R297): the uplink it came by, the request, and when. -/
structure KmpRelay where
  uplink : Nat
  msg : KmpMsg
  since : Nat
  deriving DecidableEq, Repr

/-- KMP sessions (R293, R294, R297): the draw of the session nonces; per partition the highest sequence accepted, the sequences
accepted in the window below it (bit i: h − i), and the last sequence sent; the requests relayed and not yet answered; and the partition whose
register write is being carried out (R392). -/
structure KmpRec where
  nonceBase : Nat
  high : List (Nat × Nat)
  seen : List (Nat × Nat)
  sent : List (Nat × Nat)
  relays : List KmpRelay
  asker : Option Nat
  deriving DecidableEq, Repr

/-- The first session. -/
def KmpRec.init : KmpRec := ⟨0, [], [], [], [], none⟩

/-- What the boot record gave (R419, R420): whether a copy was intact, P0's boot key, and the image slot tried first. -/
structure BootRec where
  intact : Bool
  key : Option (BitVec 256)
  imgSlot : Nat
  deriving DecidableEq, Repr

/-- Before the boot record is read. -/
def BootRec.init : BootRec := ⟨false, none, 0⟩

/-- What the debug port drives on the boundary-scanned pins (R437, R442). -/
inductive ScanMode where
  | off
  | extest
  | clamp
  | highz
  deriving DecidableEq, Repr

/-- An operation of the access register (R438): its window (0 TMB, 1 MEM, 2 CFG), write or read, width, address and data. -/
structure DbgOp where
  win : Nat
  write : Bool
  wide : Bool
  address : Nat
  data : Word
  deriving DecidableEq, Repr

/-- The debug port (R436–R444): the instruction in effect, the value that the last capture loaded, the boundary-scan register and what it
drives, the challenge that waits for its response, consecutive refusals, the end of a lockout, the operation in progress, the status
and data of the last one, the islands told to halt that still finish a grain, and the grains that a STEP has let a tile (or, at 65536 on, a queue's
consumer) read of an item not yet whole (R440). -/
structure DbgRec where
  instr : Nat
  capture : Nat
  boundary : List Bool
  scan : ScanMode
  challenge : Option (BitVec 256)
  refused : Nat
  lockUntil : Option Nat
  op : Option DbgOp
  status : Nat
  data : Word
  halting : List Nat
  credit : List (Nat × Nat)
  deriving DecidableEq, Repr

/-- The debug port in Test-Logic-Reset: IDCODE is in effect. -/
def DbgRec.init : DbgRec := ⟨0x02, 0, [], .off, none, 0, none, none, 0, 0, [], []⟩

/-- The scrubber (R378, R379): the next slot, the instant of the last read, and the corrected slots still to be written back, oldest first. -/
structure ScrubRec where
  next : Nat
  since : Nat
  due : List Nat
  deriving DecidableEq, Repr

/-- The scrubber before its first read. -/
def ScrubRec.init : ScrubRec := ⟨0, 0, []⟩
/-- The device: everything but the fuses and the queue of waiting commands. -/
structure Dev where
  /-- the instant, in ps since the last power-up -/
  now : Nat
  /-- every register word (chapters 02–17) -/
  regs : RegFile
  /-- the working sets of units that have not yet switched to a committed configuration (R272), with its generation -/
  workSets : List (Nat × Nat × RegFile)
  /-- queue memory by byte (R81) -/
  mem : List Host.Cell
  /-- slots whose SEC-DED code holds an error (R43) -/
  slotErrs : List (Nat × SlotErr)
  /-- the counter that free values are drawn with (the model's own) -/
  free : Nat
  /-- the timebase (R331) -/
  tb : TimeBase
  /-- the straps as latched in the STRAPS state (R400) -/
  straps : StrapPins
  /-- the word that the last host read returned -/
  lastRead : Word
  /-- the status that the last host access answered (R296) -/
  lastStatus : Nat
  /-- what the last consumer-port read returned (R60) -/
  lastGrain : Cell
  /-- the halted islands (R439) -/
  halted : List Nat
  /-- the dynamic record of a queue -/
  queues : List (Nat × QRec)
  /-- a bank in one direction: 2 × bank + write -/
  banks : List (Nat × BankRec)
  /-- an event source: 65536 × kind + instance (R395) -/
  evtSrcs : List (Nat × EvtSrc)
  /-- the instant up to which an ALARM condition writes no record (R395) -/
  alarmUntil : List (Nat × Nat)
  /-- the dynamic record of a partition -/
  parts : List (Nat × PartRec)
  /-- conjunction c, or collector j at 1024 + j -/
  merges : List (Nat × MergeRec)
  /-- breakpoint i (R441) -/
  breaks : List (Nat × BreakRec)
  /-- twin digests (R388–R391) -/
  twin : TwinRec
  /-- the dynamic record of a DMA channel -/
  chans : List (Nat × ChanRec)
  /-- stream s of port n: 4 × n + s -/
  streams : List (Nat × StreamRec)
  /-- a sensor port -/
  ports : List (Nat × PortRec)
  /-- a CCI master -/
  ccis : List (Nat × CciRec)
  /-- an encoder -/
  encs : List (Nat × EncRec)
  /-- a trigger output -/
  heads : List (Nat × HeadRec)
  /-- a strobe output -/
  strobes : List (Nat × StrobeRec)
  /-- Marionette (R117–R136) -/
  marn : MarnRec
  /-- a flank link: 0 = FL, 1 = FR (R330) -/
  flanks : List (Nat × FlkRec)
  /-- the chain as this device knows it (R313–R329) -/
  chain : ChainRec
  /-- the clock of an island (R407) -/
  plls : List (Nat × PllRec)
  /-- a calibration block (R413) -/
  cals : List (Nat × CalRec)
  /-- clocks, sensors and start-up (R405–R412, R422) -/
  start : StartRec
  /-- the Tumbler's watchdogs (R428–R431) -/
  tumbler : TumblerRec
  /-- the levels of the strap pins (R400) -/
  strapPins : StrapPins
  /-- the time servo (R334–R345) -/
  time : TimeRec
  /-- the timebase value held for a path's reads (R480): 0 and 1 TIME_NOW over KMP and debug, 2 and 3 TMB_TIME -/
  latches : List (Nat × Nat)
  /-- image loading and committing (R255–R275) -/
  img : ImgRec
  /-- the commit index of a unit's armed parameter commit (R167) -/
  arms : List (Nat × Nat)
  /-- a pixel tile, logical or understudy (R138–R171, R385–R387) -/
  tiles : List (Nat × TileRec)
  /-- a Kaleidoscope unit (R173–R191) -/
  kals : List (Nat × KalRec)
  /-- stream s of resampler u: 4 × u + s (R193–R212) -/
  pgrs : List (Nat × PgrRec)
  /-- a Jigsaw unit (R217–R229) -/
  jigs : List (Nat × JigRec)
  /-- an Abacus unit (R239–R253) -/
  abas : List (Nat × AbaRec)
  /-- an uplink (R277–R281, R352) -/
  upls : List (Nat × UplRec)
  /-- KMP sessions (R293, R294, R297) -/
  kmp : KmpRec
  /-- the boot record (R419) -/
  boot : BootRec
  /-- the debug port (R436–R444) -/
  dbg : DbgRec
  /-- the scrubber (R378) -/
  scrub : ScrubRec
  deriving DecidableEq, Repr

/-- The device with every record at its reset value. -/
def Dev.init : Dev :=
  { now := 0
    regs := []
    workSets := []
    mem := []
    slotErrs := []
    free := 16
    tb := TimeBase.init
    straps := ⟨false, false, false, 0⟩
    lastRead := 0
    lastStatus := 0
    lastGrain := (0, 0)
    halted := []
    queues := []
    banks := []
    evtSrcs := []
    alarmUntil := []
    parts := []
    merges := []
    breaks := []
    twin := TwinRec.init
    chans := []
    streams := []
    ports := []
    ccis := []
    encs := []
    heads := []
    strobes := []
    marn := MarnRec.init
    flanks := []
    chain := ChainRec.init
    plls := []
    cals := []
    start := StartRec.init
    tumbler := TumblerRec.init
    strapPins := ⟨false, false, false, 0⟩
    time := TimeRec.init
    latches := []
    img := ImgRec.init
    arms := []
    tiles := []
    kals := []
    pgrs := []
    jigs := []
    abas := []
    upls := []
    kmp := KmpRec.init
    boot := BootRec.init
    dbg := DbgRec.init
    scrub := ScrubRec.init }

/-- the dynamic record of a queue -/
def Dev.queue (s : Dev) (i : Nat) : QRec := Sparse.get (fun _ => QRec.init) s.queues i
/-- The device with one of them replaced. -/
def Dev.setQueue (s : Dev) (i : Nat) (r : QRec) : Dev :=
  { s with queues := Sparse.set (fun _ => QRec.init) s.queues i r }

/-- a bank in one direction: 2 × bank + write -/
def Dev.bankDir (s : Dev) (i : Nat) : BankRec := Sparse.get (fun _ => BankRec.init) s.banks i
/-- The device with one of them replaced. -/
def Dev.setBankDir (s : Dev) (i : Nat) (r : BankRec) : Dev :=
  { s with banks := Sparse.set (fun _ => BankRec.init) s.banks i r }

/-- an event source: 65536 × kind + instance (R395) -/
def Dev.evtSrc (s : Dev) (i : Nat) : EvtSrc := Sparse.get (fun _ => EvtSrc.init) s.evtSrcs i
/-- The device with one of them replaced. -/
def Dev.setEvtSrc (s : Dev) (i : Nat) (r : EvtSrc) : Dev :=
  { s with evtSrcs := Sparse.set (fun _ => EvtSrc.init) s.evtSrcs i r }

/-- the instant up to which an ALARM condition writes no record (R395) -/
def Dev.alarmHold (s : Dev) (i : Nat) : Nat := Sparse.get (fun _ => 0) s.alarmUntil i
/-- The device with one of them replaced. -/
def Dev.setAlarmHold (s : Dev) (i : Nat) (r : Nat) : Dev :=
  { s with alarmUntil := Sparse.set (fun _ => 0) s.alarmUntil i r }

/-- the dynamic record of a partition -/
def Dev.part (s : Dev) (i : Nat) : PartRec := Sparse.get (fun _ => PartRec.init) s.parts i
/-- The device with one of them replaced. -/
def Dev.setPart (s : Dev) (i : Nat) (r : PartRec) : Dev :=
  { s with parts := Sparse.set (fun _ => PartRec.init) s.parts i r }

/-- conjunction c, or collector j at 1024 + j -/
def Dev.merge (s : Dev) (i : Nat) : MergeRec := Sparse.get (fun _ => MergeRec.init) s.merges i
/-- The device with one of them replaced. -/
def Dev.setMerge (s : Dev) (i : Nat) (r : MergeRec) : Dev :=
  { s with merges := Sparse.set (fun _ => MergeRec.init) s.merges i r }

/-- breakpoint i (R441) -/
def Dev.breakAt (s : Dev) (i : Nat) : BreakRec := Sparse.get (fun _ => BreakRec.init) s.breaks i
/-- The device with one of them replaced. -/
def Dev.setBreakAt (s : Dev) (i : Nat) (r : BreakRec) : Dev :=
  { s with breaks := Sparse.set (fun _ => BreakRec.init) s.breaks i r }

/-- the dynamic record of a DMA channel -/
def Dev.chan (s : Dev) (i : Nat) : ChanRec := Sparse.get (fun _ => ChanRec.init) s.chans i
/-- The device with one of them replaced. -/
def Dev.setChan (s : Dev) (i : Nat) (r : ChanRec) : Dev :=
  { s with chans := Sparse.set (fun _ => ChanRec.init) s.chans i r }

/-- stream s of port n: 4 × n + s -/
def Dev.stream (s : Dev) (i : Nat) : StreamRec := Sparse.get (fun _ => StreamRec.init) s.streams i
/-- The device with one of them replaced. -/
def Dev.setStream (s : Dev) (i : Nat) (r : StreamRec) : Dev :=
  { s with streams := Sparse.set (fun _ => StreamRec.init) s.streams i r }

/-- a sensor port -/
def Dev.port (s : Dev) (i : Nat) : PortRec := Sparse.get (fun _ => PortRec.init) s.ports i
/-- The device with one of them replaced. -/
def Dev.setPort (s : Dev) (i : Nat) (r : PortRec) : Dev :=
  { s with ports := Sparse.set (fun _ => PortRec.init) s.ports i r }

/-- a CCI master -/
def Dev.cci (s : Dev) (i : Nat) : CciRec := Sparse.get (fun _ => CciRec.init) s.ccis i
/-- The device with one of them replaced. -/
def Dev.setCci (s : Dev) (i : Nat) (r : CciRec) : Dev :=
  { s with ccis := Sparse.set (fun _ => CciRec.init) s.ccis i r }

/-- an encoder -/
def Dev.enc (s : Dev) (i : Nat) : EncRec := Sparse.get (fun _ => EncRec.init) s.encs i
/-- The device with one of them replaced. -/
def Dev.setEnc (s : Dev) (i : Nat) (r : EncRec) : Dev :=
  { s with encs := Sparse.set (fun _ => EncRec.init) s.encs i r }

/-- a trigger output -/
def Dev.head (s : Dev) (i : Nat) : HeadRec := Sparse.get (fun _ => HeadRec.init) s.heads i
/-- The device with one of them replaced. -/
def Dev.setHead (s : Dev) (i : Nat) (r : HeadRec) : Dev :=
  { s with heads := Sparse.set (fun _ => HeadRec.init) s.heads i r }

/-- a strobe output -/
def Dev.strobe (s : Dev) (i : Nat) : StrobeRec := Sparse.get (fun _ => StrobeRec.init) s.strobes i
/-- The device with one of them replaced. -/
def Dev.setStrobe (s : Dev) (i : Nat) (r : StrobeRec) : Dev :=
  { s with strobes := Sparse.set (fun _ => StrobeRec.init) s.strobes i r }

/-- a flank link: 0 = FL, 1 = FR (R330) -/
def Dev.flank (s : Dev) (i : Nat) : FlkRec := Sparse.get (fun _ => FlkRec.init) s.flanks i
/-- The device with one of them replaced. -/
def Dev.setFlank (s : Dev) (i : Nat) (r : FlkRec) : Dev :=
  { s with flanks := Sparse.set (fun _ => FlkRec.init) s.flanks i r }

/-- the clock of an island (R407) -/
def Dev.pll (s : Dev) (i : Nat) : PllRec := Sparse.get (fun _ => PllRec.init) s.plls i
/-- The device with one of them replaced. -/
def Dev.setPll (s : Dev) (i : Nat) (r : PllRec) : Dev :=
  { s with plls := Sparse.set (fun _ => PllRec.init) s.plls i r }

/-- a calibration block (R413) -/
def Dev.cal (s : Dev) (i : Nat) : CalRec := Sparse.get (fun _ => CalRec.init) s.cals i
/-- The device with one of them replaced. -/
def Dev.setCal (s : Dev) (i : Nat) (r : CalRec) : Dev :=
  { s with cals := Sparse.set (fun _ => CalRec.init) s.cals i r }

/-- a pixel tile, logical or understudy (R138–R171, R385–R387) -/
def Dev.tile (s : Dev) (i : Nat) : TileRec := Sparse.get (fun _ => TileRec.init) s.tiles i
/-- The device with one of them replaced. -/
def Dev.setTile (s : Dev) (i : Nat) (r : TileRec) : Dev :=
  { s with tiles := Sparse.set (fun _ => TileRec.init) s.tiles i r }

/-- a Kaleidoscope unit (R173–R191) -/
def Dev.kal (s : Dev) (i : Nat) : KalRec := Sparse.get (fun _ => KalRec.init) s.kals i
/-- The device with one of them replaced. -/
def Dev.setKal (s : Dev) (i : Nat) (r : KalRec) : Dev :=
  { s with kals := Sparse.set (fun _ => KalRec.init) s.kals i r }

/-- stream s of resampler u: 4 × u + s (R193–R212) -/
def Dev.pgr (s : Dev) (i : Nat) : PgrRec := Sparse.get (fun _ => PgrRec.init) s.pgrs i
/-- The device with one of them replaced. -/
def Dev.setPgr (s : Dev) (i : Nat) (r : PgrRec) : Dev :=
  { s with pgrs := Sparse.set (fun _ => PgrRec.init) s.pgrs i r }

/-- a Jigsaw unit (R217–R229) -/
def Dev.jig (s : Dev) (i : Nat) : JigRec := Sparse.get (fun _ => JigRec.init) s.jigs i
/-- The device with one of them replaced. -/
def Dev.setJig (s : Dev) (i : Nat) (r : JigRec) : Dev :=
  { s with jigs := Sparse.set (fun _ => JigRec.init) s.jigs i r }

/-- an Abacus unit (R239–R253) -/
def Dev.aba (s : Dev) (i : Nat) : AbaRec := Sparse.get (fun _ => AbaRec.init) s.abas i
/-- The device with one of them replaced. -/
def Dev.setAba (s : Dev) (i : Nat) (r : AbaRec) : Dev :=
  { s with abas := Sparse.set (fun _ => AbaRec.init) s.abas i r }

/-- an uplink (R277–R281, R352) -/
def Dev.upl (s : Dev) (i : Nat) : UplRec := Sparse.get (fun _ => UplRec.init) s.upls i
/-- The device with one of them replaced. -/
def Dev.setUpl (s : Dev) (i : Nat) (r : UplRec) : Dev :=
  { s with upls := Sparse.set (fun _ => UplRec.init) s.upls i r }

/-- The fuses (R258, R261, R376, R419, R443), which only ever gain bits: image-key slots programmed and revoked, the
rollback count, the unique identifier, debug_open. -/
structure Fuses where
  programmed : BitVec 4
  revoked : BitVec 4
  rollback : Nat
  uid : BitVec 64
  debugOpen : Bool
  deriving DecidableEq, Repr

/-- Why a command stops. Raised by no meaning of this model: every command of the table has an effect in the spec. -/
inductive Fault where
  /-- Raised by nobody; a stop for a device that no longer exists would be safe. -/
  | unreachable
  deriving DecidableEq, Repr

/-- Why a command has no meaning. -/
inductive Refusal where
  /-- Raised by the arm of a command that has no meaning yet: safe, nothing is claimed of it. -/
  | notModelled (mnemonic : String)
  deriving DecidableEq, Repr

/-- The whole state: the device, its fuses, and the commands that wait, first in, first out. -/
structure State where
  dev : Dev
  fuses : Fuses
  pending : List Instr
  deriving DecidableEq, Repr

/-- The machine right after a device cold reset (R9): every register at its reset value, nothing waiting. -/
def State.reset : State := ⟨Dev.init, ⟨0, 0, 0, 0, false⟩, []⟩

end Sys2Proof.Machine
end

