-- ==== Sys2Proof/Machine/Ops.lean ====
section
/-! DEFINITION. The named operations over registers, queue memory, time, events and notices (R5–R14, R49, R81, R313, R331,
R353–R360, R392–R399, R475, R476). -/

namespace Sys2Proof.Machine

/-! ### Register words and fields -/

/-- The word at a key. -/
def RegFile.word (r : RegFile) (a : Nat) : Word := Sparse.get Reg.resetWord r a

/-- The register file with one word replaced. -/
def RegFile.setWord (r : RegFile) (a : Nat) (w : Word) : RegFile := Sparse.set Reg.resetWord r a w

/-- A field of a word, as a number. -/
def fieldOf (f : Reg.Fld) (w : Word) : Nat := (w.toNat >>> f.lo) % 2 ^ f.width

/-- A word with one field replaced. -/
def putField (f : Reg.Fld) (w : Word) (v : Nat) : Word :=
  (w &&& ~~~ (BitVec.ofNat 64 ((2 ^ f.width - 1) <<< f.lo))) ||| BitVec.ofNat 64 ((v % 2 ^ f.width) <<< f.lo)

/-- A field of instance (i, j, k). -/
def RegFile.fld (r : RegFile) (f : Reg.Fld) (i : Nat := 0) (j : Nat := 0) (k : Nat := 0) : Nat :=
  fieldOf f (r.word (f.addr i j k))

/-- The register file with a field of instance (i, j, k) replaced. -/
def RegFile.setF (r : RegFile) (f : Reg.Fld) (v : Nat) (i : Nat := 0) (j : Nat := 0) (k : Nat := 0) : RegFile :=
  r.setWord (f.addr i j k) (putField f (r.word (f.addr i j k)) v)

/-- A field of the device's registers. -/
def Dev.fld (s : Dev) (f : Reg.Fld) (i : Nat := 0) (j : Nat := 0) (k : Nat := 0) : Nat := s.regs.fld f i j k

/-- The device with a register field replaced. -/
def Dev.setF (s : Dev) (f : Reg.Fld) (v : Nat) (i : Nat := 0) (j : Nat := 0) (k : Nat := 0) : Dev :=
  { s with regs := s.regs.setF f v i j k }

/-- A field read as a flag. -/
def Dev.flag (s : Dev) (f : Reg.Fld) (i : Nat := 0) (j : Nat := 0) (k : Nat := 0) : Bool := s.fld f i j k == 1

/-- A flag of a configuration. -/
def RegFile.flag (r : RegFile) (f : Reg.Fld) (i : Nat := 0) (j : Nat := 0) (k : Nat := 0) : Bool := r.fld f i j k == 1

/-- The field n bits higher in the same word: one of a row of equal fields. -/
def fldUp (f : Reg.Fld) (n : Nat) : Reg.Fld := { f with lo := f.lo + n }

/-- A counter field moved up by n, saturating (R14). -/
def Dev.bump (s : Dev) (f : Reg.Fld) (i : Nat := 0) (j : Nat := 0) (k : Nat := 0) (n : Nat := 1) : Dev :=
  s.setF f (min (s.fld f i j k + n) (2 ^ f.width - 1)) i j k

/-- Two's-complement reading of an n-bit number (R5). -/
def toSigned (w v : Nat) : Int := if v % 2 ^ w < 2 ^ (w - 1) then (v % 2 ^ w : Nat) else (v % 2 ^ w : Nat) - 2 ^ w

/-- The n-bit two's-complement code of an integer. -/
def ofSigned (w : Nat) (x : Int) : Nat := (x % 2 ^ w).toNat

/-- A signed field (R5). -/
def RegFile.sfld (r : RegFile) (f : Reg.Fld) (i : Nat := 0) (j : Nat := 0) (k : Nat := 0) : Int :=
  toSigned f.width (r.fld f i j k)

/-- A signed field of the device. -/
def Dev.sfld (s : Dev) (f : Reg.Fld) (i : Nat := 0) (j : Nat := 0) (k : Nat := 0) : Int := s.regs.sfld f i j k

/-- The key of a unit in `workSets`: its source kind and instance (R475). -/
def unitKey (kind inst : Nat) : Nat := kind * 65536 + inst

/-- The configuration a unit runs on: the set it keeps until it switches (R272), else the committed one. -/
def Dev.cfg (s : Dev) (kind inst : Nat) : RegFile := ((Sparse.find (unitKey kind inst) s.workSets).map (fun w => w.2)).getD s.regs

/-- Draw a free value: the value, and the device with the counter advanced. -/
def Dev.drawFree (s : Dev) (w : Nat) : BitVec w × Dev :=
  ((Config.freeWord s.free).setWidth w, { s with free := s.free + 1 })

/-! ### Rounding (R6) -/

/-- Round x / 2^k to nearest, ties to even (R6). -/
def rshiftRound (x : Int) (k : Nat) : Int :=
  let d : Int := 2 ^ k
  let q := x / d
  let r := x % d
  if 2 * r < d then q else if 2 * r = d then (if q % 2 = 0 then q else q + 1) else q + 1

/-- Round x / d to nearest, ties to even (R6), for a positive divisor. -/
def divRound (x : Int) (d : Nat) : Int :=
  let q := x / (d : Int)
  let r := x % (d : Int)
  if 2 * r < d then q else if 2 * r = d then (if q % 2 = 0 then q else q + 1) else q + 1

/-! ### Time -/

/-- The device at a later instant: never back (a command whose instant has passed takes effect at once). -/
def Dev.reach (s : Dev) (t : Nat) : Dev := { s with now := max s.now t }

/-- The servo rate in 2^-8 ppb (R343). -/
def Dev.rate (s : Dev) : Int := s.sfld Reg.TIME_RATE.rate

/-- The timebase at an instant, in 2^-32 ns, counted from a reference instant, value and rate (R331): the crystal rate corrected by the
servo rate, narrowed to the nearest value with ties to even (R6). -/
def tbFrom (ref value : Nat) (rate : Int) (t : Nat) : Nat :=
  ((value : Int) + divRound (((t : Int) - ref) * 2 ^ 32 * (256000000000 + rate)) 256000000000000).toNat

/-- The reference from which the timebase counted at an instant before the present one: the last one at or before it. -/
def TimeBase.pastAt (b : TimeBase) (t : Nat) : Option (Nat × Nat × Int) :=
  (b.past.find? (fun g => decide (g.1 ≤ t))).orElse (fun _ => b.past.getLast?)

/-- The timebase at an instant, in 2^-32 ns (R331), by the rate in force then; on the backup oscillator while no reference is present
(R406). -/
def Dev.tbAt (s : Dev) (t : Nat) : Nat :=
  match (if t < s.tb.ref then s.tb.pastAt t else none) with
  | some g => tbFrom g.1 g.2.1 g.2.2 t
  | none =>
    if s.start.backup then s.tb.value + Config.backupElapsed (t - s.tb.ref) else tbFrom s.tb.ref s.tb.value s.rate t

/-- The timebase now. -/
def Dev.tbNow (s : Dev) : Nat := s.tbAt s.now

/-- 2^-32 ns units in a second. -/
def tbSecond : Nat := 1000000000 * 2 ^ 32

/-- Seconds of a timebase value, modulo 2^64 (R331). -/
def tbSeconds (v : Nat) : Nat := v / tbSecond % 2 ^ 64
/-- Nanoseconds of a timebase value. -/
def tbNanos (v : Nat) : Nat := v / 2 ^ 32 % 1000000000
/-- Fraction of a timebase value, u0.32 ns. -/
def tbFraction (v : Nat) : Nat := v % 2 ^ 32

/-- The bracket layout of R49, truncated (R332). -/
def bracketOf (v : Nat) : Grain :=
  BitVec.ofNat 72 (tbSeconds v % 2 ^ 32 * 2 ^ 40 + tbNanos v * 2 ^ 8 + tbFraction v / 2 ^ 24)

/-- The bracket of the present instant. -/
def Dev.bracket (s : Dev) : Grain := bracketOf s.tbNow

/-- Mark that a timestamp has been issued (R342). -/
def Dev.stamped (s : Dev) : Dev := { s with tb := { s.tb with issued := true } }

/-- The timebase rebased at the present instant, before a change of rate or value; how it counted until now is kept. -/
def Dev.rebase (s : Dev) : Dev :=
  { s with tb := { s.tb with ref := s.now, value := s.tbNow, past := ((s.tb.ref, s.tb.value, s.rate) :: s.tb.past).take 1024 } }

/-! ### Queue memory -/

/-- The byte key of a slot image (R81). -/
def slotKey (slot i : Nat) : Nat := slot * 16 + i

/-- A byte of queue memory; an unlisted byte reads zero. -/
def memGet (m : List Host.Cell) (a : Nat) : BitVec 8 := Sparse.get (fun _ => 0) m a

/-- Queue memory after a byte write. -/
def memSet (m : List Host.Cell) (a : Nat) (b : BitVec 8) : List Host.Cell := Sparse.set (fun _ => 0) m a b

/-- The canonical form of queue memory. -/
abbrev Memory.wf (m : List Host.Cell) : Prop := Sparse.wf (fun _ => (0 : BitVec 8)) m = true

/-- Byte i of a grain (R81: little-endian). -/
def grainByte (g : Grain) (i : Nat) : Byte := (g >>> (8 * i)).setWidth 8

/-- A grain from its nine bytes, byte 0 first. -/
def grainOfBytes : List Byte → Grain
  | [] => 0
  | b :: rest => b.setWidth 72 ||| (grainOfBytes rest <<< 8)

/-- The grain stored in a slot. -/
def slotGrain (m : List Host.Cell) (slot : Nat) : Grain :=
  grainOfBytes ((List.range 9).map (fun i => memGet m (slotKey slot i)))

/-- The mark stored in a slot (byte 9), with the count of unused positions that the model keeps beside it (byte 10, which R81 reads zero). -/
def slotMark (m : List Host.Cell) (slot : Nat) : Mark :=
  (memGet m (slotKey slot 9)).setWidth 12 ||| ((memGet m (slotKey slot 10)).setWidth 12 <<< 8)

/-- Queue memory with bytes written upward from an address. -/
def memSetBytes (m : List Host.Cell) (a : Nat) : List Byte → List Host.Cell
  | [] => m
  | b :: rest => memSetBytes (memSet m a b) (a + 1) rest

/-- Queue memory after a whole slot write. -/
def slotPut (m : List Host.Cell) (slot : Nat) (c : Cell) : List Host.Cell :=
  memSetBytes m (slotKey slot 0) ((List.range 9).map (grainByte c.1) ++ [c.2.setWidth 8, (c.2 >>> 8).setWidth 8])

/-- The error state of a slot. -/
def Dev.slotErr (s : Dev) (slot : Nat) : SlotErr := Sparse.get (fun _ => SlotErr.clean) s.slotErrs slot

/-- The device with a slot's error state replaced. -/
def Dev.setSlotErr (s : Dev) (slot : Nat) (e : SlotErr) : Dev :=
  { s with slotErrs := Sparse.set (fun _ => SlotErr.clean) s.slotErrs slot e }

/-- A whole grain and mark written to a slot under fresh check bits (R83). -/
def Dev.writeSlot (s : Dev) (slot : Nat) (c : Cell) : Dev :=
  { s with mem := slotPut s.mem slot c, slotErrs := Sparse.erase slot s.slotErrs }

/-- What a slot stores. -/
def Dev.slotCell (s : Dev) (slot : Nat) : Cell := (slotGrain s.mem slot, slotMark s.mem slot)

/-! ### Marks and tags -/

/-- The code of a mark (R43). -/
def codeOf (m : Mark) : Nat := m.toNat % 64
def cNoun : Nat := 0
def cColon : Nat := 1
def cComma : Nat := 2
def cStop : Nat := 3
def cEllipsis : Nat := 4
def cPilcrow : Nat := 5
def cBracket : Nat := 6
def cIdle : Nat := 0x3F

/-- A mark with neither blemish flag. -/
def mkCode (code : Nat) : Mark := BitVec.ofNat 12 code
/-- The suspect bit. -/
def suspect (m : Mark) : Bool := m.getLsbD 7
/-- The synthetic bit. -/
def synthetic (m : Mark) : Bool := m.getLsbD 6
/-- A mark from its parts (R43). -/
def mark (sus syn : Bool) (code : Nat) : Mark :=
  BitVec.ofNat 12 ((if sus then 128 else 0) + (if syn then 64 else 0) + code % 64)
/-- The mark with another code. -/
def withCode (m : Mark) (code : Nat) : Mark := (m &&& 0xFC0) ||| BitVec.ofNat 12 (code % 64)
/-- The sample positions of an ending grain that its line leaves unused (R42, R44). -/
def unusedOf (m : Mark) : Nat := m.toNat / 256
/-- The mark of an ending grain that leaves n sample positions unused. -/
def withUnused (m : Mark) (n : Nat) : Mark := (m &&& 0xFF) ||| BitVec.ofNat 12 (n % 16 * 256)

/-- Bits [hi:lo] of a grain as a number. -/
def bits (g : Grain) (hi lo : Nat) : Nat := (g.toNat >>> lo) % 2 ^ (hi + 1 - lo)

/-- The line tag of R47. -/
structure Tag where
  ctx : Nat
  gen : Nat
  ordinal : Nat
  flags : Nat
  index : Nat
  deriving DecidableEq, Repr

/-- The tag in a colon or ellipsis grain (R47, R48). -/
def Tag.of (g : Grain) : Tag := ⟨bits g 71 68, bits g 67 60, bits g 59 53, bits g 52 48, bits g 47 0⟩

/-- The grain of a tag. -/
def Tag.grain (t : Tag) : Grain :=
  BitVec.ofNat 72 (t.ctx % 16 * 2 ^ 68 + t.gen % 256 * 2 ^ 60 + t.ordinal % 128 * 2 ^ 53 + t.flags % 32 * 2 ^ 48
    + t.index % 2 ^ 48)

/-- The pilcrow grain of R50. -/
def pilcrowGrain (block cause epochLow : Nat) : Grain :=
  BitVec.ofNat 72 (block % 2 ^ 32 * 2 ^ 40 + cause % 16 * 2 ^ 36 + epochLow % 16 * 2 ^ 32)

/-- The block number of a pilcrow (R50). -/
def pilBlockOf (g : Grain) : Nat := bits g 71 40

/-- The idle grain (R61). -/
def idleCell : Cell := (0, mkCode cIdle)
/-- A bare full stop (R51). -/
def bareStop : Cell := (0, mkCode cStop)

/-! ### Device-wide names -/

/-- The device's chain address: row and position − 1 (R287). -/
def Dev.chainAddr (s : Dev) : Nat := s.fld Reg.FLK_CHAIN.row * 64 + s.fld Reg.FLK_CHAIN.position

/-- Is the device the chain root (R16)? -/
def Dev.isRoot (s : Dev) : Bool := s.straps.root

/-- The owner of a port (R348): the partition whose PART_PORTS names it, else P0. -/
def Dev.portOwner (s : Dev) (n : Nat) : Nat :=
  ((List.range 16).find? (fun p => (s.fld Reg.PART_PORTS.ports p).testBit n)).getD 0

/-- The owner of a queue (R348). -/
def Dev.queueOwner (s : Dev) (q : Nat) : Nat := s.fld Reg.QD_BASE.owner q

/-- The grid index in MARN_STATUS. -/
def Dev.gridIndex (s : Dev) : Nat := s.fld Reg.MARN_STATUS.grid_index

/-- The current epoch (R333). -/
def Dev.epoch (s : Dev) : Nat := s.fld Reg.TIME_EPOCH.epoch

/-- Is an island halted (R439)? -/
def Dev.isHalted (s : Dev) (isl : Nat) : Bool := s.halted.contains isl

/-! ### Links and ring messages sent (R313, R314) -/

/-- Training states of FLK_STATUS (R330). -/
def fsDetect : Nat := 0
def fsPolarity : Nat := 1
def fsOrder : Nat := 2
def fsEqualise : Nat := 3
def fsAlign : Nat := 4
def fsRun : Nat := 5
def fsDown : Nat := 6
def fsRepeater : Nat := 7

/-- The training state of a link. -/
def Dev.flkState (s : Dev) (l : Nat) : Nat := s.fld Reg.FLK_STATUS.state l
/-- Is a link in RUN? -/
def Dev.flkUp (s : Dev) (l : Nat) : Bool := s.flkState l == fsRun
/-- Is an uplink in RUN (R309)? -/
def Dev.uplinkUp (s : Dev) (u : Nat) : Bool := s.fld Reg.UPL_STATUS.state u == 3

/-- The record of a link replaced by a function of it. -/
def Dev.modFlank (s : Dev) (l : Nat) (f : FlkRec → FlkRec) : Dev := s.setFlank l (f (s.flank l))

/-- Put a load behind those that wait on a link in RUN. -/
def Dev.flkQueue (s : Dev) (l : Nat) (x : FlkLoad) : Dev :=
  if s.flkUp l then s.modFlank l (fun r => { r with waiting := r.waiting ++ [x] }) else s

/-- Channel codes (R313). -/
def chPosition : Nat := 1
def chEnum : Nat := 2
def chTwin : Nat := 3
def chKmp : Nat := 4
def chEvents : Nat := 5

/-- Is a position held? -/
def Dev.assigned (s : Dev) : Bool := s.flag Reg.FLK_CHAIN.assigned

/-- The next msg_id of a channel. -/
def Dev.nextId (s : Dev) (ch : Nat) : Nat := (Sparse.find ch s.chain.ids).getD 0

/-- A message of this device (R313): hops 63 and the channel's next msg_id. -/
def Dev.ringMsg (s : Dev) (ch : Nat) (dest : Option Nat) (b : RingBody) : RingMsg :=
  { origin := BitVec.ofNat 7 s.chainAddr, destination := BitVec.ofNat 7 (dest.getD 0), hops := 63
    msgId := BitVec.ofNat 16 (s.nextId ch), broadcast := dest.isNone, channel := Fin.ofNat 8 ch, body := b }

/-- The channel's msg_id taken. -/
def Dev.takeId (s : Dev) (ch : Nat) : Dev :=
  { s with chain := { s.chain with ids := Sparse.insert ch ((s.nextId ch + 1) % 65536) s.chain.ids } }

/-- How long a message of the ring is remembered (R315 gives 1 ms for the comparison; log entry 21 for the rest). -/
def copyMemory : Nat := 32 * Config.msPs

/-- A device without a position, whose address names no device, remembers what it sent, so that it knows its own copies again (R314). -/
def Dev.keepOwn (s : Dev) (m : RingMsg) : Dev :=
  if s.assigned then s
  else { s with chain := { s.chain with own := (m, s.now) :: s.chain.own.filter (fun c => decide (s.now < c.2 + copyMemory)) } }

/-- Send a ring message on both links (R314), to one device or to every device. -/
def Dev.ringSend (s : Dev) (ch : Nat) (dest : Option Nat) (b : RingBody) : Dev :=
  let m := s.ringMsg ch dest b
  (((s.keepOwn m).takeId ch).flkQueue 0 (.ring m)).flkQueue 1 (.ring m)

/-! ### Notices (R353–R360) -/

/-- The pending counts in PART_NOTICE_STAT follow the notices held (R357). -/
def Dev.syncNotices (s : Dev) (p : Nat) : Dev :=
  (s.setF Reg.PART_NOTICE_STAT.pending (s.part p).notices.length p).setF Reg.PART_NOTICE_STAT.overflow_pending
    (if (s.part p).overflow.any (fun n => 0 < n) then 1 else 0) p

/-- A list with one entry replaced by a function of it. -/
def modifyAt {α : Type} (f : α → α) : Nat → List α → List α
  | _, [] => []
  | 0, x :: xs => f x :: xs
  | n + 1, x :: xs => x :: modifyAt f n xs

/-- An occurrence of notice cause c in partition p with its detail (R354, R355, R357). -/
def Dev.notice (s : Dev) (p c : Nat) (detail : BitVec 64) : Dev :=
  if s.fld Reg.PART_CAUSE.enable p c = 0 then s
  else
    let r := s.part p
    let sev := s.fld Reg.PART_CAUSE.severity p c
    if r.notices.any (fun n => n.cause == c && n.sentAt.isNone) then
      (s.setPart p { r with notices := r.notices.map (fun n =>
        if n.cause == c && n.sentAt.isNone then { n with count := min (n.count + 1) 65535 } else n) }).bump
        Reg.PART_NOTICE_STAT2.coalesced p
    else if r.notices.length < 256 then
      ((s.stamped.setPart p { r with
        noticeNext := r.noticeNext + 1
        notices := r.notices ++ [⟨r.noticeNext, c, sev, 1, s.bracket, tbSeconds s.tbNow, s.epoch, detail, s.now, none⟩] }).bump
        Reg.PART_NOTICE_STAT2.raised p).syncNotices p
    else
      let fresh : Notice := ⟨r.noticeNext, 0xFF, 3, 1, s.bracket, tbSeconds s.tbNow, s.epoch, 0, s.now, none⟩
      (((s.stamped.setPart p { r with
        overflow := modifyAt (fun n => min (n + 1) 65535) sev r.overflow
        noticeNext := if r.overNote.isNone then r.noticeNext + 1 else r.noticeNext
        overNote := some (r.overNote.elim fresh (fun n => { n with count := min (n.count + 1) 65535 })) }).bump
        Reg.PART_NOTICE_STAT2.overflowed p).syncNotices p)

/-- Is INT pin i asserted (R360)? -/
def Dev.intPin (s : Dev) (i : Nat) : Bool :=
  (List.range 16).any (fun p =>
    s.flag Reg.PART_NOTICE_CFG.int_en p && s.fld Reg.PART_NOTICE_CFG.int_pin p == i &&
    ((s.part p).notices.any (fun n => s.fld Reg.PART_NOTICE_CFG.int_min_sev p ≤ n.sev) ||
      (s.part p).overflow.any (fun n => 0 < n)))

/-! ### Events (R392–R399) -/

/-- What raises an event: class (0 TRACE, 1 LOG, 2 ALARM), source kind and instance (R475), the partition it is
attributed to, the ALARM condition (R399), the witness address and bit (R393), and the detail (R476). -/
structure Event where
  cls : Nat
  kind : Nat
  inst : Nat
  owner : Nat
  cond : Nat := 0
  witness : Nat := 0
  wbit : Nat := 0
  detail : Nat := 0
  deriving DecidableEq, Repr

/-- The event code, E0 [39:24] (R393). -/
def Event.code (e : Event) : Nat := e.cls * 2 ^ 14 + e.kind % 64 * 2 ^ 8 + (if e.cls = 2 then e.cond % 256 else 0)

/-- The four grains of a record (R393). -/
def recordGrains (s : Dev) (seq code inst witness wbit suppressed flags detail : Nat) : List Grain :=
  [BitVec.ofNat 72 (seq % 2 ^ 32 * 2 ^ 40 + code % 2 ^ 16 * 2 ^ 24 + inst % 2 ^ 16 * 2 ^ 8 + s.chainAddr % 256),
   s.bracket,
   BitVec.ofNat 72 (witness % 2 ^ 40 * 2 ^ 32 + wbit % 256 * 2 ^ 24 + suppressed % 2 ^ 16 * 2 ^ 8 + flags % 256),
   BitVec.ofNat 72 detail]

/-- Slots written one after another with noun marks. -/
def Dev.writeGrains (s : Dev) (slot : Nat) : List Grain → Dev
  | [] => s
  | g :: rest => (s.writeSlot slot (g, 0)).writeGrains (slot + 1) rest

/-- The fill of a partition's event ring (R394). -/
def Dev.ringFill (s : Dev) (p : Nat) : Nat :=
  (s.fld Reg.INTG_EVT_HEAD.head p + 8192 - s.fld Reg.INTG_EVT_TAIL.tail p) % 8192

/-- A device whose two uplinks are out of RUN sends its LOG and ALARM records on the events channel (R323). -/
def Dev.relayRecord (s : Dev) (p cls : Nat) (grains : List Grain) : Dev :=
  if 1 ≤ cls ∧ !s.uplinkUp 0 ∧ !s.uplinkUp 1 ∧ (s.flkUp 0 ∨ s.flkUp 1) then
    s.ringSend chEvents (some s.chainAddr) (.event (Fin.ofNat 16 p) grains) else s

/-- Push a record over KMP where push_en and push_min say so (R398). -/
def Dev.pushRecord (s : Dev) (p cls : Nat) (grains : List Grain) : Dev :=
  if s.flag Reg.INTG_EVT_RING.push_en p ∧ s.fld Reg.INTG_EVT_CFG.push_min ≤ cls then
    let r := s.part p
    (s.setPart p { r with pushed := r.pushed ++ [grains], pushSince := if r.pushed.isEmpty then s.now else r.pushSince }).relayRecord
      p cls grains
  else s.relayRecord p cls grains

/-- The next sequence number of a partition's records, taken. -/
def Dev.takeSeq (s : Dev) (p : Nat) : Dev := s.setPart p { s.part p with evtSeq := (s.part p).evtSeq + 1 }

/-- Write a record at the head of a partition's ring (R394). -/
def Dev.ringPut (s : Dev) (p : Nat) (grains : List Grain) : Dev :=
  let h := s.fld Reg.INTG_EVT_HEAD.head p
  (s.writeGrains (s.fld Reg.INTG_EVT_RING.ring_base p + 4 * (h % 4096)) grains).setF Reg.INTG_EVT_HEAD.head ((h + 1) % 8192) p

/-- The count kept of a record that its ring does not take (R394, R396). -/
def Dev.countLost (s : Dev) (p cls : Nat) : Dev :=
  if cls = 0 then s.bump Reg.INTG_EVT_STAT.trace_dropped p
  else if cls = 1 then s.bump Reg.INTG_EVT_STAT.log_suppressed p
  else s.bump Reg.INTG_EVT_STAT.alarm_unwritten p

/-- Does the ring at this fill take a record of the class (R396)? -/
def ringTakes (fill cls : Nat) : Bool :=
  if cls = 0 then fill < 3072 else if cls = 1 then fill < 3840 else fill < 4096

/-- Write an admitted record to its ring, or withhold it by the ring's fill, and push it (R394, R396, R398). -/
def Dev.record (s : Dev) (e : Event) (code flags : Nat) : Dev :=
  let key := unitKey e.kind e.inst
  let src := s.evtSrc key
  let p := e.owner
  let grains := recordGrains s ((s.part p).evtSeq + 1) code e.inst e.witness e.wbit (min src.suppressed 65535) flags e.detail
  let sent := (s.stamped.setEvtSrc key { src with suppressed := 0, lastCode := 0 }).takeSeq p
  if s.fld Reg.INTG_EVT_RING.enable p = 0 then
    if s.flag Reg.INTG_EVT_RING.push_en p ∧ s.fld Reg.INTG_EVT_CFG.push_min ≤ e.cls
    then (sent.countLost p e.cls).pushRecord p e.cls grains
    else s.countLost p e.cls
  else if ringTakes (s.ringFill p) e.cls then (sent.ringPut p grains).pushRecord p e.cls grains
  else if e.cls = 1 then (s.setEvtSrc key { src with suppressed := src.suppressed + 1 }).countLost p 1
  else if e.cls = 2 ∧ s.flag Reg.INTG_EVT_RING.push_en p then (sent.countLost p 2).pushRecord p 2 grains
  else s.countLost p e.cls

/-- Tokens of a source refilled up to the present instant (R395). -/
def Dev.refill (s : Dev) (key : Nat) : Dev :=
  let src := s.evtSrc key
  let rate := s.fld Reg.INTG_EVT_CFG.evt_rate
  let gained := (s.now - src.refilledAt) * rate / Config.msPs
  if src.spent ≤ gained then s.setEvtSrc key { src with spent := 0, refilledAt := s.now }
  else if gained = 0 then s
  else s.setEvtSrc key { src with spent := src.spent - gained, refilledAt := src.refilledAt + gained * Config.msPs / rate }

/-- Has the source a token (R395)? -/
def Dev.hasToken (s : Dev) (key : Nat) : Bool := (s.evtSrc key).spent < s.fld Reg.INTG_EVT_CFG.evt_burst

/-- The source with one token taken. -/
def Dev.takeToken (s : Dev) (key : Nat) : Dev :=
  let src := s.evtSrc key
  s.setEvtSrc key { src with spent := src.spent + 1, refilledAt := if src.spent = 0 then s.now else src.refilledAt }

/-- The summary record of a source that has a token again (R395). -/
def Dev.summaryRecord (s : Dev) (kind inst owner : Nat) : Dev :=
  let key := unitKey kind inst
  let src := s.evtSrc key
  if src.lastCode ≠ 0 ∧ s.hasToken key then
    (s.takeToken key).record ⟨1, kind, inst, owner, 0, 0, 0, 0⟩ src.lastCode 2
  else s

/-- The word and bit of an ALARM condition in the summary (R397). -/
def alarmBit (kind cond : Nat) : Nat × Nat := ((8 * kind + cond) / 64, (8 * kind + cond) % 64)

/-- The counter field of an ALARM condition (R397). -/
def alarmCountFld (n : Nat) : Reg.Fld :=
  if n % 4 = 0 then Reg.INTG_ALARM_COUNT.count0 else if n % 4 = 1 then Reg.INTG_ALARM_COUNT.count1
  else if n % 4 = 2 then Reg.INTG_ALARM_COUNT.count2 else Reg.INTG_ALARM_COUNT.count3

/-- An ALARM enters the device-wide summary and its counter (R397). -/
def Dev.summarise (s : Dev) (kind cond : Nat) : Dev :=
  let b := alarmBit kind cond
  let n := 8 * kind + cond
  (s.setF Reg.INTG_ALARM.summary (s.fld Reg.INTG_ALARM.summary b.1 ||| 2 ^ b.2) b.1).bump (alarmCountFld n) (n / 4)

/-- The ALARM pin (R397). -/
def Dev.alarmPin (s : Dev) : Bool :=
  (List.range 4).any (fun i => s.fld Reg.INTG_ALARM.summary i &&& s.fld Reg.INTG_ALARM_MASK.mask i != 0)

/-- Does a record of the class come to be now: its ring takes it, or it is pushed (R394, R396, R398)? -/
def Dev.ringAdmits (s : Dev) (p cls : Nat) : Bool :=
  (s.fld Reg.INTG_EVT_RING.enable p != 0 && ringTakes (s.ringFill p) cls) ||
    (s.flag Reg.INTG_EVT_RING.push_en p && decide (s.fld Reg.INTG_EVT_CFG.push_min ≤ cls))

/-- An event is attributed, rate-limited and written to its ring, summary and notices (R392–R397); an ALARM record withheld within
alarm_holdoff counts in its source's next record, as a withheld LOG record does (R393, R395). -/
def Dev.raise (s : Dev) (ev : Event) : Dev :=
  let e := { ev with owner := s.kmp.asker.getD ev.owner }
  let key := unitKey e.kind e.inst
  if e.cls = 2 then
    let a := (s.summarise e.kind e.cond).notice e.owner 0 (BitVec.ofNat 64 e.code)
    let n := 8 * e.kind + e.cond
    if s.now < s.alarmHold n then
      let src := a.evtSrc key
      a.setEvtSrc key { src with suppressed := src.suppressed + 1 }
    else
      let due := s.now + s.fld Reg.INTG_EVT_CFG.alarm_holdoff * Config.msPs
      (if s.ringAdmits e.owner 2 then a.setAlarmHold n due else a).record e e.code 0
  else
    let a := ((s.refill key).summaryRecord e.kind e.inst e.owner)
    let b := if e.cls = 1 then a.notice e.owner 1 (BitVec.ofNat 64 e.code) else a
    if b.hasToken key then (b.takeToken key).record e e.code 0
    else if e.cls = 0 then b.bump Reg.INTG_EVT_STAT.trace_dropped e.owner
    else
      let src := b.evtSrc key
      (b.setEvtSrc key { src with suppressed := src.suppressed + 1, lastCode := e.code }).bump
        Reg.INTG_EVT_STAT.log_suppressed e.owner

/-- A LOG event. -/
def Dev.log (s : Dev) (kind inst owner : Nat) (detail : Nat := 0) (witness : Nat := 0) (wbit : Nat := 0) : Dev :=
  s.raise ⟨1, kind, inst, owner, 0, witness, wbit, detail⟩

/-- An ALARM event. -/
def Dev.alarm (s : Dev) (kind cond inst owner : Nat) (detail : Nat := 0) (witness : Nat := 0) (wbit : Nat := 0) : Dev :=
  s.raise ⟨2, kind, inst, owner, cond, witness, wbit, detail⟩

/-- A TRACE event. -/
def Dev.trace (s : Dev) (kind inst owner : Nat) (detail : Nat := 0) (witness : Nat := 0) (wbit : Nat := 0) : Dev :=
  s.raise ⟨0, kind, inst, owner, 0, witness, wbit, detail⟩

/-- A LOG and an ALARM event whose witness is a field of a status register that the event updates (R393). -/
def Dev.logAt (s : Dev) (f : Reg.Fld) (i j : Nat) (kind inst owner : Nat) (detail : Nat := 0) : Dev :=
  s.log kind inst owner detail (f.addr i j 0) f.lo
def Dev.alarmAt (s : Dev) (f : Reg.Fld) (i j : Nat) (kind cond inst owner : Nat) (detail : Nat := 0) : Dev :=
  s.alarm kind cond inst owner detail (f.addr i j 0) f.lo

/-- An event of a source kind whose witness is a counter field that the event updates (R393). -/
def Dev.countAnd (s : Dev) (f : Reg.Fld) (i j : Nat) (cls kind inst owner cond detail : Nat) : Dev :=
  (s.bump f i j).raise ⟨cls, kind, inst, owner, cond, f.addr i j 0, f.lo, detail⟩

end Sys2Proof.Machine
end

