-- ==== Sys2Proof/Machine/Operands.lean ====
section
/-! DEFINITION. Grain shapes and samples (R39–R42), fixed-point rounding and saturation (R5, R6), the context sequence
(R129), and the CRC of R380. -/

namespace Sys2Proof.Machine

/-- Samples in a grain of a shape (R40). -/
def shapeN : Nat → Nat
  | 0 => 8
  | 1 => 6
  | 2 => 4
  | 3 => 3
  | 4 => 2
  | _ => 1

/-- Bits of a sample of a shape (R40). -/
def shapeW : Nat → Nat
  | 0 => 9
  | 1 => 12
  | 2 => 18
  | 3 => 24
  | 4 => 36
  | _ => 72

/-- Is a sample of the shape signed (R40)? -/
def shapeSigned (sh : Nat) : Bool := sh == 3 || sh == 4

/-- The raw bits of sample i of a grain (R39). -/
def rawSample (sh : Nat) (g : Grain) (i : Nat) : Nat := (g.toNat >>> (shapeW sh * i)) % 2 ^ shapeW sh

/-- The value of raw sample bits: G8x9 reads its value field, G3x24 and G2x36 are two's complement (R40). -/
def sampleValue (sh raw : Nat) : Int :=
  if sh = 0 then (raw % 256 : Nat) else if shapeSigned sh then toSigned (shapeW sh) raw else (raw : Nat)

/-- The flag bit of a G8x9 sample (R40). -/
def sampleFlag (sh raw : Nat) : Bool := sh == 0 && raw.testBit 8

/-- The raw samples of a grain. -/
def rawSamples (sh : Nat) (g : Grain) : List Nat := (List.range (shapeN sh)).map (rawSample sh g)

/-- A grain from its raw samples, sample 0 first; positions not given are zero (R42). -/
def packGrain (sh : Nat) (xs : List Nat) : Grain :=
  BitVec.ofNat 72 (xs.reverse.foldl (fun n x => n * 2 ^ shapeW sh + x % 2 ^ shapeW sh) 0)

/-- Samples cut into grains. -/
def chunks {α : Type} (n fuel : Nat) (xs : List α) : List (List α) :=
  match fuel with
  | 0 => []
  | fuel + 1 => if xs.isEmpty then [] else xs.take n :: chunks n fuel (xs.drop n)

/-- Grains that a line of `width` samples fills (R42, R44): a line of width 0 has one grain. -/
def grainsOfWidth (sh width : Nat) : Nat := if width = 0 then 1 else (width + shapeN sh - 1) / shapeN sh

/-- The samples of a line's data grains in a shape: every position but those that its ending grain leaves unused (R42, R44). -/
def lineSamples (sh : Nat) (data : List Cell) : Nat :=
  data.length * shapeN sh - ((data.getLast?.map (fun c => unusedOf c.2)).getD 0)

/-- Clamp to a range. -/
def clampI (lo hi x : Int) : Int := max lo (min hi x)

/-- Saturate to n unsigned bits (R6). -/
def satU (w : Nat) (x : Int) : Int := clampI 0 (2 ^ w - 1) x

/-- Saturate to n two's-complement bits (R6). -/
def satS (w : Nat) (x : Int) : Int := clampI (-(2 ^ (w - 1))) (2 ^ (w - 1) - 1) x

/-- Saturate to the sample range of a shape. -/
def satShape (sh : Nat) (x : Int) : Int :=
  if sh = 0 then satU 8 x else if shapeSigned sh then satS (shapeW sh) x else satU (shapeW sh) x

/-- The raw code of a sample value of a shape. -/
def rawOf (sh : Nat) (x : Int) : Nat := if sh = 0 then (x % 256).toNat else ofSigned (shapeW sh) x

/-- One bit of a CRC register kept most significant bit first. -/
def crcBit (w poly : Nat) (reg : Nat) (bit : Bool) : Nat :=
  let top := reg.testBit (w - 1) ^^ bit
  ((reg <<< 1) % 2 ^ w) ^^^ (if top then poly % 2 ^ w else 0)

/-- One bit of a CRC register kept least significant bit first, `rpoly` being the reflected polynomial. -/
def crcBitR (rpoly : Nat) (reg : Nat) (bit : Bool) : Nat :=
  (reg >>> 1) ^^^ (if reg.testBit 0 ^^ bit then rpoly else 0)

/-- A number of w bits with its bits in reverse order. -/
def reflectBits (w n : Nat) : Nat := (List.range w).foldl (fun a i => 2 * a + (if n.testBit i then 1 else 0)) 0

/-- A CRC register fed with one byte (R382: the register is in the bit order of reflect_in). -/
def crcByte (w poly : Nat) (refl : Bool) (reg : Nat) (b : Byte) : Nat :=
  if refl then (List.range 8).foldl (fun r i => crcBitR (reflectBits w poly) r (b.getLsbD i)) reg
  else (List.range 8).foldl (fun r i => crcBit w poly r (b.getLsbD (7 - i))) reg

/-- A CRC register fed with bytes. -/
def crcFeed (w poly : Nat) (refl : Bool) (reg : Nat) (bs : List Byte) : Nat := bs.foldl (crcByte w poly refl) reg

/-- CRC-32C of bytes (R380). -/
def crc32c (bs : List Byte) : Nat := crcFeed 32 0x1EDC6F41 true 0xFFFFFFFF bs ^^^ 0xFFFFFFFF

/-- CRC-64/ECMA-182 of bytes (R380). -/
def crc64 (bs : List Byte) : Nat := crcFeed 64 0x42F0E1EBA9EA3693 false 0 bs

/-- A number as n little-endian bytes (R4). -/
def leBytes (n v : Nat) : List Byte := (List.range n).map (fun i => BitVec.ofNat 8 (v >>> (8 * i)))

/-- The number in little-endian bytes. -/
def ofLeBytes (bs : List Byte) : Nat := bs.reverse.foldl (fun n b => n * 256 + b.toNat) 0

/-- A slice of a byte list. -/
def slice (bs : List Byte) (off n : Nat) : List Byte := (bs.drop off).take n

/-- The nine bytes of a grain (R81). -/
def grainBytes (g : Grain) : List Byte := (List.range 9).map (grainByte g)

/-- The sequence entry of a grid line (R129): seq_len is kept minus 1. -/
def seqEntry (c : RegFile) (n : Nat) : Nat :=
  (n + c.fld Reg.MARN_SEQ_CFG.seq_phase) % (c.fld Reg.MARN_SEQ_CFG.seq_len + 1)

/-- The context of a grid line (R129). -/
def ctxOfIndex (c : RegFile) (n : Nat) : Nat := c.fld Reg.MARN_SEQ.context (seqEntry c n)

/-- The grid indices of a context are spaced by the distance between its entries: the least k ≥ 1 such that n + k has the context. -/
def nextOfCtx (c : RegFile) (ctx n : Nat) : Nat :=
  ((List.range 16).find? (fun k => ctxOfIndex c ((n + k + 1) % 2 ^ 48) == ctx)).elim ((n + 1) % 2 ^ 48)
    (fun k => (n + k + 1) % 2 ^ 48)

/-- Spacing of a context in the sequence around grid index n (R131, R201): the distance to its next line. -/
def spacingOf (c : RegFile) (ctx n : Nat) : Nat := (nextOfCtx c ctx n + 2 ^ 48 - n) % 2 ^ 48

/-- Does grid index a come before b, modulo 2^48? -/
def before48 (a b : Nat) : Bool := a != b && (b + 2 ^ 48 - a) % 2 ^ 48 < 2 ^ 47

/-- The grid index of the boundary at which this device commits: the announced one, or where an edge has moved it (R271). -/
def Dev.commitIndex (s : Dev) : Option Nat :=
  s.img.boundary.map (fun b =>
    ((s.marn.bounds.find? (fun x => x.block == b.2 && x.epoch.isNone)).map (fun x => x.index)).getD b.1)

/-- The configuration of a grid line that a commit has not still to change: below the last commit on this grid the one before it (R272). -/
def Dev.pastCfg (s : Dev) (n : Nat) : RegFile :=
  match s.img.before with
  | some (b, c) => if before48 n b then c else s.regs
  | none => s.regs

/-- The configuration of a grid line in Marionette (R272): the staged one from the boundary of the commit on. -/
def Dev.lineCfg (s : Dev) (n : Nat) : RegFile :=
  match s.commitIndex, s.img.staged with
  | some b, some c => if before48 n b then s.pastCfg n else c.cfg
  | _, _ => s.pastCfg n

/-! ### The position model and the grid (R119, R120, R123, R131) -/

/-- A product of a raw speed and a span of the timebase, in 2^-32 counts, times this. -/
def speedUnit : Int := 16777216000

/-- The model at a timebase instant (R119), in whole units of 2^-32 counts at or below it: it has reached a position of the grid, which
is such a whole number, exactly when this has. -/
def Model.at_ (m : Model) (t : Int) : Int := m.p + m.v * (t - m.tk) / speedUnit

/-- The model at a timebase instant, exactly (R119): in 1/speedUnit of 2^-32 counts. -/
def Model.exact (m : Model) (t : Int) : Int := m.p * speedUnit + m.v * (t - m.tk)

/-- The model position now; 0 before any sample. -/
def Dev.posNow (s : Dev) : Int := (s.marn.model.map (fun m => m.at_ s.tbNow)).getD 0

/-- The origin of the grid, in counts (R123). -/
def Dev.origin (s : Dev) : Int := s.marn.origin

/-- The number of grid lines from the origin to the model position, before any wrap of the index. -/
def Dev.rawIndex (s : Dev) : Int := (s.posNow - s.origin * 2 ^ 32) / (max 1 (s.fld Reg.MARN_PITCH.pitch) : Nat)

/-- The boundary announced now: the first one not reached. -/
def Dev.nextBound (s : Dev) : Option Bound := s.marn.bounds.find? (fun b => b.epoch.isNone)

/-- The nominal boundary after another (R131); where the index would pass 2^48 − 1 it lies at 0 with cause 4 (R125). -/
def Dev.boundAfter (s : Dev) (b : Bound) : Bound :=
  let n := b.index + s.fld Reg.MARN_BLOCK.length + 1
  if n < 2 ^ 48 then ⟨n, (b.block + 1) % 2 ^ 32, 0, false, none⟩ else ⟨0, (b.block + 1) % 2 ^ 32, 4, false, none⟩

/-- The grid index of the present instant (R124): that of the model where it has gone past the one shown. -/
def Dev.liveIndex (s : Dev) : Nat :=
  if s.marn.model.isSome ∧ s.marn.gridOn ∧ s.marn.stopped.isNone ∧ 0 ≤ s.rawIndex then
    let idx := (s.rawIndex % 2 ^ 48).toNat
    if !s.marn.seen ∨ before48 s.gridIndex idx then idx else s.gridIndex
  else s.gridIndex

/-- The block of the present instant and the cause of its boundary (R131): the last boundary at or below the live grid index, nominal ones
being counted on from it. -/
def Dev.liveBlock (s : Dev) : Nat × Nat :=
  match (s.marn.bounds.filter (fun b => b.epoch.isNone && !before48 s.liveIndex b.index)).getLast? with
  | none => (s.fld Reg.MARN_BLOCK_STAT.block_number, s.fld Reg.MARN_BLOCK_STAT.cause)
  | some b =>
    let k := (s.liveIndex + 2 ^ 48 - b.index) % 2 ^ 48 / (s.fld Reg.MARN_BLOCK.length + 1)
    if k = 0 then (b.block, b.cause) else ((b.block + k) % 2 ^ 32, if s.liveIndex < b.index then 4 else 0)

end Sys2Proof.Machine
end

