-- ==== Sys2Proof/Machine/Flags.lean ====
section
/-! DEFINITION. Blemish flags (R43, R45) and the codes of completion causes and record kinds (R366, R367). -/

namespace Sys2Proof.Machine

/-- No blemish. -/
def Blemish.clear : Blemish := ⟨false, false⟩
/-- The blemish flags of a mark. -/
def Blemish.of (m : Mark) : Blemish := ⟨suspect m, synthetic m⟩
/-- A computed grain carries the OR of its inputs' flags (R45). -/
def Blemish.or (a b : Blemish) : Blemish := ⟨a.sus || b.sus, a.syn || b.syn⟩
/-- The OR over contributing inputs (R45). -/
def Blemish.all (bs : List Blemish) : Blemish := bs.foldl Blemish.or Blemish.clear
/-- A mark with these flags. -/
def Blemish.mark (b : Blemish) (code : Nat) : Mark := Machine.mark b.sus b.syn code

/-- Completion statuses (R366). -/
def stDone : Nat := 0
def stFailed : Nat := 1
def stAborted : Nat := 2

/-- Completion causes (R367). -/
def caGrammar : Nat := 1
def caOversizeLine : Nat := 2
def caLate : Nat := 4
def caTimeout : Nat := 5
def caCount : Nat := 6
def caCrc : Nat := 7
def caLength : Nat := 8
def caOverrun : Nat := 9
def caOverspeed : Nat := 10
def caResidue : Nat := 11
def caMosaicGap : Nat := 12
def caNack : Nat := 13
def caBusTimeout : Nat := 14
def caReadback : Nat := 15
def caRetry : Nat := 16
def caRemoteAccess : Nat := 17
def caLinkDown : Nat := 18
def caOversize : Nat := 19
def caRange : Nat := 20
def caDisabled : Nat := 32
def caCancelled : Nat := 33
def caPartAbort : Nat := 34
def caDrainTimeout : Nat := 35
def caWarmReset : Nat := 36
def caSession : Nat := 37
def caDrained : Nat := 38

/-- KMP status codes (R296). -/
def ksOk : Nat := 0
def ksRange : Nat := 1
def ksEcc : Nat := 2
def ksAlign : Nat := 3
def ksBusy : Nat := 4
def ksUnreachable : Nat := 5
def ksLength : Nat := 6
def ksOpcode : Nat := 7

/-- Line flags of a tag (R47). -/
def lfLate : Nat := 1
def lfDivergent : Nat := 2
def lfIntegrated : Nat := 4
def lfStitched : Nat := 8
def lfResampled : Nat := 16

/-- Is a flag bit set in line flags? -/
def hasFlag (flags f : Nat) : Bool := flags &&& f != 0

end Sys2Proof.Machine
end

