-- ==== Sys2Proof/Machine/Queue.lean ====
section
/-! DEFINITION. The queue fabric (R51–R68, R236, R237, R388, R441): producer and consumer operations, line-commit and tap
modes, taps, digests, breakpoints, the completion writer (R361–R366) and the grammar reader every consumer uses. -/

namespace Sys2Proof.Machine

/-! ### Pointers (R53–R56) -/

/-- k of a queue: it holds 2^k slots. -/
def Dev.qk (s : Dev) (q : Nat) : Nat := s.fld Reg.QD_BASE.size_log2 q
/-- Slots of a queue. -/
def Dev.qSize (s : Dev) (q : Nat) : Nat := 2 ^ s.qk q
/-- Pointer modulus (R55). -/
def Dev.qMod (s : Dev) (q : Nat) : Nat := 2 ^ (s.qk q + 1)
/-- The slot that a pointer addresses (R55). -/
def Dev.slotAt (s : Dev) (q p : Nat) : Nat := s.fld Reg.QD_BASE.base q * 64 + p % s.qSize q
/-- A difference of pointers (R55). -/
def Dev.ptrDiff (s : Dev) (q a b : Nat) : Nat := (a + s.qMod q - b % s.qMod q) % s.qMod q
def Dev.wp (s : Dev) (q : Nat) : Nat := s.fld Reg.QD_PROD.write_ptr q
def Dev.cp (s : Dev) (q : Nat) : Nat := s.fld Reg.QD_PROD.commit_ptr q
def Dev.rp (s : Dev) (q : Nat) : Nat := s.fld Reg.QD_CONS.read_ptr q
def Dev.mp (s : Dev) (q : Nat) : Nat := s.fld Reg.QD_CONS.mark_ptr q
def Dev.lp (s : Dev) (q : Nat) : Nat := s.fld Reg.QD_FILL.release_ptr q
/-- Occupancy (R55). -/
def Dev.occ (s : Dev) (q : Nat) : Nat := s.ptrDiff q (s.wp q) (s.lp q)
/-- Fill (R55). -/
def Dev.fill (s : Dev) (q : Nat) : Nat := s.ptrDiff q (s.cp q) (s.rp q)
/-- Slots written and not committed. -/
def Dev.uncommitted (s : Dev) (q : Nat) : Nat := s.ptrDiff q (s.wp q) (s.cp q)
def Dev.qShape (s : Dev) (q : Nat) : Nat := s.fld Reg.QD_BASE.shape q
/-- Is the queue a tap-lossy tap queue (R66)? -/
def Dev.qLossy (s : Dev) (q : Nat) : Bool := s.fld Reg.QD_BASE.tap_mode q == 2
/-- Does the queue hold lines back until they commit (R64, R66)? -/
def Dev.qLineCommit (s : Dev) (q : Nat) : Bool := s.flag Reg.QD_BASE.line_commit q || s.qLossy q
/-- A queue in use that is not a table region (R54, R67). -/
def Dev.qLive (s : Dev) (q : Nat) : Bool := s.flag Reg.QD_BASE.enable q && !s.flag Reg.QD_BASE.table q
/-- A live queue whose pointers move: the queue-memory island (482) is not halted (R439). -/
def Dev.qMoves (s : Dev) (q : Nat) : Bool := s.qLive q && !s.isHalted 482
/-- The queue has no free slot (R58). -/
def Dev.qFull (s : Dev) (q : Nat) : Bool := s.qSize q ≤ s.occ q

/-- Raise the fill watches that name a queue (R353). -/
def Dev.watches (s : Dev) (p q : Nat) : Dev :=
  (List.range 32).foldl (fun s k =>
    if s.fld Reg.PART_WATCH.queue p k = q then s.notice p (32 + k) (BitVec.ofNat 64 q) else s) s

/-- paced_high follows the fill (R56). -/
def Dev.pace (s : Dev) (q : Nat) : Dev :=
  if s.fld Reg.QD_BASE.high_mark q ≤ s.fill q then
    if s.flag Reg.QD_FILL.paced_high q then s
    else (s.setF Reg.QD_FILL.paced_high 1 q).watches (s.queueOwner q) q
  else if s.fill q ≤ s.fld Reg.QD_FILL.low_mark q then s.setF Reg.QD_FILL.paced_high 0 q
  else s

/-! ### Breakpoints (R439, R441) -/

/-- The islands of the fabric (R439): 0–514 but Marionette. -/
def fabricIslands : List Nat := (List.range 515).filter (fun i => i != 480)

/-- The registers that name a unit's output queue, with the first island of the unit (R407). -/
def producerFlds : List (Reg.RegDef × Reg.Fld × Nat) :=
  [(Reg.SPORT_STREAM_A, Reg.SPORT_STREAM_A.out_q, 483), (Reg.TILE_CTRL, Reg.TILE_CTRL.out_q, 0),
   (Reg.TILE_CTRL, Reg.TILE_CTRL.copy_q, 0), (Reg.KAL_OUT, Reg.KAL_OUT.out_q, 272),
   (Reg.PGR_STREAM_A, Reg.PGR_STREAM_A.out_q, 304), (Reg.JIG_OUT, Reg.JIG_OUT.out_q, 336),
   (Reg.JIG_EXPORT, Reg.JIG_EXPORT.exp_q, 336), (Reg.JIG_COL_CFG, Reg.JIG_COL_CFG.out_q, 336),
   (Reg.ABA_CTRL, Reg.ABA_CTRL.rec_q, 352)]

/-- The registers that name a unit's input queue. -/
def consumerFlds : List (Reg.RegDef × Reg.Fld × Nat) :=
  [(Reg.TILE_CTRL, Reg.TILE_CTRL.in_q, 0), (Reg.TILE_CTRL2, Reg.TILE_CTRL2.y_q, 0), (Reg.KAL_CTRL, Reg.KAL_CTRL.in_q, 272),
   (Reg.PGR_STREAM_A, Reg.PGR_STREAM_A.in_q, 304), (Reg.JIG_IN, Reg.JIG_IN.in_q, 336),
   (Reg.JIG_REMOTE, Reg.JIG_REMOTE.rem_q, 336), (Reg.ABA_CTRL, Reg.ABA_CTRL.in_q, 352)]

/-- The island whose unit uses a queue's port, by the configuration; the queue-memory island (482) where no unit does. -/
def Dev.portIsland (s : Dev) (onRead : Bool) (q : Nat) : Nat :=
  (s.regs.findSome? (fun aw =>
    (if onRead then consumerFlds else producerFlds).findSome? (fun rf =>
      match rf.1.locate aw.1 with
      | none => none
      | some h => if fieldOf rf.2.1 aw.2 = q then some (rf.2.2 + h.i) else none))).getD 482

/-- The device with islands halted. -/
def Dev.haltIslands (s : Dev) (is : List Nat) : Dev :=
  { s with halted := s.halted ++ is.filter (fun i => !s.halted.contains i) }

/-- Does a breakpoint match a grain on a queue's port? -/
def BreakRec.matches (b : BreakRec) (onRead : Bool) (q : Nat) (c : Cell) : Bool :=
  b.armed && b.onRead == onRead && b.queue == q && (b.codeAny || b.code == codeOf c.2)
    && ((c.1 ^^^ b.value) &&& b.mask) == 0

/-- Breakpoint i is hit: recorded, disarmed, its island (and with fabric_on_hit the fabric) halted (R441). -/
def Dev.breakHit (s : Dev) (onRead : Bool) (q ptr i : Nat) : Dev :=
  let isl := s.portIsland onRead q
  let a := (((s.setBreakAt i { s.breakAt i with armed := false }).setF Reg.DBG_HIT.hit (s.fld Reg.DBG_HIT.hit ||| 2 ^ i)).setF
    Reg.DBG_HIT_INFO.pointer ptr i).setF Reg.DBG_HIT_INFO.island isl i
  (a.haltIslands (if s.flag Reg.DBG_CTRL.fabric_on_hit then fabricIslands else [isl].filter fabricIslands.contains)).logAt Reg.DBG_HIT.hit 0 0 15 0 0

/-- Every armed breakpoint is compared with a grain passing a port (R441). -/
def Dev.breakCheck (s : Dev) (onRead : Bool) (q ptr : Nat) (c : Cell) : Dev :=
  if s.breaks.isEmpty then s
  else (List.range 16).foldl (fun s i => if (s.breakAt i).matches onRead q c then s.breakHit onRead q ptr i else s) s

/-! ### Twin digests (R388) -/

/-- The source queues named by the descriptors that wait in a channel's desc_q (R298, R299): four grains each. -/
def Dev.waitingSources (s : Dev) (ch : Nat) : List Nat :=
  let q := s.fld Reg.DMA_CH_CFG.desc_q ch
  if s.qLive q then
    (List.range (s.fill q / 4)).map (fun i => (slotGrain s.mem (s.slotAt q (s.rp q + 4 * i))).toNat % 2 ^ 15)
  else []

/-- Is a queue the source of an enabled remote channel that sends pixel lines: in use there, or named by a descriptor appended to it? -/
def Dev.digestQueue (s : Dev) (q : Nat) : Bool :=
  s.regs.any (fun aw =>
    match Reg.DMA_CH_CTRL.locate aw.1 with
    | none => false
    | some h => fieldOf Reg.DMA_CH_CTRL.enable aw.2 == 1 && s.fld Reg.DMA_CH_CFG.kind h.i == 0 && s.fld Reg.DMA_CH_CFG.pack h.i != 5 &&
        ((s.chan h.i).srcQ == some q || (s.chan h.i).started.any (fun x => x.d.srcQ == q) || (s.waitingSources h.i).contains q))

/-- Is an ordinal the out_ordinal of an enabled Jigsaw unit (R215)? -/
def Dev.seamOrdinal (s : Dev) (o : Nat) : Bool :=
  (List.range 16).any (fun j => s.flag Reg.JIG_CTRL.enable j && s.fld Reg.JIG_CTRL.out_ordinal j == o)

/-- The cells from pointer p, n of them. -/
def Dev.cellsFrom (s : Dev) (q p n : Nat) : List Cell := (List.range n).map (fun i => s.slotCell (s.slotAt q (p + i)))

/-- The colon with its line flags taken as zero (R388). -/
def tagNoFlags (g : Grain) : Grain := ({ Tag.of g with flags := 0 } : Tag).grain

/-- The digest entry of a committed line or ellipsis (R388, R389). -/
def digestOf (cells : List Cell) (half : Bool) (q ptr now : Nat) : Digest :=
  let g := (cells.headD (0, 0)).1
  let t := Tag.of g
  let ell := codeOf (cells.headD (0, 0)).2 == cEllipsis
  let data := if ell then [] else cells.drop 2
  { index := t.index, ordinal := t.ordinal, ellipsis := ell, halfSeam := half
    touched := ell || half || hasFlag t.flags lfLate || hasFlag t.flags lfDivergent
      || cells.any (fun c => suspect c.2 || synthetic c.2)
    digest := crc64 (grainBytes (tagNoFlags g) ++ data.flatMap (fun c => grainBytes c.1))
    at_ := now, queue := q, colonPtr := some ptr }

/-- The divergent flag is set in a stored colon that its channel has not read (R391). -/
def Dev.flagDivergent (s : Dev) (d : Digest) : Dev :=
  match d.colonPtr with
  | none => s
  | some p =>
    let slot := s.slotAt d.queue p
    if s.slotErr slot = .double then s
    else s.writeSlot slot ((s.slotCell slot).1 ||| BitVec.ofNat 72 (2 ^ 49), (s.slotCell slot).2)

/-- Own entries forget the places of colons that a queue no longer holds unread (R391). -/
def Dev.colonsGone (s : Dev) (q : Nat) (gone : Nat → Bool) : Dev :=
  let forget := fun (d : Digest) => if d.queue == q && d.colonPtr.any gone then { d with colonPtr := none } else d
  if s.twin.own.any (fun d => d.queue == q && d.colonPtr.any gone) then
    { s with twin := { s.twin with own := s.twin.own.map forget } }
  else s

/-- An own entry and the twin's for the same line are compared (R390, R391). -/
def Dev.compareDigests (s : Dev) (own twin : Digest) : Dev :=
  let touched := own.touched || twin.touched
  let detail := own.index + own.ordinal * 2 ^ 48 + (if own.touched then 2 ^ 55 else 0) + (if twin.touched then 2 ^ 56 else 0)
  if own.ellipsis != twin.ellipsis then s.bump Reg.INTG_TWIN_STAT.onesided
  else if own.digest = twin.digest ∨ own.ellipsis then s
  else
    (if touched then s.countAnd Reg.INTG_TWIN_STAT.diverged 0 0 1 13 0x8000 0 0 detail
      else s.countAnd Reg.INTG_TWIN_STAT.diverged_clean 0 0 2 13 0x8000 0 0 detail).flagDivergent own

/-- Are two entries of the same line (R390)? -/
def Digest.pairs (a b : Digest) : Bool := a.index == b.index && a.ordinal == b.ordinal

/-- An own entry meets the twin's entry that waits for it, or waits itself. -/
def Dev.ownDigest (s : Dev) (d : Digest) : Dev :=
  match s.twin.theirs.find? d.pairs with
  | none => { s with twin := { s.twin with own := s.twin.own ++ [d] } }
  | some t => { s with twin := { s.twin with theirs := s.twin.theirs.erase t } }.compareDigests d t

/-- An entry of the twin meets the own entry that waits for it, or waits itself. -/
def Dev.twinDigestIn (s : Dev) (t : Digest) : Dev :=
  match s.twin.own.find? t.pairs with
  | none => { s with twin := { s.twin with theirs := s.twin.theirs ++ [t] } }
  | some d => { s with twin := { s.twin with own := s.twin.own.erase d } }.compareDigests d t

/-- A line or ellipsis commits to a digested queue (R388): its entry waits for the twin. -/
def Dev.digestLine (s : Dev) (q ptr : Nat) (cells : List Cell) : Dev :=
  if s.flag Reg.FLK_TWIN.twin_en ∧ s.digestQueue q then
    let t := Tag.of (cells.headD (0, 0)).1
    let d := digestOf cells (s.seamOrdinal t.ordinal && !hasFlag t.flags lfStitched) q ptr s.now
    { s with twin := { s.twin with unsent := s.twin.unsent ++ [d] } }.ownDigest d
  else s

/-- A grain stored in a digested queue that is not in line-commit mode (R388): the line in progress grows by it, and is digested with its
ending grain. -/
def Dev.digestGrain (s : Dev) (q ptr : Nat) (c : Cell) : Dev :=
  if s.flag Reg.FLK_TWIN.twin_en ∧ s.digestQueue q then
    let r := s.queue q
    let code := codeOf c.2
    let free := fun (a : Dev) => a.setQueue q { a.queue q with lineCells := [] }
    if code = cColon then s.setQueue q { r with lineAt := ptr, lineCells := [c] }
    else if code = cEllipsis then (free s).digestLine q ptr [c]
    else if code = cPilcrow then free s
    else if r.lineCells.isEmpty then s
    else if code = cComma ∨ code = cStop then (free s).digestLine q r.lineAt (r.lineCells ++ [c])
    else s.setQueue q { r with lineCells := r.lineCells ++ [c] }
  else s

/-! ### One producer write at a queue (R57–R66) -/

/-- What a tap mirrors of its source (R236): a stored grain (the queue's own or the producer's), or a discard. -/
inductive TapAct where
  | copy (c : Cell) (own : Bool)
  | discard
  deriving DecidableEq, Repr

/-- A line that a queue ends: the queue, its tag and cause, always FAILED. -/
structure LineEnd where
  queue : Nat
  tag : Grain
  cause : Nat
  deriving DecidableEq, Repr

/-- The outcome of a write at one queue. -/
structure QOut where
  dev : Dev
  taps : List TapAct
  ends : List LineEnd
  deriving DecidableEq, Repr

/-- Does a stored grain commit the queue (R64)? `openLine` says that a line is uncommitted. -/
def commits (lineCommit openLine : Bool) (code : Nat) : Bool :=
  !lineCommit || code == cComma || code == cStop || ((code == cPilcrow || code == cEllipsis) && !openLine)

/-- Store a grain at write_ptr and advance it; commit as R64 says. -/
def Dev.qStore (s : Dev) (q : Nat) (c : Cell) : Dev :=
  let w := s.wp q
  let w' := (w + 1) % s.qMod q
  let r := s.queue q
  let code := codeOf c.2
  let openLine := s.uncommitted q != 0
  let lc := s.qLineCommit q
  let a := (s.writeSlot (s.slotAt q w) c).setF Reg.QD_PROD.write_ptr w' q
  let b := a.setQueue q { r with
    openTag := if lc && code == cColon then some c.1 else if commits lc openLine code then none else r.openTag
    lastBlock := if code = cPilcrow then pilBlockOf c.1 else r.lastBlock
    commits := if lc && commits lc openLine code then r.commits ++ [(w', s.now)] else r.commits }
  let d := if commits lc openLine code then
      let e := b.setF Reg.QD_PROD.commit_ptr w' q
      if !lc then e.digestGrain q w c
      else if code == cEllipsis || (openLine && (code == cComma || code == cStop))
      then e.digestLine q (s.cp q) (e.cellsFrom q (s.cp q) (s.ptrDiff q w' (s.cp q))) else e
    else b
  (d.pace q).breakCheck false q w c

/-- Discard the uncommitted grains of a queue (R57). -/
def Dev.qDrop (s : Dev) (q : Nat) : Dev :=
  (s.setF Reg.QD_PROD.write_ptr (s.cp q) q).setQueue q { s.queue q with openTag := none }

/-- A queue discards its uncommitted line and writes the ellipsis that carries its tag (R64, R65). -/
def Dev.qFailLine (s : Dev) (q cause : Nat) : QOut :=
  match (s.queue q).openTag with
  | none => ⟨s.qDrop q, [.discard], []⟩
  | some t => ⟨(s.qDrop q).qStore q (t, mkCode cEllipsis), [.discard, .copy (t, mkCode cEllipsis) true], [⟨q, t, cause⟩]⟩

/-- Store a grain, and fail a line that has come to fill its line-commit queue alone (R65). -/
def Dev.qStoreChecked (s : Dev) (q : Nat) (c : Cell) : QOut :=
  let a := s.qStore q c
  if s.qLineCommit q && !s.qLossy q && s.qSize q ≤ a.uncommitted q then
    let o := a.qFailLine q caOversizeLine
    let b := o.dev.setQueue q { o.dev.queue q with dropping := .line }
    ⟨b.alarm 0 1 q (s.queueOwner q), .copy c false :: o.taps, o.ends⟩
  else ⟨a, [.copy c false], []⟩

/-- Count a line or ellipsis that a tap-lossy queue drops (R66, R237). -/
def Dev.countTapDrop (s : Dev) (q : Nat) (via : Option Nat) : Dev :=
  let a := s.bump Reg.QFAB_TAP_DROPS.lines (s.queueOwner q)
  match via with
  | none => a
  | some t => a.bump Reg.ABA_TAP_STAT.lines_dropped t

/-- A write that finds a tap-lossy queue full (R66). -/
def Dev.qLossyDrop (s : Dev) (q : Nat) (c : Cell) (via : Option Nat) : QOut :=
  let code := codeOf c.2
  let p := s.queueOwner q
  let r := s.queue q
  if code = cPilcrow then
    ⟨((s.setQueue q { r with dropping := .block, lastBlock := pilBlockOf c.1 }).countAnd Reg.QFAB_TAP_DROPS.punct p 0 1 0 q p 0
      (pilBlockOf c.1 + 2 ^ 71)), [], []⟩
  else if code = cStop ∧ s.uncommitted q = 0 then
    ⟨s.countAnd Reg.QFAB_TAP_DROPS.punct p 0 1 0 q p 0 (r.lastBlock + 2 ^ 71), [], []⟩
  else if code = cEllipsis then
    ⟨(s.countTapDrop q via).log 0 q p (Tag.of c.1).index (Reg.QFAB_TAP_DROPS.lines.addr p 0 0) 0, [], []⟩
  else
    let idx := (Tag.of (if code = cColon then c.1 else r.openTag.getD 0)).index
    let a := (s.qDrop q).setQueue q
      { r with openTag := none, dropping := if code = cComma ∨ code = cStop then .nothing else .line }
    ⟨(a.countTapDrop q via).log 0 q p idx (Reg.QFAB_TAP_DROPS.lines.addr p 0 0) 0, [.discard], []⟩

/-- Append a grain to those that wait in the producer's crossing (R58). -/
def Dev.qHold (s : Dev) (q : Nat) (c : Cell) : Dev :=
  let r := s.queue q
  s.setQueue q { r with held := r.held ++ [c] }

/-- A write that no dropping takes: tap-lossy drop, forced discard (R64), wait (R58) or store. -/
def Dev.qAdmit (s : Dev) (q : Nat) (c : Cell) (via : Option Nat) : QOut :=
  let code := codeOf c.2
  if s.qLossy q && s.qFull q then s.qLossyDrop q c via
  else if s.qLineCommit q && s.uncommitted q != 0 && (code == cPilcrow || code == cEllipsis) then
    let o := s.qFailLine q caGrammar
    let a := if o.ends.isEmpty then o.dev else o.dev.log 0 q (s.queueOwner q)
    if a.qFull q then ⟨a.qHold q c, o.taps, o.ends⟩
    else
      let o2 := a.qStoreChecked q c
      ⟨o2.dev, o.taps ++ o2.taps, o.ends ++ o2.ends⟩
  else if s.qFull q then ⟨s.qHold q c, [], []⟩
  else s.qStoreChecked q c

/-- One producer write at a queue, its taps and line ends left to the caller (R57–R66). -/
def Dev.qStep (s : Dev) (q : Nat) (c : Cell) (via : Option Nat) : QOut :=
  let code := codeOf c.2
  let r := s.queue q
  let free := s.setQueue q { r with dropping := .nothing }
  if code = cIdle then ⟨s.bump Reg.QFAB_IDLE_WRITES.count, [], []⟩
  else match r.dropping with
    | .nothing => s.qAdmit q c via
    | .line =>
      if code = cComma ∨ code = cStop then ⟨free, [], []⟩
      else if code = cColon ∨ code = cEllipsis ∨ code = cPilcrow then free.qAdmit q c via
      else ⟨s, [], []⟩
    | .block =>
      if code = cPilcrow then free.qAdmit q c via
      else if code = cColon ∨ code = cEllipsis then ⟨s.countTapDrop q via, [], []⟩
      else ⟨s, [], []⟩

/-! ### Taps (R51, R236, R237) -/

/-- The grammar position after one grain (R51), with the tag of a line that the grain violates and whether it violates. -/
def gramStep (pos : GramPos) (c : Cell) : GramPos × Option Grain × Bool :=
  let code := codeOf c.2
  match pos with
  | .outside => if code = cPilcrow then (.block, none, false) else (.skipOut, none, true)
  | .skipOut => if code = cPilcrow then (.block, none, false) else (.skipOut, none, false)
  | .block =>
    if code = cColon then (.afterColon c.1, none, false) else if code = cEllipsis then (.block, none, false)
    else if code = cStop ∧ c.1 = 0 then (.outside, none, false) else if code = cPilcrow then (.block, none, true)
    else (.skipIn, none, true)
  | .skipIn =>
    if code = cColon then (.afterColon c.1, none, false) else if code = cEllipsis ∨ code = cPilcrow then (.block, none, false)
    else (.skipIn, none, false)
  | .afterColon t =>
    if code = cBracket then (.inLine t, none, false)
    else if code = cColon then (.afterColon c.1, some t, true)
    else if code = cEllipsis ∨ code = cPilcrow then (.block, some t, true) else (.skipIn, some t, true)
  | .inLine t =>
    if code = cNoun then (.inLine t, none, false) else if code = cComma then (.block, none, false)
    else if code = cStop then (.outside, none, false)
    else if code = cColon then (.afterColon c.1, some t, true)
    else if code = cEllipsis ∨ code = cPilcrow then (.block, some t, true) else (.skipIn, some t, true)

/-- What a tap writes to tap_q for a grain of its source (R51, R236), from its grammar position: the position after it; whether the
copy of the line in progress is discarded; the cells; and whether the grain violates the grammar. In place of a line that the
violation falls in stands an ellipsis, and a block that a new pilcrow cuts short ends with a bare full stop. -/
def tapGrammar (pos : GramPos) (c : Cell) : GramPos × Bool × List Cell × Bool :=
  let st := gramStep pos c
  let code := codeOf c.2
  let cut : List Cell := if code = cPilcrow ∧ pos ≠ .outside ∧ pos ≠ .skipOut then [bareStop] else []
  let ell : List Cell := (st.2.1.map (fun t => (t, mkCode cEllipsis))).toList
  let kept : List Cell := if st.1 = .skipIn ∨ st.1 = .skipOut then [] else cut ++ [c]
  (st.1, st.2.1.isSome, ell ++ kept, st.2.2)


/-- The enabled tap of a source queue: its number and tap_q. -/
def Dev.tapOf (s : Dev) (q : Nat) : Option (Nat × Nat) :=
  s.regs.findSome? (fun aw =>
    match Reg.ABA_TAP.locate aw.1 with
    | none => none
    | some h =>
      if fieldOf Reg.ABA_TAP.enable aw.2 = 1 ∧ fieldOf Reg.ABA_TAP.src_q aw.2 = q
      then some (h.i, fieldOf Reg.ABA_TAP.tap_q aw.2) else none)

/-- Must a producer's write to a queue wait: for its own space (R58), or for the space of a lossless tap (R237)? -/
def Dev.qWaits (fuel : Nat) (s : Dev) (q : Nat) : Bool :=
  match fuel with
  | 0 => false
  | fuel + 1 =>
    s.isHalted 482 || !(s.queue q).held.isEmpty || (!s.qLossy q && s.qFull q) ||
      (match s.tapOf q with
       | none => false
       | some t => !s.qLossy t.2 && (!(s.queue t.2).copyBuf.isEmpty || s.qWaits fuel t.2))

/-- A tap counts the lines and ellipses that a copy commits to tap_q (R237); a full stop after a comma, an ellipsis or a pilcrow is
bare and ends no line. -/
def Dev.tapCount (before after : Dev) (t tq : Nat) (g : Grain × Mark) : Dev :=
  let w := before.wp tq
  let last := codeOf (before.slotCell (before.slotAt tq ((w + before.qMod tq - 1) % before.qMod tq))).2
  let ends := codeOf g.2 == cComma || codeOf g.2 == cEllipsis ||
    (codeOf g.2 == cStop && last != cComma && last != cEllipsis && last != cPilcrow && last != cStop)
  if ends && after.cp tq != before.cp tq then after.bump Reg.ABA_TAP_STAT.lines_copied t else after

/-- A tap's discard (R236): the uncommitted grains of tap_q, and of the tap queues behind it. -/
def Dev.tapDrop (fuel : Nat) (s : Dev) (q : Nat) : Dev :=
  match fuel with
  | 0 => s
  | fuel + 1 =>
    let a := if s.qLineCommit q then s.qDrop q else s
    let b := a.setQueue q { a.queue q with tapGram := match (a.queue q).tapGram with
      | .afterColon _ => .block
      | .inLine _ => .block
      | p => p }
    match s.tapOf q with
    | none => b
    | some t => b.tapDrop fuel t.2

/-- A write reaches a queue and, through its taps, every tap queue behind it, in the order of the source (R236); a copy that tap_q has
no room for waits in the copy buffer (R237). Line ends of a tap queue are dropped: a copy is not an item (R361). -/
def Dev.qFlow (fuel : Nat) (s : Dev) (q : Nat) (c : Cell) (via : Option Nat) : Dev × List LineEnd :=
  match fuel with
  | 0 => (s, [])
  | fuel + 1 =>
    let o := s.qStep q c via
    match s.tapOf q with
    | none => (o.dev, o.ends)
    | some t =>
      (o.taps.foldl (fun d act =>
        match act with
        | .discard => d.tapDrop 64 t.2
        | .copy g _ =>
          let w := tapGrammar (d.queue t.2).tapGram g
          let a := d.setQueue t.2 { d.queue t.2 with tapGram := w.1 }
          let b := if w.2.1 && a.qLineCommit t.2 then a.tapDrop 64 t.2 else a
          let e := if w.2.2.2 then b.log 0 q (s.queueOwner q) (s.wp q) else b
          w.2.2.1.foldl (fun d x =>
            if !d.qLossy t.2 && (!(d.queue t.2).copyBuf.isEmpty || d.qWaits 64 t.2) then
              d.setQueue t.2 { d.queue t.2 with copyBuf := (d.queue t.2).copyBuf ++ [x] }
            else d.tapCount (d.qFlow fuel t.2 x (some t.1)).1 t.1 t.2 x) (e.setQueue t.2 { e.queue t.2 with tapGram := w.1 })) o.dev, o.ends)

/-! ### The completion writer (R361–R367) -/

/-- The grain CR0 (R366). -/
def cr0Of (kind status cause : Nat) (valid lost : Bool) (unit ordinal low : Nat) : Grain :=
  BitVec.ofNat 72 (kind % 256 * 2 ^ 64 + status % 4 * 2 ^ 62 + cause % 64 * 2 ^ 56 + (if valid then 2 ^ 55 else 0)
    + (if lost then 2 ^ 54 else 0) + unit % 2 ^ 15 * 2 ^ 39 + ordinal % 128 * 2 ^ 32 + low % 2 ^ 32)

/-- The grains CR1 and CR2 (R366). -/
def cr12Of (index low : Nat) : Grain := BitVec.ofNat 72 (index % 2 ^ 48 * 2 ^ 24 + low % 2 ^ 24)

/-- The record of a closed run (R363, R366). -/
def Run.record (r : Run) : CompRec :=
  let t := Tag.of r.firstTag
  ⟨some r.firstTag, cr0Of 1 r.status r.cause true false r.queue t.ordinal r.count,
   cr12Of t.index (t.gen * 2 ^ 16), cr12Of r.lastIdx 0, 0⟩

/-- The colon of a record that is no line run (R366): with the grid index at the instant of writing. -/
def Dev.recordTag (s : Dev) (p : Nat) : Grain :=
  ({ ctx := 0, gen := 0, ordinal := s.fld Reg.PART_CQ.cq_ordinal p, flags := 0, index := s.liveIndex } : Tag).grain

/-- The cells of a record line (R366). -/
def Dev.recordCells (s : Dev) (p : Nat) (r : CompRec) : List Cell :=
  [(r.tag.getD (s.recordTag p), mkCode cColon), (s.bracket, mkCode cBracket), (r.cr0, 0), (r.cr1, 0), (r.cr2, 0), (r.cr3, mkCode cComma)]

/-- The block punctuation before the first record of a block number (R366). -/
def Dev.recordPunct (s : Dev) (p : Nat) : List Cell :=
  let b := s.liveBlock.1
  let pil := (pilcrowGrain b s.liveBlock.2 s.epoch, mkCode cPilcrow)
  match (s.part p).cqBlock with
  | none => [pil]
  | some b' => if b' = b then [] else [bareStop, pil]

/-- Write one record to cq_q, which has room (R366); a grain that a lossless tap of cq_q has no room for waits (R237); the record raises
notice 2 or 3 (R353). -/
def Dev.putRecord (s : Dev) (p : Nat) (r : CompRec) : Dev :=
  let q := s.fld Reg.PART_CQ.cq_q p
  let cells := s.recordPunct p ++ s.recordCells p r
  let a := cells.foldl (fun d c => if d.qWaits 64 q then d.qHold q c else (d.qFlow 64 q c none).1) s.stamped
  let b := (a.setPart p { a.part p with cqBlock := some s.liveBlock.1 }).bump Reg.PART_STAT.records p
  let st := bits r.cr0 63 62
  let detail : BitVec 64 := r.cr0.setWidth 64
  if st = stFailed then b.notice p 2 detail else if st = stAborted then b.notice p 3 detail else b

/-- Has cq_q room for the next record? -/
def Dev.cqRoom (s : Dev) (p : Nat) (r : CompRec) : Bool :=
  let q := s.fld Reg.PART_CQ.cq_q p
  s.occ q + (s.recordPunct p ++ s.recordCells p r).length ≤ s.qSize q && !s.qWaits 64 q

/-- A record that finds cq_q and the 64-record buffer full stalls the partition's units (R365). -/
def Dev.cqStall (s : Dev) (p : Nat) : Dev :=
  if (s.part p).stalled then s
  else ((((s.setPart p { s.part p with stalled := true }).countAnd Reg.PART_STAT2.cq_stalls p 0 2 12 p p 0 0)).notice p 9 0)

/-- A completion record is written, buffered, or stalls its partition (R365, R366). -/
def Dev.complete (s : Dev) (p : Nat) (r : CompRec) : Dev :=
  if s.fld Reg.PART_CQ.cq_enable p = 0 then s
  else if (s.part p).buffer.isEmpty && s.cqRoom p r then s.putRecord p r
  else
    let a := s.setPart p { s.part p with buffer := (s.part p).buffer ++ [r] }
    if 64 < (a.part p).buffer.length then a.cqStall p else a

/-- Does a line extend an open run (R363)? -/
def Run.extends (c : RegFile) (r : Run) (q status cause : Nat) (t : Tag) : Bool :=
  let f := Tag.of r.firstTag
  r.queue == q && f.ctx == t.ctx && f.ordinal == t.ordinal && r.status == status && r.cause == cause
    && nextOfCtx c t.ctx r.lastIdx == t.index

/-- Is an open run of the same queue, context and ordinal? -/
def Run.sameLine (r : Run) (q : Nat) (t : Tag) : Bool :=
  let f := Tag.of r.firstTag
  r.queue == q && f.ctx == t.ctx && f.ordinal == t.ordinal

/-- The queues whose lines are copies or records and therefore no items (R361): each register with its queue field and what makes
the unit write there. -/
def copyFlds : List (Reg.RegDef × Reg.Fld × (Word → Bool)) :=
  [(Reg.QD_BASE, Reg.QD_BASE.tap_mode, fun _ => false),
   (Reg.TILE_CTRL, Reg.TILE_CTRL.copy_q, fun w => [Reg.TILE_CTRL.op0, Reg.TILE_CTRL.op1, Reg.TILE_CTRL.op2, Reg.TILE_CTRL.op3].any
     (fun f => fieldOf f w == 12)),
   (Reg.JIG_EXPORT, Reg.JIG_EXPORT.exp_q, fun w => fieldOf Reg.JIG_EXPORT.enable w == 1),
   (Reg.JIG_REMOTE, Reg.JIG_REMOTE.rem_q, fun w => fieldOf Reg.JIG_REMOTE.enable w == 1),
   (Reg.ABA_CTRL, Reg.ABA_CTRL.rec_q, fun w => fieldOf Reg.ABA_CTRL.enable w == 1),
   (Reg.PART_CQ, Reg.PART_CQ.cq_q, fun w => fieldOf Reg.PART_CQ.cq_enable w == 1)]

/-- Does a queue hold copies or records only: of a tap, of CPY, of an export or a remote side, of an Abacus unit or of a completion writer? -/
def Dev.copyQueue (s : Dev) (q : Nat) : Bool :=
  s.fld Reg.QD_BASE.tap_mode q != 0 ||
    s.regs.any (fun aw => copyFlds.any (fun rf => (rf.1.locate aw.1).isSome && rf.2.2 aw.2 && fieldOf rf.2.1 aw.2 == q))

/-- A line item ends (R362): it extends its run, or closes the run it does not extend and opens one (R363). A copy is no item (R361). -/
def Dev.endLine (s : Dev) (q : Nat) (tag : Grain) (status cause : Nat) : Dev :=
  if s.copyQueue q then s else
  let p := s.queueOwner q
  let t := Tag.of tag
  let rs := (s.part p).runs
  if rs.any (fun r => r.extends s.regs q status cause t) then
    s.setPart p { s.part p with runs := rs.map (fun r =>
      if r.extends s.regs q status cause t then { r with lastIdx := t.index, count := r.count + 1 } else r) }
  else
    let a := s.setPart p { s.part p with
      runs := rs.filter (fun r => !r.sameLine q t) ++ [⟨q, tag, t.index, 1, status, cause⟩] }
    (rs.filter (fun r => r.sameLine q t)).foldl (fun d r => d.complete p r.record) a

/-- Close the open runs of a queue that satisfy a condition (R363: at each end of block). -/
def Dev.closeRuns (s : Dev) (q : Nat) (which : Run → Bool) : Dev :=
  let p := s.queueOwner q
  let rs := (s.part p).runs
  let a := s.setPart p { s.part p with runs := rs.filter (fun r => !(r.queue == q && which r)) }
  (rs.filter (fun r => r.queue == q && which r)).foldl (fun d r => d.complete p r.record) a

/-! ### The producer port (R57, R58) -/

/-- The line ends that a queue reports are recorded (R52). -/
def Dev.endAll (s : Dev) (es : List LineEnd) : Dev := es.foldl (fun d e => d.endLine e.queue e.tag stFailed e.cause) s

/-- A producer's write: waits in its crossing, or reaches the queue and its taps (R57–R66, R236). A queue not in use
has no ports. -/
def Dev.qWrite (s : Dev) (q : Nat) (c : Cell) : Dev :=
  if !s.qLive q then s
  else if codeOf c.2 != cIdle && (s.queue q).dropping == .nothing && s.qWaits 64 q then s.qHold q c
  else
    let o := s.qFlow 64 q c none
    let a := o.1.endAll o.2
    if codeOf c.2 = cStop then a.closeRuns q (fun r => r.status != stDone) else a

/-- A producer's grains, one after another. -/
def Dev.qWriteAll (s : Dev) (q : Nat) (cs : List Cell) : Dev := cs.foldl (fun d c => d.qWrite q c) s

/-- The producer's discard (R57), mirrored by the taps (R236). -/
def Dev.qDiscard (fuel : Nat) (s : Dev) (q : Nat) : Dev :=
  match fuel with
  | 0 => s
  | fuel + 1 =>
    if s.qMoves q && s.qLineCommit q then
      match s.tapOf q with
      | none => s.qDrop q
      | some t => (s.qDrop q).tapDrop fuel t.2
    else s

/-- Does a producer's write wait at this queue (R58)? -/
def Dev.qStalled (s : Dev) (q : Nat) : Bool := !(s.queue q).held.isEmpty

/-! ### The consumer port (R46, R60) -/

/-- What a queue read delivers of a slot (R46). -/
def Dev.portCell (s : Dev) (slot : Nat) : Cell :=
  match s.slotErr slot with
  | .clean => s.slotCell slot
  | .single => ((s.slotCell slot).1, (s.slotCell slot).2 ||| 0x80)
  | .double => (0, mark true true cNoun)

/-- The ALARM of an uncorrectable queue read (R46). -/
def Dev.eccAlarm (s : Dev) (q slot : Nat) : Dev :=
  if s.slotErr slot = .double then s.alarm 0 0 q (s.queueOwner q) slot else s

/-- Move the read pointer on by one. -/
def Dev.advance (s : Dev) (q : Nat) : Dev := s.setF Reg.QD_CONS.read_ptr ((s.rp q + 1) % s.qMod q) q

/-- A consumer read (R60, R61): the grain delivered, and the device after it. -/
def Dev.qRead (s : Dev) (q : Nat) : Cell × Dev :=
  if !s.qMoves q || s.fill q = 0 then (idleCell, s)
  else
    let slot := s.slotAt q (s.rp q)
    let c := s.portCell slot
    (c, ((((s.eccAlarm q slot).colonsGone q (fun p => p == s.rp q)).advance q).pace q).breakCheck true q (s.rp q) c)

/-- The consumer's mark (R60). -/
def Dev.qMark (s : Dev) (q : Nat) : Dev :=
  if s.qMoves q then
    (s.setF Reg.QD_CONS.mark_ptr (s.rp q) q).setQueue q { s.queue q with gramMark := (s.queue q).gram }
  else s

/-- The consumer's rewind (R60, R63). -/
def Dev.qRewind (s : Dev) (q : Nat) : Dev :=
  if s.qMoves q then
    ((s.setF Reg.QD_CONS.read_ptr (s.mp q) q).setQueue q { s.queue q with gram := (s.queue q).gramMark }).pace q
  else s

/-- Free the slots up to a pointer (R60, R63, R282): mark_ptr is never left behind release_ptr. -/
def Dev.releaseTo (s : Dev) (q p : Nat) : Dev :=
  let r := s.queue q
  let passed := s.ptrDiff q p (s.lp q)
  let a := (s.setF Reg.QD_FILL.release_ptr p q).setQueue q
    { r with commits := r.commits.filter (fun e => passed < s.ptrDiff q e.1 (s.lp q)) }
  if s.ptrDiff q (s.mp q) (s.lp q) < passed then a.setF Reg.QD_CONS.mark_ptr p q else a

/-- The consumer's release (R60). -/
def Dev.qRelease (s : Dev) (q : Nat) : Dev :=
  if s.qMoves q then
    (s.releaseTo q (s.rp q)).setF Reg.QD_CONS.mark_ptr (s.rp q) q |>.setQueue q
      { (s.releaseTo q (s.rp q)).queue q with gramMark := (s.queue q).gram }
  else s

/-! ### The grammar reader (R51) -/

/-- What a consumer takes from its queue: a pilcrow (with the old block unended, `cut`), a line with its ending grain
among the data, an ellipsis, a bare full stop, a line lost to a grammar violation (as the ellipsis of its colon, with the colon's blemish
flags), or only discarded grains. -/
inductive Item where
  | pil (c : Cell) (cut : Bool)
  | line (colon bracket : Cell) (data : List Cell)
  | ell (c : Cell)
  | stop
  | bad (c : Cell)
  | noise
  deriving DecidableEq, Repr

/-- Does a line's ending grain end the block too? -/
def endsBlock (data : List Cell) : Bool := (data.getLast?.map (fun c => codeOf c.2 == cStop)).getD false

/-- The outcome of a scan: the item, grains read, the grammar position after it, whether a violation was met. -/
structure Scan where
  item : Item
  n : Nat
  gram : GramPos
  violation : Bool
  deriving DecidableEq, Repr

/-- A grain met at a place where it violates the grammar of a line: the line is lost, and the grain is kept for the next
scan where reading resumes at it (R51). -/
def lineViolation (n code : Nat) (lost : Cell) : Scan :=
  if code = cColon ∨ code = cEllipsis ∨ code = cPilcrow then ⟨.bad lost, n, .skipIn, true⟩ else ⟨.bad lost, n + 1, .skipIn, true⟩

/-- The ellipsis that stands for a line lost to the grammar (R45, R51): its tag, under the flags of its colon where that is at hand. -/
def lostCell (tag : Grain) (colon : Cell) : Cell := (tag, if colon.1 = tag then withCode colon.2 cEllipsis else mkCode cEllipsis)

/-- Scan the visible grains for one item, from a grammar position (R51): a bare full stop has the value zero. None: nothing whole is
visible yet. -/
def scanItem (pos : GramPos) (n : Nat) (colon bracket : Cell) (acc : List Cell) : List Cell → Option Scan
  | [] =>
    match pos with
    | .skipIn => if n = 0 then none else some ⟨.noise, n, .skipIn, false⟩
    | .skipOut => if n = 0 then none else some ⟨.noise, n, .skipOut, false⟩
    | _ => none
  | c :: rest =>
    let code := codeOf c.2
    match pos with
    | .outside =>
      if code = cPilcrow then some ⟨.pil c false, n + 1, .block, false⟩
      else some ⟨.noise, n + 1, .skipOut, true⟩
    | .skipOut =>
      if code = cPilcrow then some ⟨.pil c false, n + 1, .block, false⟩
      else scanItem .skipOut (n + 1) colon bracket acc rest
    | .block =>
      if code = cColon then scanItem (.afterColon c.1) (n + 1) c bracket [] rest
      else if code = cEllipsis then some ⟨.ell c, n + 1, .block, false⟩
      else if code = cStop ∧ c.1 = 0 then some ⟨.stop, n + 1, .outside, false⟩
      else if code = cPilcrow then some ⟨.pil c true, n + 1, .block, true⟩
      else some ⟨.noise, n + 1, .skipIn, true⟩
    | .skipIn =>
      if code = cColon then scanItem (.afterColon c.1) (n + 1) c bracket [] rest
      else if code = cEllipsis then some ⟨.ell c, n + 1, .block, false⟩
      else if code = cPilcrow then some ⟨.pil c true, n + 1, .block, false⟩
      else scanItem .skipIn (n + 1) colon bracket acc rest
    | .afterColon tag =>
      if code = cBracket then scanItem (.inLine tag) (n + 1) colon c [] rest
      else some (lineViolation n code (lostCell tag colon))
    | .inLine tag =>
      if code = cNoun then scanItem (.inLine tag) (n + 1) colon bracket (c :: acc) rest
      else if code = cComma then some ⟨.line colon bracket (c :: acc).reverse, n + 1, .block, false⟩
      else if code = cStop then some ⟨.line colon bracket (c :: acc).reverse, n + 1, .outside, false⟩
      else some (lineViolation n code (lostCell tag colon))

/-- A line whose width differs from the consumer's setting is a violation (R51). -/
def checkWidth (sh : Nat) (width : Option Nat) (sc : Scan) : Scan :=
  match sc.item, width with
  | .line colon _ data, some w =>
    if lineSamples sh data = w then sc else ⟨.bad (lostCell colon.1 colon), sc.n, .skipIn, true⟩
  | _, _ => sc

/-- The grains a consumer can see, as its port delivers them. -/
def Dev.visible (s : Dev) (q : Nat) : List Cell :=
  (List.range (s.fill q)).map (fun i => s.portCell (s.slotAt q (s.rp q + i)))

/-- The next item of a queue, not yet taken. -/
def Dev.peekItem (s : Dev) (q : Nat) (width : Option Nat) : Option Scan :=
  if s.qMoves q then
    (scanItem (s.queue q).gram 0 idleCell idleCell [] (s.visible q)).map (checkWidth (s.qShape q) width)
  else none

/-- Read the grains of an item: errors are reported, breakpoints compared, the pointer moved (R46, R60, R441). -/
def Dev.readN (s : Dev) (q : Nat) : Nat → Dev
  | 0 => s
  | n + 1 => ((s.qRead q).2).readN q n

/-- Take an item: its grains are read; a violation raises its LOG event, and ends the line it falls in FAILED GRAMMAR. -/
def Dev.takeScan (s : Dev) (q : Nat) (sc : Scan) : Dev :=
  let a := s.readN q sc.n
  let b := a.setQueue q { a.queue q with gram := sc.gram }
  let d := if sc.violation then b.log 0 q (s.queueOwner q) (s.rp q) else b
  match sc.item with
  | .bad c => d.endLine q c.1 stFailed caGrammar
  | _ => d

/-- Does an item end the block of its queue? -/
def Item.closes : Item → Bool
  | .stop => true
  | .line _ _ data => endsBlock data
  | .pil _ cut => cut
  | _ => false

/-- Release what has been read, closing the runs of a block whose end was read (R363). -/
def Dev.releaseItem (s : Dev) (q : Nat) (it : Item) : Dev :=
  if it.closes then (s.qRelease q).closeRuns q (fun _ => true) else s.qRelease q

/-- The release of an input by a unit that writes to queues (R170, R227): at once, or when the last of its grains has left the crossing. -/
def Dev.releaseDue (s : Dev) (q : Nat) (closes : Bool) (outs : List Nat) : Dev :=
  match outs.find? s.qStalled with
  | some o => s.setQueue o { s.queue o with owed := (s.queue o).owed ++ [.release q closes outs] }
  | none => if closes then (s.qRelease q).closeRuns q (fun _ => true) else s.qRelease q

/-- An item that has been read is released once everything written for it has left the crossings of the output queues. -/
def Dev.releaseAfter (s : Dev) (q : Nat) (it : Item) (outs : List Nat) : Dev := s.releaseDue q it.closes outs

/-! ### Lines that a unit commits (R172, R192, R210, R228) -/

/-- Has a write of a grain stored and committed the end of a line? A full stop after a comma, an ellipsis, a pilcrow or a full stop is bare. -/
def lineCommitted (before after : Dev) (q : Nat) (c : Cell) : Bool :=
  let w := before.wp q
  let last := codeOf (before.slotCell (before.slotAt q ((w + before.qMod q - 1) % before.qMod q))).2
  (codeOf c.2 == cComma || (codeOf c.2 == cStop && (last == cNoun || last == cBracket))) &&
    after.wp q == (w + 1) % before.qMod q && after.cp q != before.cp q

/-- A producer's grains, one after another, and how many lines they commit. -/
def Dev.qWriteLines (s : Dev) (q : Nat) (cs : List Cell) : Dev × Nat :=
  cs.foldl (fun d c =>
    let a := d.1.qWrite q c
    (a, if lineCommitted d.1 a q c then d.2 + 1 else d.2)) (s, 0)

/-- A unit's counter of committed lines moves up. -/
def Tally.bump (s : Dev) (n : Nat) : Tally → Dev
  | .tile t => s.bump Reg.TILE_STAT.lines t 0 0 n
  | .pgr u st => s.bump Reg.PGR_STAT.lines u st 0 n
  | .jig j => s.bump Reg.JIG_STAT.lines j 0 0 n

/-- A queue's writer owes something more, once. -/
def Dev.owing (s : Dev) (q : Nat) (d : Debt) : Dev :=
  if (s.queue q).owed.contains d then s else s.setQueue q { s.queue q with owed := (s.queue q).owed ++ [d] }

/-- A unit's grains are written to its output queue, and the lines among them are counted as they commit. -/
def Dev.qEmit (s : Dev) (who : Tally) (q : Nat) (cs : List Cell) : Dev :=
  let w := s.qWriteLines q cs
  let a := if w.2 = 0 then w.1 else who.bump w.1 w.2
  if a.qStalled q then a.owing q (.lines who) else a

/-- Does a line of n grains fit a queue, so that R65 does not fail it? -/
def Dev.lineFits (s : Dev) (q n : Nat) : Bool := !s.qLineCommit q || s.qLossy q || n < s.qSize q

/-- An aligned set counts once none of its output queues holds grains of it back (R192). -/
def Dev.setDue (s : Dev) (u : Nat) (outs : List Nat) : Dev :=
  match outs.find? s.qStalled with
  | some o => s.setQueue o { s.queue o with owed := (s.queue o).owed ++ [.set u outs] }
  | none => s.bump Reg.KAL_STAT.lines u

/-- What a writer owed is done. -/
def Dev.payOwed (s : Dev) : Debt → Dev
  | .release q closes outs => s.releaseDue q closes outs
  | .lines _ => s
  | .set u outs => s.setDue u outs

/-- The lines that held grains have committed are counted by the unit that wrote them. -/
def Dev.tallyHeld (s : Dev) (q n : Nat) : Dev :=
  if n = 0 then s
  else (s.queue q).owed.foldl (fun d o => match o with
    | .lines who => who.bump d n
    | _ => d) s

/-- Held grains are written while space lasts (R58); once none waits, the writer does what it owed. -/
def Dev.qResume (s : Dev) (q : Nat) : Dev :=
  let cs := (s.queue q).held
  let w := (s.setQueue q { s.queue q with held := [] }).qWriteLines q cs
  let a := w.1.tallyHeld q w.2
  if a.qStalled q then a
  else (a.queue q).owed.foldl (fun d o => d.payOwed o) (a.setQueue q { a.queue q with owed := [] })

/-! ### Completion and tap resumption -/

/-- Buffered records are written while cq_q has room (R365). -/
def Dev.drainBuffer (s : Dev) (p : Nat) : Nat → Dev
  | 0 => s
  | n + 1 =>
    match (s.part p).buffer with
    | [] => s
    | r :: rest =>
      if s.cqRoom p r then ((s.setPart p { s.part p with buffer := rest }).putRecord p r).drainBuffer p n else s

/-- Tap copies that waited in the copy buffer are written while tap_q has room (R237). -/
def Dev.drainCopies (s : Dev) (a tq : Nat) : Nat → Dev
  | 0 => s
  | n + 1 =>
    match (s.queue tq).copyBuf with
    | [] => s
    | c :: rest =>
      if s.qWaits 64 tq then s
      else
        let b := s.setQueue tq { s.queue tq with copyBuf := rest }
        (b.tapCount (b.qFlow 64 tq c (some a)).1 a tq c).drainCopies a tq n

/-! ### Tables and buffers (R67, R377) -/

/-- Write the grains that met a buffer error off to integrity condition 3 (R377). -/
def Dev.bufferAlarms (s : Dev) (kind inst n : Nat) : Dev :=
  (List.range n).foldl (fun d _ => d.alarm 13 3 0x8000 0 (kind * 2 ^ 16 + inst)) s

/-- The table region in use that holds a slot. -/
def Dev.regionOf (s : Dev) (slot : Nat) : Option Nat :=
  s.regs.findSome? (fun aw =>
    match Reg.QD_BASE.locate aw.1 with
    | none => none
    | some h =>
      let b := fieldOf Reg.QD_BASE.base aw.2 * 64
      if fieldOf Reg.QD_BASE.enable aw.2 = 1 ∧ fieldOf Reg.QD_BASE.table aw.2 = 1 ∧ b ≤ slot ∧
        slot < b + 2 ^ fieldOf Reg.QD_BASE.size_log2 aw.2 then some h.i else none)

/-! ### Scratch regions and rings (R164, R188, R209) -/

/-- What a unit reads at a slot of its scratch region: the grain and its flags, a corrected one suspect, an uncorrectable one zero under
both flags with the ALARM of its region (R46). -/
def Dev.scratchCell (s : Dev) (slot : Nat) : Cell × Dev :=
  (s.portCell slot, match s.slotErr slot with
    | .double => s.eccAlarm ((s.regionOf slot).getD 0) slot
    | _ => s)

/-- n slots of a scratch region read one after another. -/
def Dev.scratchSpan (s : Dev) (slot : Nat) : Nat → List Cell × Dev
  | 0 => ([], s)
  | n + 1 =>
    let c := s.scratchCell slot
    let rest := c.2.scratchSpan (slot + 1) n
    (c.1 :: rest.1, rest.2)

/-- Cells written to slots one after another under fresh check bits. -/
def Dev.scratchPut (s : Dev) (slot : Nat) : List Cell → Dev
  | [] => s
  | c :: rest => (s.writeSlot slot c).scratchPut (slot + 1) rest

/-- What a unit reads at a slot of its table region (R46, R67): the grain and the flags of a corrected or uncorrectable read, its mark being ignored; the
idle grain and a LOG event beyond the region. -/
def Dev.tableCell (s : Dev) (region : Option Nat) (slot : Nat) : (Grain × Blemish) × Dev :=
  let r := region.getD 0
  if region.isSome ∧ slot < s.fld Reg.QD_BASE.base r * 64 + s.qSize r then
    ((match s.slotErr slot with
      | .clean => (slotGrain s.mem slot, ⟨false, false⟩)
      | .single => (slotGrain s.mem slot, ⟨true, false⟩)
      | .double => (0, ⟨true, true⟩)), s.eccAlarm r slot)
  else ((0, ⟨false, false⟩), s.log 0 r (s.queueOwner r) (slot - s.fld Reg.QD_BASE.base r * 64))

/-- n table grains read one after another. -/
def Dev.tableSpan (s : Dev) (region : Option Nat) (slot : Nat) : Nat → List (Grain × Blemish) × Dev
  | 0 => ([], s)
  | n + 1 =>
    let c := s.tableCell region slot
    let rest := c.2.tableSpan region (slot + 1) n
    (c.1 :: rest.1, rest.2)

end Sys2Proof.Machine
end

