-- ==== Sys2Proof/Machine/Merge.lean ====
section
/-! DEFINITION. The merge of whole lines that conjunctions and Jigsaw collectors share (R75–R79, R231–R233). -/

namespace Sys2Proof.Machine

/-- What distinguishes one merge node: its record, queues, expected ordinals of a round, counters and event source; for
a collector (`every`) also the first grid index of a block by its number and the index at which it ends; `holds` says that a block's pilcrow waits until the node
has loaded its new working set (R272). -/
structure MergeCfg where
  key : Nat
  out : Nat
  inputs : List Nat
  ordered : Bool
  every : Bool
  expected : Nat → List Nat
  context : Nat → Nat
  blockStart : Nat → Option Nat
  blockEnd : Nat → Option Nat
  kind : Nat
  inst : Nat
  owner : Nat
  idx : Nat
  lateF : Reg.Fld
  mismatchF : Reg.Fld
  mismatchCond : Nat
  ellipsisF : Reg.Fld
  linesF : Option Reg.Fld
  holds : Nat → Bool

/-- Is block a at or before b, modulo 2^32? -/
def atOrBefore32 (a b : Nat) : Bool := (b + 2 ^ 32 - a) % 2 ^ 32 < 2 ^ 31

/-- The tag of a line, ellipsis or lost line. -/
def Item.tag? : Item → Option Grain
  | .line c _ _ => some c.1
  | .ell c => some c.1
  | .bad c => some c.1
  | _ => none

/-- Does the item end its input's block? -/
def Item.endsInput : Item → Bool
  | .line _ _ data => endsBlock data
  | .stop => true
  | _ => false

/-- Add to a list without repeating. -/
def addOnce (x : Nat) (xs : List Nat) : List Nat := if xs.contains x then xs else xs ++ [x]

/-- The record of a merge node replaced by a function of it. -/
def Dev.mMod (s : Dev) (m : MergeCfg) (f : MergeRec → MergeRec) : Dev := s.setMerge m.key (f (s.merge m.key))

/-- Is a line too late for its place (R78)? -/
def lateIn (r : MergeRec) (t : Tag) : Bool :=
  match r.round with
  | some n => before48 t.index n || (t.index == n && (t.ordinal < r.place || r.taken.contains t.ordinal))
  | none => match r.lastRound with
    | some l => !before48 l t.index
    | none => false

/-- A late line or ellipsis is discarded, counted and logged; a line ends FAILED LATE (R78, R232). -/
def Dev.mDiscard (s : Dev) (m : MergeCfg) (q : Nat) (sc : Scan) : Dev :=
  let a := (s.takeScan q sc).releaseItem q sc.item
  let counted := fun (t : Grain) (ell : Bool) (d : Dev) =>
    d.countAnd m.lateF m.idx 0 1 m.kind m.inst m.owner 0
      ((Tag.of t).index + (Tag.of t).ordinal * 2 ^ 48 + (if ell then 2 ^ 55 else 0))
  match sc.item with
  | .line c _ _ => counted c.1 false (a.endLine q c.1 stFailed caLate)
  | .ell c => counted c.1 true a
  | .bad c => counted c.1 true a
  | _ => a

/-- Forward the first pilcrow of a block (R79). -/
def Dev.mOpen (s : Dev) (m : MergeCfg) (i q : Nat) (sc : Scan) (c : Cell) : Dev :=
  let b := pilBlockOf c.1
  let start := if m.every then m.blockStart b else none
  let empty := start.isSome && m.blockEnd b == start
  (((s.takeScan q sc).releaseItem q sc.item).qWrite m.out c).mMod m (fun r =>
    { r with pil := some c.1, opened := [i], ended := [], forced := false
             round := if empty then none else start, place := 0, taken := [], since := none })

/-- Drop the pilcrow of a block already forwarded; an ALARM where it differs in cause or epoch (R79). -/
def Dev.mSame (s : Dev) (m : MergeCfg) (i q : Nat) (sc : Scan) (c c0 : Grain) : Dev :=
  let a := ((s.takeScan q sc).releaseItem q sc.item).mMod m (fun r =>
    { r with opened := addOnce i r.opened, ended := r.ended.filter (fun x => x != i) })
  if bits c 39 32 = bits c0 39 32 then a
  else a.countAnd m.mismatchF m.idx 0 2 m.kind m.inst m.owner m.mismatchCond 0

/-- The run of the grid, by the node's count, in which a pilcrow of input i lies. Within a run an input's block numbers rise (R131), and each
run numbers its blocks anew (R478): one that is not above the input's last is of the next run (DEDUCED, log entry 115). -/
def MergeRec.runOf (r : MergeRec) (i : Nat) (c : Grain) : Nat :=
  match Sparse.find i r.lasts with
  | none => r.run
  | some (k, b) => if atOrBefore32 (pilBlockOf c) b then k + 1 else k

/-- The input has delivered a pilcrow. -/
def MergeRec.note (r : MergeRec) (i : Nat) (c : Grain) : MergeRec :=
  { r with lasts := Sparse.insert i (r.runOf i c, pilBlockOf c) r.lasts }

/-- The first pilcrow of a new run: no round and no block of it has closed. -/
def MergeRec.restart (r : MergeRec) (i : Nat) (c : Grain) : MergeRec :=
  if r.run < r.runOf i c then { r.note i c with run := r.runOf i c, closed := none, lastRound := none } else r.note i c

/-- Is a pilcrow of input i past: of an earlier run, or of a block that has closed (R79, R232)? -/
def MergeRec.isPast (r : MergeRec) (i : Nat) (c : Grain) : Bool :=
  r.runOf i c < r.run || (r.runOf i c == r.run && (r.closed.map (fun x => atOrBefore32 (pilBlockOf c) x)).getD false)

/-- Does another input stand at the pilcrow of an earlier block, so that the blocks open in their order (R79)? -/
def Dev.mEarlier (s : Dev) (m : MergeCfg) (i : Nat) (c : Grain) : Bool :=
  let r := s.merge m.key
  m.inputs.zipIdx.any (fun qi => qi.2 != i && (match s.peekItem qi.1 none with
    | some ⟨.pil d _, _, _, _⟩ => !r.isPast qi.2 d.1 && (r.runOf qi.2 d.1 < r.runOf i c ||
        (r.runOf qi.2 d.1 == r.runOf i c && !atOrBefore32 (pilBlockOf c) (pilBlockOf d.1)))
    | _ => false))

/-- Read the punctuation and the late lines at the front of input i (R78, R79, R232). DEDUCED (log entry 116): an input that stands at the
pilcrow of another block, without having opened the block in progress, has ended it too. -/
def Dev.mAbsorb (fuel : Nat) (s : Dev) (m : MergeCfg) (i q : Nat) : Dev :=
  match fuel with
  | 0 => s
  | fuel + 1 =>
    let r := s.merge m.key
    match s.peekItem q none with
    | none => s
    | some sc =>
      let taken := (s.takeScan q sc).releaseItem q sc.item
      match sc.item with
      | .noise => taken.mAbsorb fuel m i q
      | .stop =>
        (taken.mMod m (fun r => if r.lagging.contains i then { r with lagging := r.lagging.filter (fun x => x != i) }
          else { r with ended := addOnce i r.ended })).mAbsorb fuel m i q
      | .pil c cut =>
        let b := pilBlockOf c.1
        if cut ∧ r.lagging.contains i then
          (s.mMod m (fun r => { r with lagging := r.lagging.filter (fun x => x != i) })).mAbsorb fuel m i q
        else if r.isPast i c.1 then
          (taken.mMod m (fun r => { r.note i c.1 with lagging := addOnce i r.lagging })).mAbsorb fuel m i q
        else match r.pil with
          | none => if m.holds b ∨ s.mEarlier m i c.1 then s else ((s.mMod m (fun r => r.restart i c.1)).mOpen m i q sc c).mAbsorb fuel m i q
          | some c0 =>
            if pilBlockOf c0 = b ∧ r.runOf i c.1 = r.run then
              ((s.mMod m (fun r => r.note i c.1)).mSame m i q sc c.1 c0).mAbsorb fuel m i q
            else s.mMod m (fun r => { r with ended := addOnce i r.ended })
      | it =>
        let t := Tag.of (it.tag?.getD 0)
        if r.lagging.contains i then
          ((s.mDiscard m q sc).mMod m (fun r =>
            if it.endsInput then { r with lagging := r.lagging.filter (fun x => x != i) } else r)).mAbsorb fuel m i q
        else if m.ordered ∧ lateIn r t then
          ((s.mDiscard m q sc).mMod m (fun r =>
            if it.endsInput then { r with ended := addOnce i r.ended } else r)).mAbsorb fuel m i q
        else s

/-- Read the front punctuation of every input. -/
def Dev.mAbsorbAll (s : Dev) (m : MergeCfg) : Dev :=
  m.inputs.zipIdx.foldl (fun d qi => d.mAbsorb 64 m qi.2 qi.1) s

/-- A line standing at the front of an input. -/
structure Cand where
  input : Nat
  queue : Nat
  scan : Scan
  tag : Tag
  stamp : Nat
  deriving DecidableEq, Repr

/-- The commit instant of the item at the read pointer (R77). -/
def Dev.frontStamp (s : Dev) (q : Nat) : Nat :=
  ((((s.queue q).commits.find? (fun e => s.ptrDiff q (s.rp q) (s.lp q) < s.ptrDiff q e.1 (s.lp q)))).map (fun e => e.2)).getD 0

/-- The lines at the fronts of the inputs. -/
def Dev.mCands (s : Dev) (m : MergeCfg) : List Cand :=
  m.inputs.zipIdx.filterMap (fun qi =>
    match s.peekItem qi.1 none with
    | none => none
    | some sc => sc.item.tag?.map (fun g => ⟨qi.2, qi.1, sc, Tag.of g, s.frontStamp qi.1⟩))

/-- The least candidate by a key, the first of equals (R77: the lowest input). -/
def leastBy (key : Cand → Nat) : List Cand → Option Cand
  | [] => none
  | c :: rest =>
    match leastBy key rest with
    | none => some c
    | some d => if key d < key c then some d else some c

/-- Free mode: the line that committed earliest, then the lowest ordinal, then the lowest input (R77). -/
def freeKey (c : Cand) : Nat := c.stamp * 128 + c.tag.ordinal

/-- The cells that a merge writes for an item (R79: a full stop is written as a comma). -/
def mergedCells : Item → List Cell
  | .line colon bracket data =>
    [colon, bracket] ++ data.map (fun c => if codeOf c.2 = cStop then (c.1, withCode c.2 cComma) else c)
  | .ell c => [c]
  | .bad c => [c]
  | _ => []

/-- Copy one whole line or ellipsis to the output (R76). DEDUCED (log entry 117): the generation of a later timeout ellipsis is taken from an
ellipsis forwarded last as from a line (R78). -/
def Dev.mEmit (s : Dev) (m : MergeCfg) (c : Cand) : Dev :=
  let a := ((s.takeScan c.queue c.scan).qWriteAll m.out (mergedCells c.scan.item)).releaseAfter c.queue c.scan.item [m.out]
  let b := match m.linesF with
    | none => a
    | some f => a.bump f m.idx
  b.mMod m (fun r => { r with
    gens := Sparse.insert c.tag.ordinal c.tag.gen r.gens
    ended := if c.scan.item.endsInput then addOnce c.input r.ended else r.ended })

/-- The expected ordinals of the round in progress that are still to come (R78). -/
def Dev.mMissing (s : Dev) (m : MergeCfg) (n : Nat) : List Nat :=
  (m.expected n).filter (fun o => (s.merge m.key).place ≤ o && !(s.merge m.key).taken.contains o)

/-- The round closes (R78); a collector goes on to the next grid index of the block (R231). -/
def Dev.mCloseRound (s : Dev) (m : MergeCfg) (n : Nat) : Dev :=
  let r := s.merge m.key
  let next := (n + 1) % 2 ^ 48
  let last := !m.every || (r.pil.map (fun c => m.blockEnd (pilBlockOf c) == some next)).getD true
  s.mMod m (fun r => { r with round := if last then none else some next, lastRound := some n, place := 0, taken := [], since := none })

/-- Take an ordinal's place in the round, closing the round once nothing expected is missing (R78). -/
def Dev.mPlace (s : Dev) (m : MergeCfg) (n o : Nat) : Dev :=
  let a := s.mMod m (fun r => { r with place := o + 1, taken := r.taken ++ [o] })
  if (a.mMissing m n).isEmpty then a.mCloseRound m n else a

/-- The candidate of the round with the lowest ordinal. -/
def Dev.mNext (s : Dev) (m : MergeCfg) (n : Nat) : Option Cand :=
  leastBy (fun c => c.tag.ordinal) ((s.mCands m).filter (fun c => c.tag.index == n))

/-- Open a round at the lowest grid index that stands at a front, where none is in progress (R78). -/
def Dev.mOpenRound (s : Dev) (m : MergeCfg) : Dev :=
  let r := s.merge m.key
  let cs := s.mCands m
  match r.round, cs with
  | none, c0 :: _ =>
    if m.every ∧ r.lastRound.isSome then s
    else
      let n := cs.foldl (fun n c => if before48 c.tag.index n then c.tag.index else n) c0.tag.index
      s.mMod m (fun r => { r with round := some n, place := 0, taken := [] })
  | _, _ => s

/-- Note the first commit of the round in progress (R80 round_timeout). -/
def Dev.mSince (s : Dev) (m : MergeCfg) : Dev :=
  let r := s.merge m.key
  match r.round, r.since with
  | some n, none =>
    match leastBy (fun c => c.stamp) ((s.mCands m).filter (fun c => c.tag.index == n)) with
    | none => s
    | some c => s.mMod m (fun r => { r with since := some c.stamp })
  | _, _ => s

/-- Select and copy one line (R76–R78). -/
def Dev.mSelect (s : Dev) (m : MergeCfg) : Dev :=
  if m.ordered then
    let a := (s.mOpenRound m).mSince m
    match (a.merge m.key).round with
    | none => a
    | some n =>
      match a.mNext m n with
      | none => a
      | some c =>
        if ((a.mMissing m n).head?.map (fun e => decide (c.tag.ordinal ≤ e))).getD true
        then (a.mEmit m c).mPlace m n c.tag.ordinal else a
  else match leastBy freeKey (s.mCands m) with
    | none => s
    | some c => s.mEmit m c

/-- Close the open block once every input has ended it and no round is open: one bare full stop (R79, R232). -/
def Dev.mCloseBlock (s : Dev) (m : MergeCfg) : Dev :=
  let r := s.merge m.key
  match r.pil, r.round with
  | some c, none =>
    if (List.range m.inputs.length).all (fun i => r.ended.contains i) then
      (s.qWrite m.out bareStop).mMod m (fun r => { r with
        pil := none, opened := [], ended := [], closed := some (pilBlockOf c)
        lagging := if r.forced then r.lagging ++ (r.opened.filter (fun i => !r.ended.contains i)) else r.lagging })
    else s
  | _, _ => s

/-- One turn of a merge node: punctuation, one line, and the block's end. -/
def Dev.mTurn (s : Dev) (m : MergeCfg) : Dev :=
  if s.qStalled m.out then s
  else ((((s.mAbsorbAll m).mSelect m).mAbsorbAll m).mCloseBlock m).mAbsorbAll m

/-- The ellipsis a merge writes for a missing expected ordinal (R78, R231). -/
def Dev.mEllipsis (s : Dev) (m : MergeCfg) (n o : Nat) : Dev :=
  let ctx := m.context n
  let gen := (Sparse.find o (s.merge m.key).gens).getD 0
  let t : Tag := { ctx := ctx, gen := gen, ordinal := o, flags := 0, index := n }
  let a := match m.linesF with
    | none => s
    | some f => s.bump f m.idx
  ((a.qWrite m.out (t.grain, mkCode cEllipsis)).countAnd m.ellipsisF m.idx 0 1 m.kind m.inst m.owner 0
    (n % 2 ^ 48 + o * 2 ^ 48 + ctx * 2 ^ 55)).mPlace m n o

/-- Close the round in progress at its timeout or deadline: what has committed is emitted in its place, and an ellipsis
stands for each missing expected ordinal (R78, R231); where a write has to wait (R58), so does the rest. -/
def Dev.mExpire (fuel : Nat) (s : Dev) (m : MergeCfg) (n : Nat) : Dev :=
  match fuel with
  | 0 => s
  | fuel + 1 =>
    let a := s.mAbsorbAll m
    if (a.merge m.key).round ≠ some n ∨ a.qStalled m.out then a
    else match (a.mMissing m n).head? with
      | none => a.mCloseRound m n
      | some e =>
        match a.mNext m n with
        | some c => if c.tag.ordinal ≤ e then ((a.mEmit m c).mPlace m n c.tag.ordinal).mExpire fuel m n
                    else (a.mEllipsis m n e).mExpire fuel m n
        | none => (a.mEllipsis m n e).mExpire fuel m n

/-- The ordinals of a 128-bit expected set, ascending. -/
def ordinalsOf (lo hi : Nat) : List Nat := (List.range 128).filter (fun o => (lo + hi * 2 ^ 64).testBit o)

end Sys2Proof.Machine
end

