-- ==== Sys2Proof/Machine/Banks.lean ====
section
/-! DEFINITION. Parameter banks of tiles, Kaleidoscope units and resamplers (R166, R167, R172, R189, R192, R211, R213), and the
switch of a unit to a committed configuration (R272). -/

namespace Sys2Proof.Machine

/-- A kind of unit with a bank window: its kind of R475, the first window word of unit 0, the distance between units, the words of
the window, and the fields of its commit registers. -/
structure BankWin where
  kind : Nat
  per : Nat
  first : Nat
  stride : Nat
  words : Nat
  index : Reg.Fld
  mask : Reg.Fld
  arm : Reg.Fld
  status : Reg.Fld
  late : Reg.Fld
  pending : Reg.Fld
  src : Reg.Fld
  lateCount : Option Reg.Fld

/-- The bank window of the tiles (R172). -/
def tileWin : BankWin :=
  ⟨3, 1, 0x300100, 0x400, 64, Reg.TILE_COMMIT.commit_index, Reg.TILE_COMMIT.ctx_mask, Reg.TILE_COMMIT_CTL.arm,
   Reg.TILE_COMMIT_CTL.status, Reg.TILE_COMMIT_CTL.late, Reg.TILE_COMMIT_CTL.pending_ctx, Reg.TILE_BANK_SEL.src,
   some Reg.TILE_STAT2.late_commits⟩

/-- The bank window of the Kaleidoscope units (R192). -/
def kalWin : BankWin :=
  ⟨4, 1, 0x400100, 0x1000, 32, Reg.KAL_COMMIT.commit_index, Reg.KAL_COMMIT.ctx_mask, Reg.KAL_COMMIT_CTL.arm,
   Reg.KAL_COMMIT_CTL.status, Reg.KAL_COMMIT_CTL.late, Reg.KAL_COMMIT_CTL.pending_ctx, Reg.KAL_BANK_SEL.src, none⟩

/-- The bank window of the resamplers (R213); their instances are 4 × resampler + stream (R475). -/
def pgrWin : BankWin :=
  ⟨5, 4, 0x480200, 0x1000, 32, Reg.PGR_COMMIT.commit_index, Reg.PGR_COMMIT.ctx_mask, Reg.PGR_COMMIT_CTL.arm,
   Reg.PGR_COMMIT_CTL.status, Reg.PGR_COMMIT_CTL.late, Reg.PGR_COMMIT_CTL.pending_ctx, Reg.PGR_BANK_SEL.src, none⟩

/-- The key of a window word of a bank. -/
def BankWin.key (w : BankWin) (u c i : Nat) : Nat := 2 ^ 40 * (c + 1) + w.first + w.stride * u + 8 * i

/-- A register file with bank `dst` of a unit replaced by bank `src` of another file. -/
def RegFile.bankFrom (r : RegFile) (w : BankWin) (u src dst : Nat) (from_ : RegFile) : RegFile :=
  (List.range w.words).foldl (fun r i => r.setWord (w.key u dst i) (from_.word (w.key u src i))) r

/-- One bank of a unit copied over another. -/
def Dev.copyBank (s : Dev) (w : BankWin) (u src dst : Nat) : Dev := { s with regs := s.regs.bankFrom w u src dst s.regs }

/-- The commit index of a unit's armed commit (R167). -/
def Dev.armedAt (s : Dev) (w : BankWin) (u : Nat) : Option Nat :=
  if s.fld w.status u = 1 then Sparse.find (unitKey w.kind (w.per * u)) s.arms else none

/-- The bank that a line of a context uses (R166): the shadow where an armed commit takes effect at it. -/
def Dev.bankOf (s : Dev) (w : BankWin) (u ctx idx : Nat) : Nat :=
  match s.armedAt w u with
  | none => ctx
  | some n => if (s.fld w.pending u).testBit ctx ∧ !before48 idx n then 16 else ctx

/-- A commit leaves the armed state with a status. -/
def Dev.disarm (s : Dev) (w : BankWin) (u status : Nat) : Dev :=
  (({ s with arms := Sparse.erase (unitKey w.kind (w.per * u)) s.arms }).setF w.status status u).setF w.arm 0 u

/-- L, the block length in grid lines (R131). -/
def Dev.blockLength (s : Dev) : Nat := s.fld Reg.MARN_BLOCK.length + 1

/-- A bank now holds what a parameter commit wrote. -/
def Dev.tuneBank (s : Dev) (k : Nat × Nat) : Dev :=
  { s with img := { s.img with tuned := if s.img.tuned.contains k then s.img.tuned else k :: s.img.tuned } }

/-- A context switches to its committed bank at a line (R166, R167). -/
def Dev.switchBank (s : Dev) (w : BankWin) (u ctx idx owner : Nat) : Dev :=
  if s.bankOf w u ctx idx = 16 then
    let n := (s.armedAt w u).getD 0
    let left := s.fld w.pending u - 2 ^ ctx
    let a := ((s.copyBank w u 16 ctx).tuneBank (unitKey w.kind (w.per * u), ctx)).setF w.pending left u
    let b := if before48 ((n + s.blockLength) % 2 ^ 48) idx then
        let l := a.setF w.late 1 u
        match w.lateCount with
          | none => l.logAt w.late u 0 w.kind (w.per * u) owner idx
          | some f => l.countAnd f u 0 1 w.kind (w.per * u) owner 0 idx
      else a
    if left = 0 then b.disarm w u 2 else b
  else s

/-- arm (R167): ignored with a LOG event while armed, or where the shadow is invalid. -/
def Dev.armBank (s : Dev) (w : BankWin) (u owner : Nat) (valid : Bool) : Dev :=
  if s.fld w.status u = 1 ∨ !valid then s.log w.kind (w.per * u) owner (w.arm.addr u 0 0)
  else
    let a := ((({ s with arms := Sparse.insert (unitKey w.kind (w.per * u)) (s.fld w.index u) s.arms }).setF w.status 1 u).setF
      w.late 0 u).setF w.pending (s.fld w.mask u) u
    if s.fld w.mask u = 0 then a.disarm w u 2 else a.setF w.arm 1 u

/-- cancel (R167). -/
def Dev.cancelBank (s : Dev) (w : BankWin) (u : Nat) : Dev := if s.fld w.status u = 1 then s.disarm w u 3 else s

/-- copy (R172): the shadow from an active bank; ignored with a LOG event while armed. -/
def Dev.shadowFrom (s : Dev) (w : BankWin) (u owner : Nat) : Dev :=
  if s.fld w.status u = 1 then s.log w.kind (w.per * u) owner (w.src.addr u 0 0) else s.copyBank w u (s.fld w.src u) 16

/-! ### The switch to a committed configuration (R272) -/

/-- The window of a kind of unit. -/
def winOf (kind : Nat) : Option BankWin :=
  if kind = 3 then some tileWin else if kind = 4 then some kalWin else if kind = 5 then some pgrWin else none

/-- An image commit loads every bank of a unit from the image, and ends an armed commit as cancelled (R167); an Abacus unit seeds its
references anew (R248). -/
def Dev.loadBanks (s : Dev) (kind inst : Nat) (c : RegFile) : Dev :=
  match winOf kind with
  | none => if kind = 7 then s.setAba inst { s.aba inst with seeded := [] } else s
  | some w =>
    let u := inst / w.per
    let a := { s with
      regs := (List.range 16).foldl (fun r b => r.bankFrom w u b b c) s.regs
      img := { s.img with tuned := s.img.tuned.filter (fun k => k.1 != unitKey kind (w.per * u)) } }
    let b := if kind = 3 then a.setTile u { a.tile u with disordered := [] } else a
    b.cancelBank w u

/-- The configuration that a unit changes to where it reads the first pilcrow of a block (R272). -/
def Dev.switchDue (s : Dev) (kind inst block : Nat) : Option (Nat × RegFile) :=
  match Sparse.find (unitKey kind inst) s.workSets with
  | none => none
  | some (g, _) => (s.img.made.find? (fun e => g < e.1 && atOrBefore32 e.2.1 block)).map (fun e => (e.1, e.2.2))

/-- A unit reads the first pilcrow of a block: it loads its working set and its banks (R167, R272). -/
def Dev.switchUnit (s : Dev) (kind inst block : Nat) : Dev :=
  match s.switchDue kind inst block with
  | none => s
  | some (g, c) =>
    let a := s.loadBanks kind inst c
    let latest := (s.img.made.head?.map (fun e => e.1 == g)).getD true
    { a with workSets := if latest then Sparse.erase (unitKey kind inst) a.workSets
                         else Sparse.insert (unitKey kind inst) (g, c) a.workSets }

/-- The block whose pilcrow stands at the front of a queue. -/
def Dev.frontPil (s : Dev) (q : Nat) : Option Nat :=
  match (s.peekItem q none).map (fun sc => sc.item) with
  | some (Item.pil c _) => some (pilBlockOf c.1)
  | _ => none

/-- A unit with no block open, about to read a pilcrow on an input of its old or of its new configuration, switches (R272). -/
def Dev.switchAt (s : Dev) (kind inst : Nat) (opened : Bool) (inputs : RegFile → List Nat) : Dev :=
  if opened ∨ (Sparse.find (unitKey kind inst) s.workSets).isNone then s
  else
    let qs := inputs (s.cfg kind inst) ++ s.img.made.flatMap (fun e => inputs e.2.2)
    match qs.findSome? (fun q => (s.frontPil q).bind (fun b => if (s.switchDue kind inst b).isSome then some b else none)) with
    | none => s
    | some b => s.switchUnit kind inst b

end Sys2Proof.Machine
end

