-- ==== Sys2Proof/Machine/Fabric.lean ====
section
/-! DEFINITION. The commands of the queue fabric (chapter 02, R57–R80) and of the raw taps (R236, R237). -/

namespace Sys2Proof.Machine

/-- The outcome type of every meaning. -/
abbrev Out := Host.Outcome State Fault Refusal

/-- A command whose whole effect lies in the device. -/
def State.run (s : State) (f : Dev → Dev) : Out := .next { s with dev := f s.dev }

/-- QUEUE_WRITE (R57–R59, R64–R66). -/
def execQueueWrite (q : QId) (g : Grain) (m : Mark) (s : State) : Out := s.run (fun d => d.qWrite q.val (g, m))

/-- QUEUE_DISCARD (R57). -/
def execQueueDiscard (q : QId) (s : State) : Out := s.run (fun d => d.qDiscard 64 q.val)

/-- A port read with the consumer's grammar check (R51, R60): a violation raises its LOG event, and ends a line whose
colon was read intact FAILED GRAMMAR. G1x72 descriptor and record queues carry no grammar of their own here. -/
def Dev.portRead (s : Dev) (q : Nat) : Dev :=
  let rd := s.qRead q
  let a := { rd.2 with lastGrain := rd.1 }
  if rd.1.2 = mkCode cIdle ∧ rd.2 = s then a
  else
    let st := gramStep (s.queue q).gram rd.1
    let b := a.setQueue q { a.queue q with gram := st.1 }
    let d := if st.2.2 then b.log 0 q (s.queueOwner q) (s.rp q) else b
    match st.2.1 with
    | none => d
    | some t => d.endLine q t stFailed caGrammar

/-- QUEUE_READ (R46, R51, R60, R61). -/
def execQueueRead (q : QId) (s : State) : Out := s.run (fun d => d.portRead q.val)

/-- QUEUE_MARK (R60). -/
def execQueueMark (q : QId) (s : State) : Out := s.run (fun d => d.qMark q.val)

/-- QUEUE_REWIND (R60, R63). -/
def execQueueRewind (q : QId) (s : State) : Out := s.run (fun d => d.qRewind q.val)

/-- QUEUE_RELEASE (R60). -/
def execQueueRelease (q : QId) (s : State) : Out := s.run (fun d => d.qRelease q.val)

/-- WRITE_WAIT_RESUME (R58). -/
def execWriteWaitResume (q : QId) (s : State) : Out := s.run (fun d => d.qResume q.val)

/-- TAP_COPY_RESUME (R237): the copy buffer empties into tap_q, then the source's producer goes on. -/
def Dev.tapResume (s : Dev) (a : Nat) : Dev :=
  let c := s.cfg 7 (0x8000 + a)
  if c.flag Reg.ABA_TAP.enable a then
    let tq := c.fld Reg.ABA_TAP.tap_q a
    let b := s.drainCopies a tq (s.queue tq).copyBuf.length
    if (b.queue tq).copyBuf.isEmpty then b.qResume (c.fld Reg.ABA_TAP.src_q a) else b
  else s

def execTapCopyResume (a : Fin 64) (s : State) : Out := s.run (fun d => d.tapResume a.val)

/-! ### Bank arbitration (R69–R73) -/

/-- The bank of a slot, and its row there (R69). -/
def bankOfSlot (slot : Nat) : Nat := slot % 128
def rowOfSlot (slot : Nat) : Nat := slot / 128

/-- A request as it stands at a bank: its class, row, partition and level (R69, R70). -/
def Dev.bankWait (s : Dev) (r : BankReq) : BankWait :=
  let row := rowOfSlot r.slot.val
  match r.user with
  | .port q => ⟨0, row, s.queueOwner q.val, s.fld Reg.QD_BASE.priority q.val, 0, 0⟩
  | .table q => ⟨1, row, s.queueOwner q.val, s.fld Reg.QD_BASE.priority q.val, 0, 0⟩
  | .dma ch => ⟨2, row, s.fld Reg.DMA_CH_CFG.owner ch.val, s.fld Reg.QFAB_CTRL.dma_level, 0, 0⟩
  | .maint => ⟨3, row, 0, s.fld Reg.QFAB_CTRL.maint_level, 0, 0⟩

/-- The key of one direction of a bank: the two are arbitrated apart (R69). -/
def bankKey (bank : Nat) (write : Bool) : Nat := 2 * bank + (if write then 1 else 0)

/-- A request joins those at the bank of its slot (R69). -/
def Dev.bankPresent (s : Dev) (write : Bool) (r : BankReq) : Dev :=
  let k := bankKey (bankOfSlot r.slot.val) write
  s.setBankDir k { s.bankDir k with waiting := (s.bankDir k).waiting ++ [s.bankWait r] }

/-- The request that holds a class's station: the oldest of the class (R70). -/
def station (ws : List BankWait) (k : Fin 4) : Option BankWait := ws.find? (fun w => w.cls == k)

/-- The age increment of a request that loses (R71). -/
def Dev.ageStep (s : Dev) (w : BankWait) : Nat := if w.cls = 3 then 1 else s.fld Reg.QFAB_CLASS.weight_class w.part + 1

/-- The station served in one fc (R70): the next urgent one in round-robin order, else by level, age and number. -/
def Dev.bankPick (s : Dev) (r : BankRec) : Option (Fin 4) :=
  let urgent := fun (k : Fin 4) => ((station r.waiting k).map (fun w => decide (s.fld Reg.QFAB_CTRL.age_limit ≤ w.age))).getD false
  match ([1, 2, 3, 4].map (fun i => Fin.ofNat 4 (r.lastUrgent.val + i))).find? urgent with
  | some k => some k
  | none =>
    let cand := ([0, 1, 2, 3] : List (Fin 4)).filterMap (fun k => (station r.waiting k).map (fun w => (k, w)))
    (cand.foldl (fun best kw =>
      match best with
      | none => some kw
      | some (k, w) => if w.level < kw.2.level ∨ (w.level = kw.2.level ∧ w.age < kw.2.age) then some kw else some (k, w))
      none).map (fun kw => kw.1)

/-- Remove the first request of a class. -/
def dropClass (k : Fin 4) : List BankWait → List BankWait
  | [] => []
  | w :: ws => if w.cls = k then ws else w :: dropClass k ws

/-- A request ages where it holds its class's station and another station was served (R70). -/
def Dev.ageStations (s : Dev) (served : Fin 4) (seen : List (Fin 4)) : List BankWait → List BankWait
  | [] => []
  | w :: ws =>
    let w' := { w with waited := w.waited + 1 }
    (if w.cls ≠ served ∧ !seen.contains w.cls then { w' with age := w.age + s.ageStep w } else w') ::
      s.ageStations served (w.cls :: seen) ws

/-- One fc of a bank's arbiter in one direction: one station is served, the losers age, and the longest wait is kept in
QFAB_WAIT_MAX (R70–R73). -/
def Dev.bankServe (s : Dev) (bank : Nat) (write : Bool) : Dev :=
  let key := bankKey bank write
  let r := s.bankDir key
  match s.bankPick r with
  | none => s
  | some k =>
    let served := station r.waiting k
    let wasUrgent := (served.map (fun w => decide (s.fld Reg.QFAB_CTRL.age_limit ≤ w.age))).getD false
    let a := s.setBankDir key
      { waiting := s.ageStations k [] (dropClass k r.waiting), lastUrgent := if wasUrgent then k else r.lastUrgent }
    let wait := (served.map (fun w => w.waited)).getD 0
    a.setF Reg.QFAB_WAIT_MAX.wait_max (max (s.fld Reg.QFAB_WAIT_MAX.wait_max) (min wait 65535))

/-- The requests presented in an fc join the banks of their slots, and the bank named arbitrates. -/
def Dev.bankArbitrate (s : Dev) (bank : Nat) (write : Bool) (presented : List BankReq) : Dev :=
  (presented.foldl (fun d r => d.bankPresent write r) s).bankServe bank write

/-- BANK_ARBITRATION (R69, R70). -/
def execBankArbitration (bank : Fin 128) (write : Bool) (presented : List BankReq) (s : State) : Out :=
  s.run (fun d => d.bankArbitrate bank.val write presented)

/-! ### Conjunctions (R75–R79) -/

/-- The input queues of a conjunction (R75). -/
def conjInputs (cf : RegFile) (c : Nat) : List Nat :=
  (List.range (cf.fld Reg.QFAB_CONJ_CFG.in_count c + 1)).map (fun i => cf.fld Reg.QFAB_CONJ_CFG.in_base c + i)

/-- The merge node of conjunction c. -/
def Dev.conjCfg (s : Dev) (c : Nat) : MergeCfg :=
  let cf := s.cfg 0 (0x8000 + c)
  { key := c, out := cf.fld Reg.QFAB_CONJ_CFG.out_q c
    inputs := conjInputs cf c
    ordered := cf.flag Reg.QFAB_CONJ_CFG.ordered c, every := false
    expected := fun _ => ordinalsOf (cf.fld Reg.QFAB_CONJ_ORD.ordinals_low c) (cf.fld Reg.QFAB_CONJ_ORD_HI.ordinals_high c)
    context := fun n => ctxOfIndex (s.lineCfg n) n, blockStart := fun _ => none, blockEnd := fun _ => none
    kind := 0, inst := 0x8000 + c, owner := cf.fld Reg.QFAB_CONJ_CFG.owner c, idx := c
    lateF := Reg.QFAB_CONJ_STAT.late_discards, mismatchF := Reg.QFAB_CONJ_STAT.pilcrow_mismatch, mismatchCond := 2
    ellipsisF := Reg.QFAB_CONJ_STAT.timeout_ellipses, linesF := none
    holds := fun b => (s.switchDue 0 (0x8000 + c) b).isSome }

/-- Partition states (R375). -/
def psRun : Nat := 0
def psDraining : Nat := 1
def psAborting : Nat := 2
def psStopped : Nat := 3

/-- May a unit of a partition work: is it neither stopped nor aborting (R370, R372)? -/
def Dev.partRuns (s : Dev) (p : Nat) : Bool := s.fld Reg.PART_CTRL.state p < psAborting

/-- Has an item of a partition ended from one state to another: has a line joined its runs, or a record been written (R361, R363)? -/
def Dev.endsItem (s t : Dev) (p : Nat) : Bool :=
  (s.part p).runs != (t.part p).runs || (s.part p).buffer != (t.part p).buffer || s.fld Reg.PART_STAT.records p != t.fld Reg.PART_STAT.records p

/-- A turn of a unit: while the completion writer of its partition is stalled, one that must end an item waits (R365). A port does not
wait, nor a channel for what its queue pairs receive (DESIGN CHOICE, log entry 134): their records wait behind the others. -/
def Dev.unlessStalled (s : Dev) (p : Nat) (turn : Dev → Dev) : Dev :=
  let t := turn s
  if (s.part p).stalled && s.endsItem t p then s else t

/-- May a unit on an island work (R372, R439)? -/
def Dev.unitRuns (s : Dev) (p isl : Nat) : Bool := s.partRuns p && !s.isHalted isl

/-- Is a conjunction in use and free to work? -/
def Dev.conjRuns (s : Dev) (c : Nat) : Bool :=
  (s.cfg 0 (0x8000 + c)).flag Reg.QFAB_CONJ_CFG.enable c && s.unitRuns ((s.cfg 0 (0x8000 + c)).fld Reg.QFAB_CONJ_CFG.owner c) 482

/-- One turn of a conjunction. -/
def Dev.conjTurn (s : Dev) (c : Nat) : Dev :=
  let a := s.switchAt 0 (0x8000 + c) (s.merge c).pil.isSome (fun cf => conjInputs cf c)
  if a.conjRuns c then a.mTurn (a.conjCfg c) else s

/-- CONJUNCTION_SELECT (R76–R79). -/
def execConjunctionSelect (c : Fin 1024) (s : State) : Out := s.run (fun d =>
  d.unlessStalled ((d.cfg 0 (0x8000 + c.val)).fld Reg.QFAB_CONJ_CFG.owner c.val) (fun e => e.conjTurn c.val))

/-- The instant at which a conjunction's round times out (R80: 0 stands for 2^24 xc). -/
def Dev.conjDeadline (s : Dev) (c : Nat) : Option Nat :=
  let t := (s.cfg 0 (0x8000 + c)).fld Reg.QFAB_CONJ_CFG.round_timeout c
  (s.merge c).since.map (fun x => x + (if t = 0 then 2 ^ 24 else t) * Config.xcPs)

/-- The round timeout of an ordered conjunction (R78); nothing times out where no round is open. -/
def Dev.conjTimeout (s : Dev) (c : Nat) : Dev :=
  let m := s.conjCfg c
  if s.conjRuns c && m.ordered && !s.qStalled m.out then
    let a := ((s.mAbsorbAll m).mOpenRound m).mSince m
    match (a.merge c).round, a.conjDeadline c with
    | some n, some t => ((((a.reach t).mExpire 300 m n).mAbsorbAll m).mCloseBlock m).mAbsorbAll m
    | _, _ => a
  else s

/-- CONJUNCTION_ROUND_TIMEOUT (R78). -/
def execConjunctionRoundTimeout (c : Fin 1024) (s : State) : Out := s.run (fun d =>
  d.unlessStalled ((d.cfg 0 (0x8000 + c.val)).fld Reg.QFAB_CONJ_CFG.owner c.val) (fun e => e.conjTimeout c.val))

end Sys2Proof.Machine
end

