-- ==== Sys2Proof/Machine/Units.lean ====
section
/-! DEFINITION. Lines inside the processing units (R39–R45, R143, R144): from grains to samples and back, and the emission of a
unit's items with the end of a block (R140, R186, R208). -/

namespace Sys2Proof.Machine

/-- The tag of a line. -/
def ULine.tag (l : ULine) : Tag := Tag.of l.colon.1

/-- A line as a unit reads it from a queue of a shape (R39, R42): the samples that it has, at most the width. -/
def lineOf (sh width : Nat) (colon bracket : Cell) (data : List Cell) (pos : Nat) : ULine :=
  let xs := (data.flatMap (fun c => (rawSamples sh c.1).map (sampleValue sh))).take (min width (lineSamples sh data))
  { colon := colon, bracket := bracket, pos := pos, xs := xs, sat := xs.map (fun _ => false)
    blem := data.map (fun c => Blemish.of c.2) }

/-- The flags of the grain that holds a column, n samples a grain. -/
def ULine.at_ (l : ULine) (n c : Nat) : Blemish := l.blem.getD (c / n) Blemish.clear

/-- The OR of the flags of the grains that hold some columns. -/
def ULine.over (l : ULine) (n : Nat) (cols : List Nat) : Blemish := Blemish.all (cols.map (l.at_ n))

/-- Sample c of a line. -/
def ULine.x (l : ULine) (c : Nat) : Int := l.xs.getD c 0

/-- The columns of grain g of a line of a width, n samples a grain. -/
def grainCols (n width g : Nat) : List Nat := (List.range n).filterMap (fun i => if g * n + i < width then some (g * n + i) else none)

/-- Grains of a width at n samples a grain; a line of width 0 has one (R44). -/
def grainCount (n width : Nat) : Nat := if width = 0 then 1 else (width + n - 1) / n

/-- The flags of a line's grains computed grain by grain from its columns. -/
def grainFlags (n width : Nat) (f : List Nat → Blemish) : List Blemish :=
  (List.range (grainCount n width)).map (fun g => f (grainCols n width g))

/-- The flags of a line's grains with those that a table gives each column (R45, R144). -/
def ULine.withFlags (l : ULine) (n : Nat) (f : Nat → Blemish) : List Blemish :=
  grainFlags n l.xs.length (fun cols => if cols.isEmpty then l.at_ n 0 else Blemish.or (l.over n cols) (Blemish.all (cols.map f)))

/-- The line with new samples under the same flags. -/
def ULine.mapX (l : ULine) (f : Nat → Int → Int) : ULine := { l with xs := l.xs.zipIdx.map (fun xi => f xi.2 xi.1) }

/-- s24 (R143). -/
def sat24 (x : Int) : Int := satS 24 x

/-- Samples outside the range of a shape (R184, R206). -/
def clippedIn (sh : Nat) (xs : List Int) : Nat := (xs.filter (fun x => satShape sh x != x)).length

/-- The data grains of a line in a shape, the samples saturated to it (R143, R160): n samples a grain inside the unit. -/
def ULine.data (l : ULine) (n sh : Nat) : List (Grain × Blemish) :=
  let w := l.xs.length
  let raws := (l.xs.zip l.sat).map (fun xf => rawOf sh (satShape sh xf.1) + (if sh = 0 ∧ xf.2 then 256 else 0))
  (List.range (grainCount (shapeN sh) w)).map (fun g =>
    (packGrain sh ((grainCols (shapeN sh) w g).map (fun c => raws.getD c 0)), l.over n (grainCols (shapeN sh) w g)))

/-- The cells of a line whose ending grain has a code, and counts the positions that the line leaves unused in it (R42, R44). -/
def ULine.cells (l : ULine) (n sh endCode : Nat) : List Cell :=
  let gs := l.data n sh
  let spare := shapeN sh * gs.length - l.xs.length
  [l.colon, l.bracket] ++ gs.zipIdx.map (fun gi =>
    (gi.1.1, if gi.2 + 1 = gs.length then withUnused (gi.1.2.mark endCode) spare else gi.1.2.mark cNoun))

/-! ### Lines in scratch (R164, R188, R209) -/

/-- The samples of a line packed in a shape for scratch, each grain under the flags of the grains it is made of (R45): n samples a grain
inside the unit. -/
def ULine.packed (l : ULine) (n sh : Nat) : List Cell :=
  let w := l.xs.length
  (List.range (grainCount (shapeN sh) w)).map (fun g =>
    (packGrain sh ((grainCols (shapeN sh) w g).map (fun c => rawOf sh (l.x c))), (l.over n (grainCols (shapeN sh) w g)).mark cNoun))

/-- The line as its slots give it back: their samples; a grain keeps its flags where its slots bear those that they were written with, and
takes the slots' flags where a correction, a loss or a write has changed them. -/
def ULine.reread (l : ULine) (n sh : Nat) (read : List Cell) : ULine :=
  let w := l.xs.length
  let put := l.packed n sh
  let flags := fun (cs : List Cell) (k : Nat) => Blemish.of (cs.getD k idleCell).2
  { l with
    xs := (read.flatMap (fun c => (rawSamples sh c.1).map (sampleValue sh))).take w
    blem := (List.range (grainCount n w)).map (fun g =>
      let ks := ((grainCols n w g).map (fun c => c / shapeN sh)).dedup
      if ks.all (fun k => flags read k == flags put k) then l.at_ n (g * n) else Blemish.all (ks.map (flags read))) }

/-- A line is written to scratch. -/
def Dev.keepLine (s : Dev) (n sh slot : Nat) (l : ULine) : Dev := s.scratchPut slot (l.packed n sh)

/-- A line is read back from scratch; one without a slot stands in the unit alone. -/
def Dev.heldLine (s : Dev) (n sh : Nat) (slot : Option Nat) (l : ULine) : ULine × Dev :=
  match slot with
  | none => (l, s)
  | some a =>
    let r := s.scratchSpan a (grainCount (shapeN sh) l.xs.length)
    (l.reread n sh r.1, r.2)

/-- A line is written to a ring (R188, R209): its colon, its bracket, its samples as G4x18. -/
def Dev.keepRow (s : Dev) (n slot : Nat) (l : ULine) : Dev := (s.scratchPut slot [l.colon, l.bracket]).keepLine n 2 (slot + 2) l

/-- A tag or time grain as its slot gives it back; one that is lost keeps its place under both flags. -/
def Dev.heldCell (s : Dev) (slot : Nat) (c : Cell) : Cell × Dev :=
  let r := s.scratchCell slot
  (if s.slotErr slot = .double then (c.1, c.2 ||| 0xC0) else (r.1.1, withCode r.1.2 (codeOf c.2)), r.2)

/-- A line is read back from a ring; one without a slot stands in the unit alone. -/
def Dev.heldRow (s : Dev) (n : Nat) (slot : Option Nat) (l : ULine) : ULine × Dev :=
  match slot with
  | none => (l, s)
  | some a =>
    let c := s.heldCell a l.colon
    let b := c.2.heldCell (a + 1) l.bracket
    let d := b.2.heldLine n 2 (some (a + 2)) l
    ({ d.1 with colon := c.1, bracket := b.1 }, d.2)

/-- The rows of a group read back from its ring. -/
def Dev.heldRows (s : Dev) (n : Nat) : List RingRow → List RingRow × Dev
  | [] => ([], s)
  | r :: rest =>
    let x : RingRow × Dev := match r.line with
      | none => (r, s)
      | some l =>
        let y := s.heldRow n r.slot l
        ({ r with line := some y.1, head := y.1.colon }, y.2)
    let more := x.2.heldRows n rest
    (x.1 :: more.1, more.2)

/-! ### Pipeline buffers (R376, R377) -/

/-- A grain after an error of a unit's buffer: corrected it is suspect, an uncorrectable one is zero under both flags; what ends the line
still ends it. -/
def strikeCell (double : Bool) (c : Cell) : Cell :=
  if double then (0, c.2 ||| 0xC0) else (c.1, c.2 ||| 0x80)

/-- Data grains after the errors that befall them, by their place. -/
def strikeCells (errs : List BufErr) (data : List Cell) : List Cell :=
  data.zipIdx.map (fun ci => ((errs.filter (fun e => e.grain == ci.2)).foldl (fun c e => strikeCell e.double c) ci.1))

/-- How many of n grains a list of errors loses. -/
def strikeLost (errs : List BufErr) (n : Nat) : Nat :=
  ((List.range n).filter (fun i => errs.any (fun e => e.grain == i && e.double))).length

/-- The errors among n data grains, from the place `off` of a longer output on. -/
def strikesAt (errs : List BufErr) (off n : Nat) : List BufErr :=
  errs.filterMap (fun e => if off ≤ e.grain ∧ e.grain < off + n then some { e with grain := e.grain - off } else none)

/-- The cells of a line that leaves a unit, after the errors that befall its data grains. -/
def strikeLine (errs : List BufErr) (cells : List Cell) : List Cell := cells.take 2 ++ strikeCells errs (cells.drop 2)

/-- An item whose data grains pass a unit's buffer (R376, R377). -/
def Item.strike (errs : List BufErr) : Item → Item
  | .line c b data => .line c b (strikeCells errs data)
  | it => it

/-- The grains that an item loses there. -/
def Item.lost (errs : List BufErr) : Item → Nat
  | .line _ _ data => strikeLost errs data.length
  | _ => 0

/-- What a unit emits: a line, or an ellipsis. -/
inductive UItem where
  | line (l : ULine)
  | gone (c : Cell)
  deriving DecidableEq, Repr

/-- The tag of an item. -/
def UItem.tag : UItem → Tag
  | .line l => l.tag
  | .gone c => Tag.of c.1

/-- Its colon or ellipsis. -/
def UItem.head : UItem → Cell
  | .line l => l.colon
  | .gone c => c

/-- Is it a line? -/
def UItem.isLine : UItem → Bool
  | .line _ => true
  | .gone _ => false

/-- The ellipsis of a tag cell, its blemish flags kept. -/
def ellipsisCell (c : Cell) : Cell := (c.1, (Blemish.of c.2).mark cEllipsis)

/-- The cells of a unit's items, and of the end of the block where it ends: on the last line, else as a bare full stop; `some false`
is an input's bare full stop, which passes as one (R140). -/
def emitCells (n sh : Nat) (items : List UItem) (ending : Option Bool) : List Cell :=
  match items with
  | [] => if ending.isSome then [bareStop] else []
  | [.line l] => if ending = some true then l.cells n sh cStop
                 else l.cells n sh cComma ++ (if ending.isSome then [bareStop] else [])
  | .line l :: rest => l.cells n sh cComma ++ emitCells n sh rest ending
  | .gone c :: rest => ellipsisCell c :: emitCells n sh rest ending

/-- A colon or ellipsis cell with a new tag. -/
def retag (c : Cell) (f : Tag → Tag) : Cell := ((f (Tag.of c.1)).grain, c.2)

/-- How an item of the input ends its block: a full stop on the line, a bare one, or not. -/
def Item.ending : Item → Option Bool
  | .line _ _ data => if endsBlock data then some true else none
  | .stop => some false
  | _ => none

/-- The colon or ellipsis of an item that stands for a line; a line lost to the grammar is an ellipsis (R51, R52). -/
def Item.head? : Item → Option Cell
  | .line c _ _ => some c
  | .ell c => some c
  | .bad c => some c
  | _ => none

end Sys2Proof.Machine
end

