-- ==== Sys2Proof/Machine/Tile.lean ====
section
/-! DEFINITION. Pixel tiles (R138–R172) and their understudies (R385–R387). -/

namespace Sys2Proof.Machine

/-- The record of a tile replaced by a function of it. -/
def Dev.modTile (s : Dev) (t : Nat) (f : TileRec → TileRec) : Dev := s.setTile t (f (s.tile t))

/-- A tile's configuration. -/
def Dev.tileCfg (s : Dev) (t : Nat) : RegFile := s.cfg 3 t

/-- The operator code in a slot (R138). -/
def opField : Nat → Reg.Fld
  | 0 => Reg.TILE_CTRL.op0
  | 1 => Reg.TILE_CTRL.op1
  | 2 => Reg.TILE_CTRL.op2
  | _ => Reg.TILE_CTRL.op3

/-- The operator in a slot of tile t. -/
def Dev.tileOp (s : Dev) (t k : Nat) : Nat := (s.tileCfg t).fld (opField k) t

/-- Operator codes. -/
def opBlk : Nat := 1
def opDfx : Nat := 2
def opFlt : Nat := 3
def opLin : Nat := 4
def opLut : Nat := 5
def opCnv : Nat := 6
def opSum : Nat := 7
def opMix : Nat := 8
def opBin : Nat := 9
def opClp : Nat := 10
def opPak : Nat := 11
def opCpy : Nat := 12

/-- The partition of a tile. -/
def Dev.tileOwner (s : Dev) (t : Nat) : Nat := (s.tileCfg t).fld Reg.TILE_CTRL2.owner t
/-- Its output queue. -/
def Dev.tileOut (s : Dev) (t : Nat) : Nat := (s.tileCfg t).fld Reg.TILE_CTRL.out_q t
/-- Its copy queue, where an operator is CPY (R161). -/
def Dev.tileCopy (s : Dev) (t : Nat) : Option Nat :=
  if [0, 1, 2, 3].any (fun k => s.tileOp t k == opCpy) then some ((s.tileCfg t).fld Reg.TILE_CTRL.copy_q t) else none
/-- Samples per grain inside a tile: those of in_q's shape. -/
def Dev.tileN (s : Dev) (t : Nat) : Nat := shapeN (s.qShape ((s.tileCfg t).fld Reg.TILE_CTRL.in_q t))

/-- Does the bank of a line's context bypass the operator of a slot (R162)? BIN and PAK ignore the bit. -/
def Dev.bypassed (s : Dev) (t k : Nat) (g : Tag) : Bool :=
  (s.fld Reg.TILE_P_OPS.bypass t 0 g.ctx).testBit k && s.tileOp t k != opBin && s.tileOp t k != opPak

/-- The clamp to 0–262,143 of LIN, LUT, CNV and DFX (R143). -/
def clamp18 (x : Int) : Int := satU 18 x

/-! ### BLK (R145, R146) -/

/-- The dark columns of a line. -/
def Dev.darkCols (s : Dev) (t : Nat) (l : ULine) : List Nat :=
  (List.range (s.fld Reg.TILE_P_BLK.dark_count t 0 l.tag.ctx)).filterMap (fun i =>
    let c := s.fld Reg.TILE_P_BLK.dark_start t 0 l.tag.ctx + i
    if c < l.xs.length then some c else none)

/-- The black level after a line (R146). -/
def Dev.blackAfter (s : Dev) (t n : Nat) (l : ULine) : Nat :=
  let b := s.fld Reg.TILE_P_BLK_INIT.black t 0 l.tag.ctx
  let cols := s.darkCols t l
  if cols.isEmpty ∨ (l.over n cols).sus then b
  else
    let m := satU 26 (divRound ((cols.map l.x).foldl (· + ·) 0 * 256) cols.length)
    (satU 26 (b + rshiftRound (m - b) (s.fld Reg.TILE_P_BLK.blk_k t 0 l.tag.ctx))).toNat

/-- BLK on a line: the clamped line and the new black level, which a bypass does not hold back. -/
def Dev.doBlk (s : Dev) (t n : Nat) (pass : Bool) (l : ULine) : Dev × List UItem :=
  let b := s.fld Reg.TILE_P_BLK_INIT.black t 0 l.tag.ctx
  let p := s.fld Reg.TILE_P_BLK.pedestal t 0 l.tag.ctx
  (s.setF Reg.TILE_P_BLK_INIT.black (s.blackAfter t n l) t 0 l.tag.ctx,
   [.line (if pass then l else l.mapX (fun _ x => sat24 (rshiftRound (x * 256 - b) 8 + p)))])

/-! ### DFX (R147, R148) -/

/-- The columns that a pixel list names at a position with the flags of their entries, out-of-order entries left out, and whether one was
met (R163). -/
def listColumns (p : Nat) : Option Nat → List (Grain × Blemish) → List (Nat × Blemish) × Bool
  | _, [] => ([], false)
  | last, g :: rest =>
    let key := bits g.1 19 0
    match last with
    | some k =>
      if key < k then ((listColumns p last rest).1, true)
      else
        let r := listColumns p (some key) rest
        (if bits g.1 19 15 = p then (bits g.1 14 0, g.2) :: r.1 else r.1, r.2)
    | none =>
      let r := listColumns p (some key) rest
      (if bits g.1 19 15 = p then (bits g.1 14 0, g.2) :: r.1 else r.1, r.2)

/-- The defective columns of a line (R147), the flags that the table grains give a column (R45, R144), and the device after the table
reads. -/
def Dev.defects (s : Dev) (t : Nat) (l : ULine) : List Nat × (Nat → Blemish) × Dev :=
  let c := l.tag.ctx
  let w := l.xs.length
  let mapBase := s.fld Reg.TILE_P_DFX.map_base t 0 c
  let listBase := s.fld Reg.TILE_P_DFX.list_base t 0 c
  let m := s.tableSpan (s.regionOf mapBase) mapBase ((w + 63) / 64)
  let p := m.2.tableSpan (s.regionOf listBase) listBase (s.fld Reg.TILE_P_DFX.list_len t 0 c)
  let cols := listColumns l.pos none p.1
  let mapped := (List.range w).filter (fun i => ((m.1.getD (i / 64) (0, Blemish.clear)).1.toNat).testBit (i % 64))
  let d := if cols.2 ∧ !(p.2.tile t).disordered.contains listBase then
      (p.2.modTile t (fun r => { r with disordered := r.disordered ++ [listBase] })).log 3 t (s.tileOwner t) l.tag.index
    else p.2
  ((List.range w).filter (fun i => mapped.contains i || cols.1.any (fun x => x.1 == i)),
   fun i => Blemish.or (m.1.getD (i / 64) (0, Blemish.clear)).2 (Blemish.all ((cols.1.filter (fun x => x.1 == i)).map (fun x => x.2))), d)

/-- The neighbours of a defective column on its left and right (R148). -/
def neighbours (bad : List Nat) (w stride c : Nat) : Option Nat × Option Nat :=
  (([1, 2, 3, 4].map (fun k => k * stride)).findSome? (fun d => if d ≤ c ∧ !bad.contains (c - d) then some (c - d) else none),
   ([1, 2, 3, 4].map (fun k => k * stride)).findSome? (fun d => if c + d < w ∧ !bad.contains (c + d) then some (c + d) else none))

/-- The value of a replaced column, and the columns that it is made of (R148). -/
def replaced (x : Nat → Int) (c : Nat) : Option Nat × Option Nat → Int × List Nat
  | (some a, some b) => (sat24 (divRound (x a * ((b - c : Nat) : Int) + x b * ((c - a : Nat) : Int)) (b - a)), [a, b])
  | (some a, none) => (x a, [a])
  | (none, some b) => (x b, [b])
  | (none, none) => (x c, [c])

/-- DFX on a line, of its clamped input (R143, R147, R148). -/
def Dev.doDfx (s : Dev) (t n : Nat) (l : ULine) : Dev × List UItem :=
  let w := l.xs.length
  let d := s.defects t l
  let stride := s.fld Reg.TILE_P_DFX.stride t 0 l.tag.ctx + 1
  let nb := fun c => neighbours d.1 w stride c
  let fixable := fun c => (nb c).1.isSome || (nb c).2.isSome
  let x := fun c => clamp18 (l.x c)
  let y := (List.range w).map (fun c => if d.1.contains c then (replaced x c (nb c)).1 else x c)
  let blem := grainFlags n w (fun cols =>
    if cols.isEmpty then l.at_ n 0
    else Blemish.all (cols.map (fun c => Blemish.or (d.2.1 c)
      (if d.1.contains c ∧ fixable c then Blemish.or (l.over n (replaced x c (nb c)).2) ⟨false, true⟩
       else if d.1.contains c then Blemish.or (l.at_ n c) ⟨true, false⟩ else l.at_ n c))))
  let fixed := (d.1.filter fixable).length
  ((d.2.2.bump Reg.TILE_STAT3.dfx_replaced t 0 0 fixed).bump Reg.TILE_STAT3.dfx_unreplaced t 0 0 (d.1.length - fixed),
   [.line { l with xs := y, blem := blem }])

/-! ### FLT, LIN, LUT, CLP, BIN, PAK (R149–R151, R158–R160) -/

/-- FLT on a line (R149, R163). -/
def Dev.doFlt (s : Dev) (t n : Nat) (l : ULine) : Dev × List UItem :=
  let w := l.xs.length
  let base := s.fld Reg.TILE_P_FLT.table_base t 0 l.tag.ctx
  let g := s.tableSpan (s.regionOf base) base ((w + 1) / 2)
  let e := fun (c : Nat) => g.1.getD (c / 2) (0, Blemish.clear)
  let gain := fun (c : Nat) => if c % 2 = 0 then bits (e c).1 17 0 else bits (e c).1 53 36
  let off := fun (c : Nat) => toSigned 17 (if c % 2 = 0 then bits (e c).1 34 18 else bits (e c).1 70 54)
  (g.2, [.line { l.mapX (fun c x => sat24 (rshiftRound (x * gain c) 16 + off c)) with blem := l.withFlags n (fun c => (e c).2) }])

/-- LIN on a line (R150). -/
def Dev.doLin (s : Dev) (t : Nat) (l : ULine) : List UItem :=
  [.line (l.mapX (fun _ x =>
    let v := clamp18 x
    let i := (v / 8192).toNat
    sat24 (s.fld Reg.TILE_P_LIN.base t i l.tag.ctx + rshiftRound (s.fld Reg.TILE_P_LIN.slope t i l.tag.ctx * (v - 8192 * i)) 14)))]

/-- A grain of a LUT page as an access finds it (R46, R169): corrected it is suspect, an uncorrectable one is zero and both. A page never
loaded reads zero. -/
def Dev.pageGrain (s : Dev) (t page j : Nat) : Grain × Blemish :=
  let g := ((Sparse.find page (s.tile t).pages).getD []).getD j (0, Blemish.clear)
  match (Sparse.find (1024 * page + j) (s.tile t).pageErrs).getD .clean with
  | .clean => g
  | .single => (g.1, Blemish.or g.2 ⟨true, false⟩)
  | .double => (0, ⟨true, true⟩)

/-- An entry of a LUT page. -/
def Dev.lutEntry (s : Dev) (t page i : Nat) : Nat := (rawSamples 2 (s.pageGrain t page (i / 4)).1).getD (i % 4) 0

/-- LUT on a line (R151); grains of the page that no access could correct go to integrity condition 3 (R377). -/
def Dev.doLut (s : Dev) (t n : Nat) (l : ULine) : Dev × List UItem :=
  let page := s.fld Reg.TILE_P_LUT.page t 0 l.tag.ctx
  let shift := s.fld Reg.TILE_P_LUT.shift t 0 l.tag.ctx
  let entry := fun (c : Nat) => min ((clamp18 (l.x c)).toNat >>> shift) 4095
  let lost := (((List.range l.xs.length).map (fun c => entry c / 4)).dedup.filter (fun j =>
    (Sparse.find (1024 * page + j) (s.tile t).pageErrs).getD .clean == .double)).length
  (s.bufferAlarms 3 t lost,
   [.line { l.mapX (fun c _ => (s.lutEntry t page (entry c) : Nat)) with blem := l.withFlags n (fun c => (s.pageGrain t page (entry c / 4)).2) }])

/-- CLP on a line (R159). -/
def Dev.doClp (s : Dev) (t : Nat) (l : ULine) : Dev × List UItem :=
  let lo := s.sfld Reg.TILE_P_CLP.lo t 0 l.tag.ctx
  let hi := s.sfld Reg.TILE_P_CLP.hi t 0 l.tag.ctx
  let flags := l.xs.map (fun x => decide (x < lo) || decide (hi < x))
  (s.bump Reg.TILE_STAT2.clipped t 0 0 (flags.filter id).length,
   [.line { l.mapX (fun _ x => min (max x lo) hi) with sat := (l.sat.zip flags).map (fun ab => ab.1 || ab.2) }])

/-- The bin factor (R158). -/
def Dev.binFactor (s : Dev) (t : Nat) : Nat := 2 ^ (s.tileCfg t).fld Reg.TILE_CTRL2.bin_factor t

/-- BIN on a line (R158). -/
def Dev.doBin (s : Dev) (t n : Nat) (l : ULine) : List UItem :=
  let f := s.binFactor t
  let mode := (s.tileCfg t).fld Reg.TILE_CTRL2.bin_mode t
  let w := l.xs.length
  let w' := (w + f - 1) / f
  let cover := fun (k : Nat) =>
    if mode = 2 then [f * k] else (List.range f).filterMap (fun i => if f * k + i < w then some (f * k + i) else none)
  let y := (List.range w').map (fun k =>
    let total := ((cover k).map l.x).foldl (· + ·) 0
    sat24 (if mode = 1 then divRound total (cover k).length else total))
  [.line { l with
    xs := y
    sat := (List.range w').map (fun k => (cover k).any (fun c => l.sat.getD c false))
    blem := grainFlags n w' (fun cols => if cols.isEmpty then l.at_ n 0 else l.over n (cols.flatMap cover)) }]

/-- PAK on a line (R160); its regrouping is the writing of the line in out_q's shape. -/
def Dev.doPak (s : Dev) (t : Nat) (l : ULine) : List UItem :=
  [.line (l.mapX (fun _ x => sat24 (rshiftRound x (s.fld Reg.TILE_P_PAK.shift t 0 l.tag.ctx))))]

/-! ### The scratch region (R164): each context has a part of stride slots, with two copies of each scratch line -/

/-- Does a tile have an operator? -/
def Dev.tileHas (s : Dev) (t op : Nat) : Bool := [0, 1, 2, 3].any (fun k => s.tileOp t k == op)

/-- Slots of a G4x18 line of the tile. -/
def Dev.scratchLine (s : Dev) (t : Nat) : Nat := grainsOfWidth 2 ((s.tileCfg t).fld Reg.TILE_CTRL2.in_width t)

/-- Slots of the partial sums of a group: G2x36. -/
def Dev.scratchSums (s : Dev) (t : Nat) : Nat := ((s.tileCfg t).fld Reg.TILE_CTRL2.in_width t + 1) / 2

/-- The first slot of a context's part, at an offset in it; none where the tile has no scratch. DESIGN CHOICE (log entry 102): the part holds the
lines of CNV, then the sums of SUM, then the held line of MIX, the copies of each side by side. -/
def Dev.partSlot (s : Dev) (t ctx off : Nat) : Option Nat :=
  let stride := (s.tileCfg t).fld Reg.TILE_SCRATCH.stride t
  if off < stride then some ((s.tileCfg t).fld Reg.TILE_SCRATCH.base t + ctx * stride + off) else none

/-- Lines that CNV keeps of a context. -/
def Dev.cnvLines (s : Dev) (t ctx : Nat) : Nat := if s.tileHas t opCnv then s.fld Reg.TILE_P_CNV.v_taps t 0 ctx - 1 else 0

/-- The slot of the line that CNV puts into a context's part after k others: the place of the oldest one, in the copy that is not current. -/
def Dev.cnvSlot (s : Dev) (t ctx k : Nat) : Option Nat :=
  let m := s.cnvLines t ctx
  if m = 0 then none else s.partSlot t ctx ((2 * (k % m) + k / m % 2) * s.scratchLine t)

/-- The slot of a copy of the sums. -/
def Dev.sumSlot (s : Dev) (t ctx copy : Nat) : Option Nat :=
  s.partSlot t ctx (2 * s.cnvLines t ctx * s.scratchLine t + copy * s.scratchSums t)

/-- The slot of a copy of the held line. -/
def Dev.mixSlot (s : Dev) (t ctx copy : Nat) : Option Nat :=
  s.partSlot t ctx (2 * s.cnvLines t ctx * s.scratchLine t + (if s.tileHas t opSum then 2 * s.scratchSums t else 0) + copy * s.scratchLine t)

/-- The copy that is not current. -/
def otherCopy (place : Nat → Option Nat) (current : Option Nat) : Option Nat :=
  if current.isSome ∧ current = place 0 then place 1 else place 0

/-! ### CNV (R152, R153) -/

/-- The key of a context and source ordinal. -/
def lineKey (g : Tag) : Nat := 128 * g.ctx + g.ordinal

/-- Coefficient j of a kernel (R172). -/
def Dev.kernel (s : Dev) (t ctx : Nat) (horizontal : Bool) (j : Nat) : Int :=
  let f := if horizontal then
      (if j % 4 = 0 then Reg.TILE_P_CNV_H.k0 else if j % 4 = 1 then Reg.TILE_P_CNV_H.k1
       else if j % 4 = 2 then Reg.TILE_P_CNV_H.k2 else Reg.TILE_P_CNV_H.k3)
    else (if j % 4 = 0 then Reg.TILE_P_CNV_V.k0 else if j % 4 = 1 then Reg.TILE_P_CNV_V.k1
       else if j % 4 = 2 then Reg.TILE_P_CNV_V.k2 else Reg.TILE_P_CNV_V.k3)
  s.sfld f t (j / 4) ctx

/-- The nearest present line to entry i within a window from `lo` to `hi`, the earlier one on a tie (R152). -/
def nearestLine (es : List CnvEntry) (lo hi i : Nat) : Option ULine :=
  (List.range (hi + 1 - lo)).findSome? (fun d =>
    match (if lo + d ≤ i then (es[i - d]?).bind (fun e => e.line) else none) with
    | some l => some l
    | none => if i + d ≤ hi then (es[i + d]?).bind (fun e => e.line) else none)

/-- The output of CNV for the entry at a place of its window (R152). DESIGN CHOICE (log entry 118): it is computed under the bank in force
when it is emitted. -/
def Dev.convolve (s : Dev) (t n : Nat) (es : List CnvEntry) (i : Nat) : UItem :=
  match es[i]? with
  | none => .gone idleCell
  | some e =>
    match e.line with
    | none => .gone e.head
    | some l =>
      let c := l.tag.ctx
      let hv := (s.fld Reg.TILE_P_CNV.v_taps t 0 c - 1) / 2
      let hh := (s.fld Reg.TILE_P_CNV.h_taps t 0 c - 1) / 2
      let lo := i - hv
      let hi := min (i + hv) (es.length - 1)
      let rowOf := fun (j : Nat) => max lo (min hi (i + j - hv))
      let rows := (List.range (2 * hv + 1)).map (fun j => (nearestLine es lo hi (rowOf j)).getD l)
      let missing := (List.range (hi + 1 - lo)).any (fun d => ((es[lo + d]?).map (fun e => e.line.isNone)).getD false)
      let w := l.xs.length
      let colOf := fun (c j : Nat) => min (c + j - hh) (w - 1)
      let y := (List.range w).map (fun col =>
        sat24 (rshiftRound ((rows.zipIdx.map (fun ri =>
          s.kernel t c false ri.2 * ((List.range (2 * hh + 1)).map (fun j =>
            s.kernel t c true j * clamp18 (ri.1.x (colOf col j)))).foldl (· + ·) 0)).foldl (· + ·) 0) 28))
      let blem := grainFlags n w (fun cols =>
        let used := if cols.isEmpty then [0] else cols.flatMap (fun col => (List.range (2 * hh + 1)).map (colOf col))
        Blemish.or (Blemish.all (rows.map (fun r => r.over n used))) ⟨false, missing⟩)
      .line { l with xs := y, blem := blem }

/-- Emit the entries of a window up to a place that have not been emitted. -/
def Dev.convolveUpTo (s : Dev) (t n : Nat) (es : List CnvEntry) (upTo : Nat) : List UItem × List CnvEntry :=
  ((es.zipIdx.filter (fun ei => ei.2 < upTo && !ei.1.emitted)).map (fun ei => s.convolve t n es ei.2),
   es.zipIdx.map (fun ei => if ei.2 < upTo then { ei.1 with emitted := true } else ei.1))

/-- The lines of a window read back from scratch, the last m of them (R164). -/
def Dev.rereadWindow (s : Dev) (n m : Nat) (es : List CnvEntry) : List CnvEntry × Dev :=
  (es.drop (es.length - m)).foldl (fun r e =>
    match e.line with
    | none => (r.1 ++ [e], r.2)
    | some l =>
      let x := r.2.heldLine n 2 e.slot l
      (r.1 ++ [{ e with line := some x.1 }], x.2)) (es.take (es.length - m), s)

/-- May CNV put a line of this context and ordinal into scratch: no line of another ordinal of the context stands there? -/
def Dev.cnvOwns (s : Dev) (t key : Nat) : Bool :=
  !(s.tile t).windows.any (fun w => w.1 / 128 == key / 128 && w.1 != key && w.2.any (fun e => e.slot.isSome))

/-- A line enters the scratch part of its context (R164). -/
def Dev.cnvKeep (s : Dev) (t n : Nat) (e : CnvEntry) : CnvEntry × Dev :=
  let g := Tag.of e.head.1
  let k := (Sparse.find g.ctx (s.tile t).kept).getD 0
  match e.line, s.cnvSlot t g.ctx k with
  | some l, some a =>
    if s.cnvOwns t (lineKey g) then
      ({ e with slot := some a }, (s.keepLine n 2 a l).modTile t (fun r => { r with kept := Sparse.insert g.ctx (k + 1) r.kept }))
    else (e, s)
  | _, _ => (e, s)

/-- CNV on an item (R152, R153): the window takes it in, a line clamped, and the line hv lines back is emitted. -/
def Dev.doCnv (s : Dev) (t n : Nat) (e : CnvEntry) : Dev × List UItem :=
  let g := Tag.of e.head.1
  let hv := (s.fld Reg.TILE_P_CNV.v_taps t 0 g.ctx - 1) / 2
  let old := s.rereadWindow n (2 * hv) ((Sparse.find (lineKey g) (s.tile t).windows).getD [])
  let new := old.2.cnvKeep t n e
  let es := old.1 ++ [new.1]
  let o := new.2.convolveUpTo t n es (es.length - hv)
  let keep := o.2.drop (o.2.length - 31)
  (new.2.modTile t (fun r => { r with windows := Sparse.insert (lineKey g) keep r.windows }), o.1)

/-- The lines that CNV still delays at the end of a block, in grid order (R153). -/
def Dev.flushCnv (s : Dev) (t n : Nat) : Dev × List UItem :=
  let r := (s.tile t).windows.foldl (fun a w =>
    let es := a.1.rereadWindow n (s.cnvLines t (w.1 / 128)) w.2
    (es.2, a.2 ++ (es.2.convolveUpTo t n es.1 es.1.length).1)) (s, ([] : List UItem))
  (r.1.modTile t (fun x => { x with windows := [], kept := [] }),
   r.2.mergeSort (fun a b => a.tag.index == b.tag.index || before48 a.tag.index b.tag.index))

/-! ### SUM (R154, R155) -/

/-- The output of a group that closes (R154, R155). DESIGN CHOICE (log entry 118): under the bank in force when it closes; the position in its
trigger group (R147) of the output line is that of the group's first member, 0 where that is an ellipsis (log entry 119). -/
def Dev.groupOut (s : Dev) (t : Nat) (g : SumGroup) : UItem :=
  let tag := Tag.of g.first.1
  let k := s.fld Reg.TILE_P_SUM.sum_n t 0 tag.ctx + 1
  let shift := s.fld Reg.TILE_P_SUM.sum_shift t 0 tag.ctx
  let head := retag g.first (fun x => { x with flags := g.flags ||| lfIntegrated })
  match g.total with
  | none => .gone head
  | some l => .line { l with
      colon := (head.1, (Blemish.of head.2).mark cColon), pos := g.pos
      xs := l.xs.map (fun y => sat24 (divRound (y * k) (g.present * 2 ^ shift))) }

/-- A line added to the sums of a group. -/
def addLine (a b : ULine) : ULine :=
  { a with
    xs := (a.xs.zip b.xs).map (fun xy => xy.1 + xy.2)
    sat := (a.sat.zip b.sat).map (fun xy => xy.1 || xy.2)
    blem := (a.blem.zip b.blem).map (fun xy => Blemish.or xy.1 xy.2) }

/-- A group with one more member. -/
def SumGroup.join (g : SumGroup) (e : CnvEntry) : SumGroup :=
  { g with
    count := g.count + 1
    flags := g.flags ||| (Tag.of e.head.1).flags
    present := g.present + (if e.line.isSome then 1 else 0)
    total := match g.total, e.line with
      | none, x => x
      | some a, none => some a
      | some a, some b => some (addLine a b) }

/-- The sums of a group read back from scratch (R164). -/
def Dev.rereadGroup (s : Dev) (n : Nat) (g : SumGroup) : SumGroup × Dev :=
  match g.total with
  | none => (g, s)
  | some l =>
    let r := s.heldLine n 4 g.slot l
    ({ g with total := some r.1 }, r.2)

/-- The sums of a group are written to the copy that is not current; not where a group of another ordinal of the context holds the part. -/
def Dev.groupKeep (s : Dev) (t n : Nat) (g : SumGroup) : SumGroup × Dev :=
  let tag := Tag.of g.first.1
  let taken := (s.tile t).groups.any (fun x => x.1 / 128 == tag.ctx && x.1 != lineKey tag && x.2.slot.isSome)
  match g.total, otherCopy (s.sumSlot t tag.ctx) g.slot with
  | some l, some a => if taken then (g, s) else ({ g with slot := some a }, s.keepLine n 4 a l)
  | _, _ => (g, s)

/-- SUM on an item (R154). -/
def Dev.doSum (s : Dev) (t n : Nat) (e : CnvEntry) (pos : Nat) : Dev × List UItem :=
  let tag := Tag.of e.head.1
  let key := lineKey tag
  let k := s.fld Reg.TILE_P_SUM.sum_n t 0 tag.ctx + 1
  let fresh : SumGroup := ⟨e.head, pos, 0, 0, 0, none, none⟩
  let held := (Sparse.find key (s.tile t).groups).map (s.rereadGroup n)
  let a := (held.map (fun x => x.2)).getD s
  let open_ := held.map (fun x => x.1)
  let changed := (open_.map (fun g => (Tag.of g.first.1).gen != tag.gen)).getD false
  let closed := if changed then (open_.map (fun g => a.groupOut t g)).toList else []
  let g := (if changed then fresh else open_.getD fresh).join e
  if k ≤ g.count then
    (a.modTile t (fun r => { r with groups := Sparse.erase key r.groups }), closed ++ [a.groupOut t g])
  else
    let x := a.groupKeep t n g
    (x.2.modTile t (fun r => { r with groups := Sparse.insert key x.1 r.groups }), closed)

/-- The groups that close at the end of a block, in grid order (R154). -/
def Dev.flushSum (s : Dev) (t n : Nat) : Dev × List UItem :=
  let r := (s.tile t).groups.foldl (fun a g =>
    let x := a.1.rereadGroup n g.2
    (x.2, a.2 ++ [x.2.groupOut t x.1])) (s, ([] : List UItem))
  (r.1.modTile t (fun r => { r with groups := [] }),
   r.2.mergeSort (fun a b => a.tag.index == b.tag.index || before48 a.tag.index b.tag.index))

/-! ### MIX (R156, R157) -/

/-- The line of y_q with a grid index (R156): none while it may still come; `none` inside where it is absent. What is read is released with
the line of in_q (R170). -/
def Dev.yFind (fuel : Nat) (s : Dev) (t idx : Nat) : Option (Dev × Option CnvEntry) :=
  match fuel with
  | 0 => none
  | fuel + 1 =>
    let q := (s.tileCfg t).fld Reg.TILE_CTRL2.y_q t
    let r := s.tile t
    if r.yEnded.isSome ∧ r.yEnded = r.block then some (s, none)
    else match s.peekItem q none with
      | none => none
      | some sc =>
        let b := s.takeScan q sc
        let a := if sc.item.closes then b.closeRuns q (fun _ => true) else b
        match sc.item with
        | .noise => a.yFind fuel t idx
        | .stop => (a.modTile t (fun r => { r with yEnded := r.yBlock })).yFind fuel t idx
        | .pil c _ =>
          if (r.block.map (fun b => !atOrBefore32 (pilBlockOf c.1) b)).getD false then some (s, none)
          else (a.modTile t (fun r => { r with yBlock := some (pilBlockOf c.1) })).yFind fuel t idx
        | it =>
          let h := it.head?.getD idleCell
          let i := (Tag.of h.1).index
          let b := if it.endsInput then a.modTile t (fun r => { r with yEnded := r.yBlock }) else a
          if i = idx then
            let l := match it with
              | .line c br data => some (lineOf (s.qShape q) (lineSamples (s.qShape q) data) c br data 0)
              | _ => none
            some (b, some ⟨h, l, false, none⟩)
          else if before48 i idx then b.yFind fuel t idx
          else some (s, none)

/-- The second operand of MIX for a line (R156, R157): the samples with the flags of a column and a staleness; none while the line of
y_q may still come. -/
def Dev.mixSource (s : Dev) (t n : Nat) (l : ULine) : Option (Dev × Option (List Int × (Nat → Blemish))) :=
  let c := l.tag.ctx
  let w := l.xs.length
  let src := s.fld Reg.TILE_P_MIX.y_src t 0 c
  let old := fun (i : Nat) => s.fld Reg.TILE_P_MIX2.max_age t 0 c < (l.tag.index + 2 ^ 48 - i) % 2 ^ 48
  if src = 0 then
    match Sparse.find (s.fld Reg.TILE_P_MIX.y_ctx t 0 c) (s.tile t).heldLines with
    | some ⟨h, some held, _, slot⟩ =>
      if held.xs.length = w ∧ !old (Tag.of h.1).index then
        let y := s.heldLine n 2 slot held
        some (y.2, some (y.1.xs, y.1.at_ n))
      else some (s, none)
    | _ => some (s, none)
  else if src = 1 then
    let base := s.fld Reg.TILE_P_MIX2.bg_base t 0 c
    let g := s.tableSpan (s.regionOf base) base (grainsOfWidth 2 w)
    some (g.2, some ((g.1.flatMap (fun x => (rawSamples 2 x.1).map (sampleValue 2))).take w,
      fun col => (g.1.getD (col / 4) (0, Blemish.clear)).2))
  else if src = 2 then
    let sh := s.qShape ((s.tileCfg t).fld Reg.TILE_CTRL2.y_q t)
    match s.yFind (s.fill ((s.tileCfg t).fld Reg.TILE_CTRL2.y_q t) + 1) t l.tag.index with
    | none => none
    | some (d, some ⟨_, some y, _, _⟩) =>
      if y.xs.length = w then some (d, some (y.xs, y.at_ (shapeN sh))) else some (d, none)
    | some (d, _) => some (d, none)
  else some (s, none)

/-- Does a bank name a context as the source of the held line (R156)? -/
def Dev.heldNamed (s : Dev) (t ctx : Nat) : Bool :=
  (List.range 16).any (fun b => s.fld Reg.TILE_P_MIX.y_src t 0 b == 0 && s.fld Reg.TILE_P_MIX.y_ctx t 0 b == ctx)

/-- The held line of a context is captured as it reaches MIX, as G4x18, in the copy that is not current (R156, R162, R164). -/
def Dev.capture (s : Dev) (t n : Nat) (e : CnvEntry) : Dev :=
  let ctx := (Tag.of e.head.1).ctx
  let line := e.line.map (fun l => l.mapX (fun _ x => clamp18 x))
  let was := (Sparse.find ctx (s.tile t).heldLines).bind (fun x => x.slot)
  let slot := if s.heldNamed t ctx then otherCopy (s.mixSlot t ctx) was else none
  let a := match line, slot with
    | some l, some x => s.keepLine n 2 x l
    | _, _ => s
  a.modTile t (fun r => { r with
    heldLines := Sparse.insert ctx { e with line := line, slot := if line.isSome then slot else was } r.heldLines })

/-- MIX on a line (R156, R157); none while the line of y_q may still come. -/
def Dev.doMix (s : Dev) (t n : Nat) (pass : Bool) (l : ULine) : Option (Dev × List UItem) :=
  let c := l.tag.ctx
  if pass then some (s.capture t n ⟨l.colon, some l, false, none⟩, [.line l])
  else
    let ka := s.sfld Reg.TILE_P_MIX.a t 0 c
    let kb := s.sfld Reg.TILE_P_MIX.b t 0 c
    let kc := s.sfld Reg.TILE_P_MIX.c t 0 c
    (s.mixSource t n l).map (fun src =>
      let y := fun (w : Nat → Int) => l.mapX (fun i x => sat24 (rshiftRound (ka * x + kb * w i) 14 + kc))
      match src.2 with
      | some (ws, fl) =>
        (src.1.capture t n ⟨l.colon, some l, false, none⟩,
         [.line { y (fun i => ws.getD i 0) with blem := grainFlags n l.xs.length (fun cols =>
           if cols.isEmpty then l.at_ n 0 else Blemish.or (l.over n cols) (Blemish.all (cols.map fl))) }])
      | none =>
        ((src.1.countAnd Reg.TILE_STAT2.mix_stale t 0 1 3 t (s.tileOwner t) 0 l.tag.index).capture t n ⟨l.colon, some l, false, none⟩,
         [.line { y (fun _ => 0) with blem := l.blem.map (fun b => { b with sus := true }) }]))

/-! ### The fused operators (R138–R144, R161, R162) -/

/-- An item passes the operator of a slot; none where MIX must wait for y_q. -/
def Dev.opItem (s : Dev) (t n k : Nat) (it : UItem) : Option (Dev × List UItem) :=
  let op := s.tileOp t k
  let pass := s.bypassed t k it.tag
  match it with
  | .gone c =>
    if op = opCnv ∧ !pass then some (s.doCnv t n ⟨c, none, false, none⟩)
    else if op = opSum ∧ !pass then some (s.doSum t n ⟨c, none, false, none⟩ 0)
    else if op = opMix then some (s.capture t n ⟨c, none, false, none⟩, [it])
    else some (s, [it])
  | .line l =>
    if op = opBlk then some (s.doBlk t n pass l)
    else if op = opMix then s.doMix t n pass l
    else if pass then some (s, [it])
    else if op = opDfx then some (s.doDfx t n l)
    else if op = opFlt then some (s.doFlt t n l)
    else if op = opLin then some (s, s.doLin t l)
    else if op = opLut then some (s.doLut t n l)
    else if op = opCnv then some (s.doCnv t n ⟨l.colon, some (l.mapX (fun _ x => clamp18 x)), false, none⟩)
    else if op = opSum then some (s.doSum t n ⟨l.colon, some l, false, none⟩ l.pos)
    else if op = opBin then some (s, s.doBin t n l)
    else if op = opClp then some (s.doClp t l)
    else if op = opPak then some (s, s.doPak t l)
    else some (s, [it])

/-- What an operator still holds at the end of a block. -/
def Dev.opFlush (s : Dev) (t n k : Nat) : Dev × List UItem :=
  if s.tileOp t k = opCnv then s.flushCnv t n else if s.tileOp t k = opSum then s.flushSum t n else (s, [])

/-- Items pass the operator of a slot one after another. -/
def Dev.opItems (s : Dev) (t n k : Nat) : List UItem → Option (Dev × List UItem)
  | [] => some (s, [])
  | it :: rest =>
    match s.opItem t n k it with
    | none => none
    | some (d, outs) => (d.opItems t n k rest).map (fun r => (r.1, outs ++ r.2))

/-- Items pass the slots in order, at the end of a block with what the operators hold: what leaves the tile, and what CPY copies. -/
def Dev.runOps (s : Dev) (t n : Nat) (flush : Bool) : List Nat → List UItem → Option (Dev × List UItem × List UItem)
  | [], items => some (s, items, [])
  | k :: rest, items =>
    match s.opItems t n k items with
    | none => none
    | some (d, outs) =>
      let f := if flush then d.opFlush t n k else (d, [])
      let all := outs ++ f.2
      let copied := if s.tileOp t k = opCpy then all.filter (fun i => !s.bypassed t k i.tag) else []
      (f.1.runOps t n flush rest all).map (fun r => (r.1, r.2.1, copied ++ r.2.2))

/-- Items leave the tile for out_q and, where CPY stands, copy_q (R140, R161). -/
def Dev.tileEmit (s : Dev) (t n : Nat) (items copies : List UItem) (ending : Option Bool) : Dev :=
  let q := s.tileOut t
  let a := s.qEmit (.tile t) q (emitCells n (s.qShape q) items ending)
  match s.tileCopy t with
  | none => a
  | some cq => a.qWriteAll cq (emitCells n (s.qShape cq) copies ending)

/-- The queues that a tile writes. -/
def Dev.tileOuts (s : Dev) (t : Nat) : List Nat := s.tileOut t :: (s.tileCopy t).toList

/-- A pilcrow passes (R140). -/
def Dev.tilePil (s : Dev) (t : Nat) (c : Cell) : Dev :=
  let a := (s.switchUnit 3 t (pilBlockOf c.1)).modTile t (fun r => { r with block := some (pilBlockOf c.1) })
  let b := a.qWrite (a.tileOut t) c
  match a.tileCopy t with
  | none => b
  | some cq => b.qWrite cq c

/-! ### One line (R140, R142, R166, R170) -/

/-- The place of a line in its trigger group (R147), counted. -/
def Dev.place (s : Dev) (t : Nat) (g : Tag) : Nat × Dev :=
  let r := s.tile t
  let p := match Sparse.find g.ordinal r.places with
    | some (i, n) => if i = g.index then n else 0
    | none => 0
  (p, s.setTile t { r with places := Sparse.insert g.ordinal (g.index, p + 1) r.places })

/-- The bank of a line's context switches where a commit takes effect at it (R166); the order of its pixel list is judged anew. -/
def Dev.tileBank (s : Dev) (t : Nat) (g : Tag) : Dev :=
  let a := s.switchBank tileWin t g.ctx g.index (s.tileOwner t)
  if s.bankOf tileWin t g.ctx g.index = 16 then
    a.modTile t (fun r => { r with disordered := r.disordered.filter (fun b => b != a.fld Reg.TILE_P_DFX.list_base t 0 g.ctx) })
  else a

/-- A line or ellipsis of in_q as the operators take it: its bank selected and its place counted (R147, R166). -/
def Dev.tileTaken (s : Dev) (t q : Nat) (sc : Scan) (h : Cell) : UItem × Dev :=
  let p := (s.tileBank t (Tag.of h.1)).place t (Tag.of h.1)
  (match sc.item with
    | .line c br data => .line (lineOf (s.qShape q) ((s.tileCfg t).fld Reg.TILE_CTRL2.in_width t) c br data p.1)
    | _ => .gone h, p.2)

/-- The release of y_q with a line of in_q (R170). -/
def Dev.yRelease (s : Dev) (t : Nat) : Dev :=
  let y := (s.tileCfg t).fld Reg.TILE_CTRL2.y_q t
  if (s.tileCfg t).flag Reg.TILE_CTRL2.y_enable t ∧ s.rp y ≠ s.lp y then s.releaseDue y false (s.tileOuts t) else s

/-- What the operators made of an item of in_q is written, and the item is released once it is (R140, R170). -/
def Dev.tileLeave (s : Dev) (t q : Nat) (sc : Scan) (items copies : List UItem) : Dev :=
  let a := ((((s.takeScan q sc).tileEmit t (s.tileN t) items copies sc.item.ending)).releaseAfter q sc.item (s.tileOuts t)).yRelease t
  if sc.item.endsInput then a.modTile t (fun r => { r with block := none }) else a

/-- A line or ellipsis runs through the tile; none where it must wait for y_q. -/
def Dev.tileItem (s : Dev) (t : Nat) (q : Nat) (sc : Scan) (h : Cell) : Option Dev :=
  let x := s.tileTaken t q sc h
  (x.2.runOps t (s.tileN t) sc.item.endsInput [0, 1, 2, 3] [x.1]).map (fun r => r.1.tileLeave t q sc r.2.1 r.2.2)

/-- The end of a block without a line (R153, R154). -/
def Dev.tileEnd (s : Dev) (t : Nat) (ending : Option Bool) : Dev :=
  match s.runOps t (s.tileN t) true [0, 1, 2, 3] [] with
  | none => s
  | some r => (r.1.tileEmit t (s.tileN t) r.2.1 r.2.2 ending).modTile t (fun r => { r with block := none })

/-- The tile takes one item of in_q; a pilcrow that cuts a block short ends it with a bare full stop first (R51). -/
def Dev.tileTake (s : Dev) (t q : Nat) (sc : Scan) : Dev :=
  match sc.item with
  | .noise => (s.takeScan q sc).releaseItem q sc.item
  | .stop => ((s.takeScan q sc).tileEnd t (some false)).releaseAfter q sc.item (s.tileOuts t)
  | .pil c cut =>
    let a := s.takeScan q sc
    ((if cut ∧ (a.tile t).block.isSome then a.tileEnd t (some false) else a).tilePil t c).releaseAfter q sc.item (s.tileOuts t)
  | it => (s.tileItem t q sc (it.head?.getD idleCell)).getD s

/-! ### Residue mismatches, replays and understudies (R169–R171, R385–R387) -/

/-- The state of an understudy: 0 free, 1 replaying, 2 serving, 3 retired or failed (R402). -/
def Dev.undState (s : Dev) (u : Nat) : Nat := s.fld Reg.INTG_UND.state (u - 256)

/-- The understudies, and the free ones in ascending order. -/
def understudies : List Nat := (List.range 16).map (fun k => 256 + k)
def Dev.freeUnds (s : Dev) : List Nat := understudies.filter (fun u => s.undState u == 0)

/-- INTG_SPARE counts the pool. -/
def Dev.countSpare (s : Dev) : Dev := s.setF Reg.INTG_SPARE.free s.freeUnds.length

/-- An understudy's state and logical tile. -/
def Dev.setUnd (s : Dev) (u state t : Nat) : Dev :=
  ((s.setF Reg.INTG_UND.state state (u - 256)).setF Reg.INTG_UND.tile t (u - 256)).countSpare

/-- The physical tile that executes a logical tile's lines (R172). -/
def Dev.serving (s : Dev) (t : Nat) : Nat := s.fld Reg.TILE_STATE.serving t

/-- A physical tile reaches its retirement limit while it works for a logical tile (R386, R387). -/
def Dev.retire (s : Dev) (t phys : Nat) : Dev :=
  let owner := s.tileOwner t
  let r := s.tile t
  let own := r.lastUnd.filter (fun u => u != phys && (s.undState u == 0 || (s.undState u == 1 && s.fld Reg.INTG_UND.tile (u - 256) == t)))
  match own.orElse (fun _ => s.freeUnds.find? (fun u => u != phys)) with
  | none => if (s.tile phys).noUnd then s
            else (s.modTile phys (fun r => { r with noUnd := true })).alarm 3 2 phys owner
  | some u =>
    let a := if 256 ≤ phys then s.setF Reg.INTG_UND.state 3 (phys - 256) else s
    let b := if s.serving t = phys then
        (a.setF Reg.TILE_STATE.serving u t).setUnd u 2 t
      else a.countSpare
    if s.serving t = phys then b.alarmAt Reg.TILE_STATE.serving t 0 3 1 phys owner
    else if 256 ≤ phys then b.alarmAt Reg.INTG_UND.state (phys - 256) 0 3 1 phys owner
    else b.alarm 3 1 phys owner

/-- A residue mismatch on a physical tile (R171, R386): counted, logged, and judged for retirement. -/
def Dev.mismatchOn (s : Dev) (t phys slot idx : Nat) : Dev :=
  let owner := s.tileOwner t
  let detail := idx % 2 ^ 48 + slot * 2 ^ 48
  let a := (s.bump Reg.TILE_STAT.residue_fail phys).log 3 phys owner detail (Reg.TILE_STAT.residue_fail.addr phys 0 0) 32
  let b := if 256 ≤ phys then a.bump Reg.INTG_UND.mismatches (phys - 256) else a
  let since := s.fld Reg.INTG_CTRL.retire_window * Config.msPs
  let recent := ((s.tile phys).mismatches.filter (fun x => s.now < x + since)) ++ [s.now]
  let d := b.modTile phys (fun r => { r with mismatches := recent })
  if s.fld Reg.INTG_CTRL.retire_limit ≤ recent.length ∧ (phys < 256 ∨ s.undState phys ≠ 3) then d.retire t phys else d

/-- The understudy that replays next: a free one, another than the last if there is one, else the last (R385). -/
def Dev.nextUnd (s : Dev) (last : Option Nat) : Option Nat :=
  match s.freeUnds.head? with
  | some u => some u
  | none => last.filter (fun u => s.undState u == 1)

/-- An understudy counts as replaying for a tile; one that serves keeps that state. -/
def Dev.startReplay (s : Dev) (t fails : Nat) (last : Option Nat) : Dev :=
  let u := s.nextUnd last
  let a := match last with
    | some v => if s.undState v = 1 ∧ u ≠ some v then s.setUnd v 0 0 else s
    | none => s
  let b := match u with
    | some v => a.setUnd v 1 t
    | none => a
  b.modTile t (fun r => { r with replay := some (fails, u), lastUnd := u.orElse (fun _ => r.lastUnd) })

/-- A replay is over: its understudy returns to the pool. -/
def Dev.endReplay (s : Dev) (t : Nat) (und : Option Nat) : Dev :=
  let a := s.modTile t (fun r => { r with replay := none })
  match und with
  | some u => if a.undState u = 1 then a.setUnd u 0 0 else a
  | none => a

/-- A line lost to a residue failure leaves as its ellipsis. -/
def UItem.lost : UItem → UItem
  | .line l => .gone (ellipsisCell l.colon)
  | x => x

/-- What an item of in_q gives the operators, and whether it ends the block; none where it gives them nothing. -/
def Dev.tileInput (s : Dev) (t q : Nat) (sc : Scan) : Option (List UItem × Bool × Dev) :=
  match sc.item with
  | .stop => some ([], true, s)
  | .pil _ cut => if cut ∧ (s.tile t).block.isSome then some ([], true, s) else none
  | .noise => none
  | it =>
    let x := s.tileTaken t q sc (it.head?.getD idleCell)
    some ([x.1], it.endsInput, x.2)

/-- What passes the operator of a slot at an item: the items that enter it, those that leave it, and the device after it. -/
def Dev.slotFlow (s : Dev) (t q k : Nat) (sc : Scan) : Option (List UItem × List UItem × List UItem × Dev) :=
  match s.tileInput t q sc with
  | none => none
  | some (input, flush, a) =>
    match a.runOps t (s.tileN t) flush ((List.range 4).take k) input with
    | none => none
    | some (b, ins, c1) =>
      (b.runOps t (s.tileN t) flush [k] ins).map (fun r => (ins, r.2.1, c1 ++ r.2.2, r.1))

/-- Does the operator of a slot compute a line at an item (R169): one enters it, or CNV or SUM emits one there? -/
def Dev.slotComputes (s : Dev) (t q k : Nat) (sc : Scan) : Bool :=
  s.tileOp t k != 0 && ((s.slotFlow t q k sc).map (fun r => (r.1 ++ r.2.1).any UItem.isLine)).getD false

/-- Does CNV or SUM stand in a slot up to k, so that the lines which leave slot k are not the line read? -/
def Dev.holdsBefore (s : Dev) (t k : Nat) : Bool := (List.range (k + 1)).any (fun j => s.tileOp t j == opCnv || s.tileOp t j == opSum)

/-- What leaves the tile at an item whose computation in a slot has failed for good (R171): the lines that leave that slot are lost, where they
are others than the line read; else the line read is, which every operator then sees as an ellipsis. With the heads of the lines lost. -/
def Dev.lostFlow (s : Dev) (t q k : Nat) (sc : Scan) (h : Cell) : Option (Dev × List UItem × List UItem × List Cell) :=
  let n := s.tileN t
  let flush := sc.item.endsInput || (match sc.item with
    | .pil _ _ => true
    | _ => false)
  match (s.slotFlow t q k sc).filter (fun r => s.holdsBefore t k && r.2.1.any UItem.isLine) with
  | some (_, outs, copies, b) =>
    (b.runOps t n flush ((List.range 4).drop (k + 1)) (outs.map UItem.lost)).map (fun r =>
      (r.1, r.2.1, (copies ++ r.2.2).map UItem.lost, (outs.filter UItem.isLine).map UItem.head))
  | none =>
    match s.tileInput t q sc with
    | none => none
    | some (_, _, a) => (a.runOps t n flush [0, 1, 2, 3] [.gone (ellipsisCell h)]).map (fun r => (r.1, r.2.1, r.2.2, [h]))

/-- What was made of an item leaves the tile, a pilcrow that cut a block short after it (R51, R140). -/
def Dev.tileFinish (s : Dev) (t q : Nat) (sc : Scan) (items copies : List UItem) : Dev :=
  match sc.item with
  | .pil c _ =>
    ((((s.takeScan q sc).tileEmit t (s.tileN t) items copies (some false)).modTile t (fun r => { r with block := none })).tilePil t c).releaseAfter
      q sc.item (s.tileOuts t)
  | _ => s.tileLeave t q sc items copies

/-- A line that two replays have failed (R171): an ellipsis on out_q, FAILED RESIDUE, an ALARM. -/
def Dev.replayFailed (s : Dev) (t q slot : Nat) (sc : Scan) (h : Cell) : Dev :=
  match s.lostFlow t q slot sc h with
  | none => s
  | some (d, items, copies, lines) =>
    let a := lines.foldl (fun e c => e.endLine (s.tileOut t) c.1 stFailed caResidue) (d.tileFinish t q sc items copies)
    (a.bump Reg.TILE_STAT.replay_fail t).alarm 3 0 t (s.tileOwner t)
      ((Tag.of h.1).index + slot * 2 ^ 48) (Reg.TILE_STAT.replay_fail.addr t 0 0) 48

/-- A mismatch of the tile itself or of a replay (R171, R385). -/
def Dev.tileMismatch (s : Dev) (t q slot : Nat) (sc : Scan) (h : Cell) : Dev :=
  let idx := (Tag.of h.1).index
  match (s.tile t).replay with
  | none => (s.startReplay t 1 none).mismatchOn t (s.serving t) slot idx
  | some (fails, und) =>
    let a := s.mismatchOn t (und.getD (s.serving t)) slot idx
    if 2 < fails + 1 then (a.replayFailed t q slot sc h).endReplay t und
    else a.startReplay t (fails + 1) und

/-- May a tile take an item: in use, its partition and island run, and no write of it waits (R58, R161, R439)? -/
def Dev.tileReady (s : Dev) (t : Nat) : Bool :=
  (s.tileCfg t).flag Reg.TILE_CTRL.enable t && s.unitRuns (s.tileOwner t) (s.serving t) && !s.qStalled (s.tileOut t)
    && ((s.tileCopy t).map (fun q => !s.qStalled q)).getD true

/-- The head of the first line that CNV or SUM still holds at the end of a block. -/
def Dev.windowHead (s : Dev) (t : Nat) : Option Cell :=
  ((((s.tile t).windows.flatMap (fun w => w.2)).filter (fun e => !e.emitted)).map (fun e => e.head) ++
    (s.tile t).groups.map (fun g => g.2.first)).head?

/-- Errors that LUT pages have taken (R376, R377). -/
def Dev.pageStrikes (s : Dev) (t : Nat) (pages : List BufErr) : Dev :=
  if pages.isEmpty then s
  else s.modTile t (fun r => { r with
    pageErrs := pages.foldl (fun m e => Sparse.insert e.grain (if e.double then SlotErr.double else SlotErr.single) m) r.pageErrs })

/-- A tile takes its next item; a mismatch can befall it where the operator of the slot computes, errors its data grains in the tile's buffers. -/
def Dev.tileTurn (s0 : Dev) (t : Nat) (replay : Bool) (mismatch : Option (Fin 4)) (errs pages : List BufErr := []) : Dev :=
  let s := s0.pageStrikes t pages
  let a := if replay then s else s.switchAt 3 t (s.tile t).block.isSome (fun c => [c.fld Reg.TILE_CTRL.in_q t])
  if a.tileReady t && (a.tile t).replay.isSome == replay then
    let c := a.tileCfg t
    let q := c.fld Reg.TILE_CTRL.in_q t
    match a.peekItem q (some (c.fld Reg.TILE_CTRL2.in_width t)) with
    | none => a
    | some sc0 =>
      let sc := { sc0 with item := sc0.item.strike errs }
      let b := a.bufferAlarms 3 t (sc0.item.lost errs)
      match mismatch.filter (fun k => b.slotComputes t q k.val sc) with
      | some k => b.tileMismatch t q k.val sc (sc.item.head?.getD ((b.windowHead t).getD idleCell))
      | none => (b.tileTake t q sc).endReplay t ((b.tile t).replay.bind (fun x => x.2))
  else a

/-- TILE_LINE (R142). -/
def execTileLine (t : TileId) (mismatch : Option (Fin 4)) (s : State) (errs : List BufErr := []) (pages : List BufErr := []) : Out :=
  s.run (fun d => d.unlessStalled (d.tileOwner t.val) (fun e => e.tileTurn t.val false mismatch errs pages))

/-- UNDERSTUDY_REPLAY (R385). -/
def execUnderstudyReplay (t : TileId) (mismatch : Option (Fin 4)) (s : State) (errs : List BufErr := []) (pages : List BufErr := []) : Out :=
  s.run (fun d => d.unlessStalled (d.tileOwner t.val) (fun e => e.tileTurn t.val true mismatch errs pages))

/-! ### Parameter commits and LUT pages (R167, R168, R172) -/

/-- Is a bank of a tile valid (R167)? -/
def Dev.tileBankOk (s : Dev) (t k : Nat) : Bool :=
  s.fld Reg.TILE_P_CNV.h_taps t 0 k % 2 == 1 && s.fld Reg.TILE_P_CNV.v_taps t 0 k % 2 == 1 &&
    s.fld Reg.TILE_P_LUT.shift t 0 k ≤ 6 && s.fld Reg.TILE_P_SUM.sum_shift t 0 k ≤ 5 &&
    s.fld Reg.TILE_P_MIX.y_src t 0 k != 3

/-- TILE_COMMIT_ARM (R167). -/
def execTileCommitArm (t : TileId) (s : State) : Out :=
  s.run (fun d => d.armBank tileWin t.val (d.tileOwner t.val) (d.tileBankOk t.val 16))

/-- TILE_COMMIT_CANCEL (R167). -/
def execTileCommitCancel (t : TileId) (s : State) : Out := s.run (fun d => d.cancelBank tileWin t.val)

/-- TILE_BANK_COPY (R172). -/
def execTileBankCopy (t : TileId) (s : State) : Out := s.run (fun d => d.shadowFrom tileWin t.val (d.tileOwner t.val))

/-- Is a LUT page named by an active bank or by an armed shadow (R168)? -/
def Dev.pageInUse (s : Dev) (t page : Nat) : Bool :=
  (List.range 16).any (fun c => s.fld Reg.TILE_P_LUT.page t 0 c == page) ||
    ((s.armedAt tileWin t).isSome && s.fld Reg.TILE_P_LUT.page t 0 16 == page)

/-- go of TILE_LUT_LOAD (R168); a load in progress goes on. -/
def Dev.lutLoad (s : Dev) (t : Nat) : Dev :=
  let page := s.fld Reg.TILE_LUT_LOAD.page t
  if (s.tile t).loading.isSome then s
  else if s.pageInUse t page then
    (s.setF Reg.TILE_LUT_LOAD.status 3 t).log 3 t (s.tileOwner t) (Reg.TILE_LUT_LOAD.go.addr t 0 0)
  else (s.setF Reg.TILE_LUT_LOAD.status 1 t).modTile t (fun r => { r with loading := some (s.fld Reg.TILE_LUT_LOAD.src t, page) })

/-- LUT_PAGE_LOAD (R168). -/
def execLutPageLoad (t : TileId) (s : State) : Out := s.run (fun d => d.lutLoad t.val)

/-- The load of a page finishes (R168). -/
def Dev.lutDone (s : Dev) (t : Nat) : Dev :=
  match (s.tile t).loading with
  | none => s
  | some (src, page) =>
    let g := s.tableSpan (s.regionOf src) src 1024
    (g.2.setF Reg.TILE_LUT_LOAD.status 2 t).modTile t (fun r => { r with
      loading := none, pages := Sparse.insert page g.1 r.pages
      pageErrs := r.pageErrs.filter (fun e => e.1 / 1024 != page) })

/-- LUT_LOAD_DONE (R168). -/
def execLutLoadDone (t : TileId) (s : State) : Out := s.run (fun d => d.lutDone t.val)

end Sys2Proof.Machine
end

