-- ==== Sys2Proof/Machine/Kal.lean ====
section
/-! DEFINITION. The Kaleidoscope units (R173–R192). -/

namespace Sys2Proof.Machine

/-- The record of a unit replaced by a function of it. -/
def Dev.modKal (s : Dev) (u : Nat) (f : KalRec → KalRec) : Dev := s.setKal u (f (s.kal u))

/-- A unit's configuration. -/
def Dev.kalCfg (s : Dev) (u : Nat) : RegFile := s.cfg 4 u
def Dev.kalOwner (s : Dev) (u : Nat) : Nat := (s.kalCfg u).fld Reg.KAL_CTRL.owner u
def Dev.kalIn (s : Dev) (u : Nat) : Nat := (s.kalCfg u).fld Reg.KAL_CTRL.in_q u
def Dev.kalWidth (s : Dev) (u : Nat) : Nat := (s.kalCfg u).fld Reg.KAL_CTRL.in_width u
def Dev.kalPx (s : Dev) (u : Nat) : Nat := (s.kalCfg u).fld Reg.KAL_MOSAIC.px u + 1
def Dev.kalPy (s : Dev) (u : Nat) : Nat := (s.kalCfg u).fld Reg.KAL_MOSAIC.py u + 1
def Dev.kalInts (s : Dev) (u : Nat) : Nat := (s.kalCfg u).fld Reg.KAL_CTRL.n_int u + 1
def Dev.kalOuts (s : Dev) (u : Nat) : Nat := (s.kalCfg u).fld Reg.KAL_CTRL.n_out u + 1
def Dev.kalOutQ (s : Dev) (u o : Nat) : Nat := (s.kalCfg u).fld Reg.KAL_OUT.out_q u o

/-- The channel code of cell (ρ, φ) (R176). -/
def Dev.cellCode (s : Dev) (u ρ φ : Nat) : Nat :=
  (s.kalCfg u).fld (fldUp Reg.KAL_CELLS.code0 (3 * ((8 * ρ + φ) % 16))) u ((8 * ρ + φ) / 16)

/-- The phase of a column (R176). -/
def Dev.phase (s : Dev) (u c : Nat) : Nat := (c + (s.kalCfg u).fld Reg.KAL_MOSAIC.col_phase u) % s.kalPx u

/-- off_p of a bank (R177). -/
def Dev.rowOff (s : Dev) (u k p : Nat) : Nat := s.fld (fldUp Reg.KAL_P_OFFSETS.off0 (5 * p)) u 0 k
/-- The channel, centre row and guided bit of plane i (R180, R183). -/
def Dev.planeCode (s : Dev) (u k i : Nat) : Nat := s.fld (fldUp Reg.KAL_P_PLANE.channel0 (7 * i)) u 0 k
def Dev.centreRow (s : Dev) (u k i : Nat) : Nat := s.fld (fldUp Reg.KAL_P_PLANE.centre_row0 (7 * i)) u 0 k
def Dev.planeGuided (s : Dev) (u k i : Nat) : Bool := s.fld (fldUp Reg.KAL_P_PLANE.guided0 (7 * i)) u 0 k == 1
def Dev.kalGuided (s : Dev) (u k : Nat) : Bool := s.fld Reg.KAL_P_KERN.guided u 0 k == 1
def Dev.vHalf (s : Dev) (u k : Nat) : Nat := s.fld Reg.KAL_P_KERN.v_half u 0 k
/-- h_eff (R186). -/
def Dev.hEff (s : Dev) (u k : Nat) : Nat := if s.kalGuided u k then 2 * s.vHalf u k else s.vHalf u k
/-- The look-back of kernels in groups: ceil(h_eff / py). -/
def Dev.kalReach (s : Dev) (u k : Nat) : Nat := (s.hEff u k + s.kalPy u - 1) / s.kalPy u
/-- Δ (R186). -/
def Dev.kalDelta (s : Dev) (u k : Nat) : Nat :=
  ((List.range (s.kalPy u)).map (s.rowOff u k)).foldl max 0 + s.kalReach u k

/-! ### Alignment (R177–R179) -/

/-- Slots of a group in a ring (R188). -/
def Dev.kalGroupSlots (s : Dev) (u : Nat) : Nat := s.kalPy u * ((s.kalWidth u + 3) / 4 + 2)

/-- Groups that the ring of a context has room for. -/
def Dev.kalRingGroups (s : Dev) (u : Nat) : Nat := (s.kalCfg u).fld Reg.KAL_SCRATCH.stride u / s.kalGroupSlots u

/-- The slot of row p of group n of a context (R188); none where the ring is smaller than the bank requires. DESIGN CHOICE (log entry 102): the
groups follow one another round the ring, the rows of a group in order, each a colon, a bracket and its samples. -/
def Dev.kalSlot (s : Dev) (u c k n p : Nat) : Option Nat :=
  let g := s.kalRingGroups u
  if s.kalDelta u k + s.kalReach u k + 4 ≤ g ∧ p < s.kalPy u then
    some ((s.kalCfg u).fld Reg.KAL_SCRATCH.base u + c * (s.kalCfg u).fld Reg.KAL_SCRATCH.stride u + n % g * s.kalGroupSlots u
      + p * ((s.kalWidth u + 3) / 4 + 2))
  else none

/-- The groups of a context in the open block. -/
def Dev.kalGroups (s : Dev) (u c : Nat) : List KalGroup := (Sparse.find c (s.kal u).groups).getD []

/-- The groups of a context replaced. -/
def Dev.setGroups (s : Dev) (u c : Nat) (gs : List KalGroup) : Dev :=
  s.modKal u (fun r => { r with groups := Sparse.insert c gs r.groups })

/-- The line at a position of a group, if it is present. -/
def KalGroup.row (g : KalGroup) (p : Nat) : Option ULine := (g.rows[p]?).bind (fun r => r.line)

/-- Is every line of a group an ellipsis? -/
def KalGroup.void (g : KalGroup) : Bool := g.rows.all (fun r => r.line.isNone)

/-- The groups that set j draws on, read back from the ring (R188): from as far back as a kernel or a replacement may reach (R178, R186). -/
def Dev.rereadGroups (s : Dev) (u k j : Nat) (gs : List KalGroup) : List KalGroup × Dev :=
  let lo := j - (s.kalReach u k + 2)
  gs.zipIdx.foldl (fun r gi =>
    if lo ≤ gi.2 ∧ gi.2 ≤ j + s.kalDelta u k then
      let x := r.2.heldRows (shapeN (s.qShape (s.kalIn u))) gi.1.rows
      (r.1 ++ [{ gi.1 with rows := x.1 }], x.2)
    else (r.1 ++ [gi.1], r.2)) ([], s)

/-- The row that stands for virtual row v of the groups (R177, R178): the line and whether it is a replacement, or none. -/
def Dev.virtualRow (s : Dev) (u k : Nat) (gs : List KalGroup) (v : Int) : Option (ULine × Bool) :=
  let py := s.kalPy u
  let p := (v % py).toNat
  let g := (max 0 (min (v / py + s.rowOff u k p) ((gs.length : Int) - 1))).toNat
  match (gs[g]?).bind (fun x => x.row p) with
  | some l => some (l, false)
  | none =>
    match ([1, 2].findSome? (fun d => if d ≤ g then (gs[g - d]?).bind (fun x => x.row p) else none)) with
    | some l => some (l, true)
    | none => none

/-- The guide plane of a guided bank (R183). -/
def Dev.guidePlane (s : Dev) (u k : Nat) : Option Nat :=
  if s.kalGuided u k then (List.range (s.kalInts u)).find? (fun i => s.planeCode u k i == 3) else none

/-- Is plane i computed by R183: a guide plane exists, is another, and the plane's own guided bit is set? -/
def Dev.byGuide (s : Dev) (u k i : Nat) : Bool := (s.guidePlane u k).any (fun g => g != i) && s.planeGuided u k i

/-- The virtual rows of set j: its own rows and every row that a kernel reads. -/
def Dev.rowsOf (s : Dev) (u k j : Nat) : List Int :=
  let py := s.kalPy u
  let h := s.vHalf u k
  let span := fun (v : Int) (h : Nat) => (List.range (2 * h + 1)).map (fun (r : Nat) => v + r - h)
  let planes := (List.range (s.kalInts u)).flatMap (fun i =>
    span ((py * j + s.centreRow u k i : Nat) : Int) (if s.byGuide u k i then 2 * h else h))
  ((List.range py).map (fun p => ((py * j + p : Nat) : Int)) ++ planes).eraseDups

/-! ### Reconstruction (R180–R185) -/

/-- A column position folded into the line, its phase kept (R181). -/
def foldCol (px w : Nat) (c : Int) : Nat :=
  if c < 0 then (c + px * ((-c + px - 1) / px)).toNat
  else if (w : Int) ≤ c then (c - px * ((c - w + 1 + px - 1) / px)).toNat else c.toNat

/-- The kernels of set computations: for plane i, row ρ and phase φ, the 25 coefficients (R182) and the flags of their table grains (R376). -/
structure Kernel where
  plane : Nat
  row : Nat
  phase : Nat
  coeffs : List Int
  flags : Blemish

/-- The kernel table grains read for a set (R182, R187). -/
def Dev.fetchKernels (s : Dev) (u k : Nat) : List Kernel × Dev :=
  let base := s.fld Reg.KAL_P_KERN.kernel_base u 0 k
  let plain := (List.range (s.kalInts u)).map (fun i => (i, s.centreRow u k i))
  let extra := match s.guidePlane u k with
    | some g => (List.range (s.kalPy u)).map (fun r => (g, r))
    | none => []
  ((plain ++ extra).flatMap (fun ir => (List.range (s.kalPx u)).map (fun φ => (ir.1, ir.2, φ)))).foldl (fun acc irf =>
    let g := acc.2.tableSpan (acc.2.regionOf base) (base + 7 * (64 * irf.1 + 8 * irf.2.1 + irf.2.2)) 7
    (acc.1 ++ [⟨irf.1, irf.2.1, irf.2.2, (List.range 25).map (fun m =>
      toSigned 16 (bits (g.1.getD (m / 4) (0, Blemish.clear)).1 (16 * (m % 4) + 15) (16 * (m % 4)))),
      Blemish.all (g.1.map (fun x => x.2))⟩], g.2)) ([], s)

/-- What a set is computed from: its geometry, its kernels, and the line that stands for each virtual row. -/
structure KalSet where
  px : Nat
  py : Nat
  w : Nat
  h : Nat
  ks : List Kernel
  rows : List (Int × ULine)
  code : Int → Nat → Nat
  phase : Nat → Nat

/-- The line of a virtual row. -/
def KalSet.line (m : KalSet) (v : Int) : Option ULine := (m.rows.find? (fun r => r.1 == v)).map (fun r => r.2)

/-- The input sample of a virtual row at a column inside the line; zero in a cell of code 7 (R180). -/
def KalSet.x (m : KalSet) (v : Int) (c : Nat) : Int :=
  if m.code v c = 7 then 0 else ((m.line v).map (fun l => clamp18 (l.x c))).getD 0

/-- The kernel of a plane for the cell of a virtual row and column. -/
def KalSet.kernel (m : KalSet) (i : Nat) (v : Int) (c : Nat) : Option Kernel :=
  m.ks.find? (fun k => k.plane == i && k.row == (v % m.py).toNat && k.phase == m.phase c)

/-- A coefficient of it. -/
def KalSet.coeff (m : KalSet) (i : Nat) (v : Int) (c r d : Nat) : Int :=
  ((m.kernel i v c).map (fun k => k.coeffs.getD (5 * r + d) 0)).getD 0

/-- The flags of its table grains. -/
def KalSet.kernelFlags (m : KalSet) (i : Nat) (v : Int) (c : Nat) : Blemish := ((m.kernel i v c).map (fun k => k.flags)).getD Blemish.clear

/-- The flags of the input grain that holds a sample. -/
def KalSet.sampleFlags (m : KalSet) (n : Nat) (v : Int) (c : Nat) : Blemish := ((m.line v).map (fun l => l.at_ n c)).getD Blemish.clear

/-- The taps (r, d) of a kernel: offsets plus 2. -/
def KalSet.taps (m : KalSet) : List (Nat × Nat) :=
  (List.range (2 * m.h + 1)).flatMap (fun r => (List.range 5).map (fun d => (r + 2 - m.h, d)))

/-- The virtual row and the folded column of a tap. -/
def KalSet.tapAt (m : KalSet) (v : Int) (c : Nat) (t : Nat × Nat) : Int × Nat :=
  (v + t.1 - 2, foldCol m.px m.w ((c : Int) + t.2 - 2))

/-- y of R180 at virtual row v and column c. -/
def KalSet.plain (m : KalSet) (i : Nat) (v : Int) (c : Nat) : Int :=
  sat24 (rshiftRound ((m.taps.map (fun t => m.coeff i v c t.1 t.2 * m.x (m.tapAt v c t).1 (m.tapAt v c t).2)).foldl (· + ·) 0) 14)

/-- y of R183, with guide plane g and the plane's channel code. -/
def KalSet.guided (m : KalSet) (i g code : Nat) (v : Int) (c : Nat) : Int :=
  sat24 (m.plain g v c + rshiftRound ((m.taps.map (fun t =>
    let a := m.tapAt v c t
    if m.code a.1 a.2 = code then m.coeff i v c t.1 t.2 * (m.x a.1 a.2 - m.plain g a.1 a.2) else 0)).foldl (· + ·) 0) 14)

/-- The flags of the samples behind y of R180: of every one read with a coefficient other than zero (R185). -/
def KalSet.plainFlags (m : KalSet) (n i : Nat) (v : Int) (c : Nat) : Blemish :=
  Blemish.or (m.kernelFlags i v c) (Blemish.all (m.taps.map (fun t =>
    if m.coeff i v c t.1 t.2 = 0 then Blemish.clear else m.sampleFlags n (m.tapAt v c t).1 (m.tapAt v c t).2)))

/-- The flags of the samples behind y of R183, those behind the guide values used among them. -/
def KalSet.guidedFlags (m : KalSet) (n i g code : Nat) (v : Int) (c : Nat) : Blemish :=
  Blemish.or (Blemish.or (m.plainFlags n g v c) (m.kernelFlags i v c)) (Blemish.all (m.taps.map (fun t =>
    let a := m.tapAt v c t
    if m.code a.1 a.2 = code ∧ m.coeff i v c t.1 t.2 ≠ 0 then Blemish.or (m.sampleFlags n a.1 a.2) (m.plainFlags n g a.1 a.2)
    else Blemish.clear)))

/-- M[o][i] and w_i of a bank (R184, R192). -/
def Dev.xtalk (s : Dev) (u k o i : Nat) : Int :=
  toSigned 17 (s.fld (fldUp Reg.KAL_P_XT.coeff0 (17 * ((6 * o + i) % 3))) u ((6 * o + i) / 3) k)
def Dev.lumaWeight (s : Dev) (u k i : Nat) : Int :=
  toSigned 16 (s.fld (fldUp Reg.KAL_P_LUMA.w0 (16 * (i % 4))) u (i / 4) k)

/-- The intermediate planes of set j: samples and the flags behind each column. -/
def Dev.intermediate (s : Dev) (u k j n : Nat) (m : KalSet) : List (List Int × (Nat → Blemish)) :=
  (List.range (s.kalInts u)).map (fun i =>
    let v : Int := ((m.py * j + s.centreRow u k i : Nat) : Int)
    match (s.guidePlane u k).filter (fun _ => s.byGuide u k i) with
    | some g => ((List.range m.w).map (m.guided i g (s.planeCode u k i) v), m.guidedFlags n i g (s.planeCode u k i) v)
    | none => ((List.range m.w).map (m.plain i v), m.plainFlags n i v))

/-- z_o of R184 with the flags behind each column. -/
def Dev.separated (s : Dev) (u k w : Nat) (ys : List (List Int × (Nat → Blemish))) : List (List Int × (Nat → Blemish)) :=
  if s.flag Reg.KAL_P_SEL.xt_bypass u 0 k then ys
  else (List.range ys.length).map (fun o =>
    ((List.range w).map (fun c => sat24 (rshiftRound ((ys.zipIdx.map (fun yi => s.xtalk u k o yi.2 * yi.1.1.getD c 0)).foldl (· + ·) 0) 14)),
     fun c => Blemish.all (ys.zipIdx.map (fun yi => if s.xtalk u k o yi.2 = 0 then Blemish.clear else yi.1.2 c))))

/-- Luma of R184. -/
def Dev.luma (s : Dev) (u k w : Nat) (zs : List (List Int × (Nat → Blemish))) : List Int × (Nat → Blemish) :=
  ((List.range w).map (fun c => sat24 (rshiftRound ((zs.zipIdx.map (fun zi => s.lumaWeight u k zi.2 * zi.1.1.getD c 0)).foldl (· + ·) 0) 14)),
   fun c => Blemish.all (zs.zipIdx.map (fun zi => if s.lumaWeight u k zi.2 = 0 then Blemish.clear else zi.1.2 c)))

/-! ### Writing a set (R174, R175, R178, R186) -/

/-- The tag of output plane o for a group (R174): flags are the OR over the lines given. -/
def Dev.planeTag (s : Dev) (u o flags : Nat) (g : KalGroup) : Tag :=
  let t := Tag.of ((g.rows.head?.map (fun r => r.head.1)).getD 0)
  { t with index := g.index, flags := flags, ordinal := (s.kalCfg u).fld Reg.KAL_OUT.source_ordinal u o }

/-- The OR of the line flags of the lines of a group. -/
def KalGroup.flags (g : KalGroup) : Nat := g.rows.foldl (fun n r => n ||| (Tag.of r.head.1).flags) 0

/-- Does set j leave nothing more to emit in the block? -/
def Dev.lastSet (s : Dev) (u : Nat) : Bool := (s.kal u).groups.all (fun cg => cg.2.all (fun g => g.emitted))

/-- The end of a block once every set is emitted (R186): on every plane a full stop, unless it stood on the last line. -/
def Dev.kalClose (s : Dev) (u : Nat) (written : Bool) : Dev :=
  if (s.kal u).ending.isSome ∧ s.lastSet u then
    let a := if written then s else (List.range (s.kalOuts u)).foldl (fun d o => d.qWrite (d.kalOutQ u o) bareStop) s
    a.modKal u (fun r => { r with groups := [], ending := none, block := none })
  else s

/-- The flags of the colons and ellipses of a group (R45). -/
def KalGroup.blemish (g : KalGroup) : Blemish := Blemish.all (g.rows.map (fun r => Blemish.of r.head.2))

/-- The line flags and the blemish that the lines behind a set give its colon (R45, R174). -/
def rowFlags (rows : List (Int × ULine × Bool)) : Nat × Blemish :=
  (rows.foldl (fun x r => x ||| r.2.1.tag.flags) 0, Blemish.all (rows.map (fun r => Blemish.of r.2.1.colon.2)))

/-- Ellipses with the tag of group j on every plane, under these flags; with a cause each line ends FAILED (R178, R190). -/
def Dev.kalEllipses (s : Dev) (u : Nat) (g : KalGroup) (flags : Nat) (b : Blemish) (cause : Option Nat) : Dev :=
  (List.range (s.kalOuts u)).foldl (fun d o =>
    let t := (d.planeTag u o flags g).grain
    let a := d.qWrite (d.kalOutQ u o) (t, b.mark cEllipsis)
    match cause with
    | none => a
    | some c => a.endLine (d.kalOutQ u o) t stFailed c) s

/-- Set j counts as emitted, and groups that no later set needs are dropped (R188). -/
def markEmitted (gs : List KalGroup) (j : Nat) : List KalGroup :=
  (gs.zipIdx.map (fun gi => if gi.2 = j then { gi.1 with emitted := true } else gi.1)).drop (j - 64)

/-- Set j takes its own rows (R175): in each row position the line of the group that its offset names, or of the last group beyond the
block's end. Lines of earlier groups that no set has taken are passed over: the groups after it, and the tags of those lines. -/
def takeRows (gs : List KalGroup) (j : Nat) (off : Nat → Nat) : List KalGroup × List Grain :=
  let target := fun (p : Nat) => min (j + off p) (gs.length - 1)
  (gs.zipIdx.map (fun gi => { gi.1 with rows := gi.1.rows.zipIdx.map (fun rp =>
      if gi.2 ≤ target rp.2 then { rp.1 with ended := true } else rp.1) }),
   gs.zipIdx.flatMap (fun gi => (gi.1.rows.zipIdx.filter (fun rp => decide (gi.2 < target rp.2) && !rp.1.ended && rp.1.line.isSome)).map
     (fun rp => rp.1.head.1)))

/-- The lines of set j are computed and written on every plane (R174, R178, R179, R184, R185), through the unit's buffers; the set counts where
every plane's line commits (R192). -/
def Dev.kalWrite (s : Dev) (u k j : Nat) (g : KalGroup) (rows : List (Int × ULine × Bool)) (stop : Bool) (errs : List BufErr := []) : Dev :=
  let f := s.fetchKernels u k
  let n := shapeN (s.qShape (s.kalIn u))
  let w := s.kalWidth u
  let m : KalSet := { px := s.kalPx u, py := s.kalPy u, w := w, h := s.vHalf u k, ks := f.1
                      rows := rows.map (fun r => (r.1, r.2.1))
                      code := fun v c => s.cellCode u (v % s.kalPy u).toNat (s.phase u c), phase := s.phase u }
  let zs := s.separated u k w (s.intermediate u k j n m)
  let planes := zs ++ List.replicate (6 - zs.length) ([], fun _ => Blemish.clear) ++ [s.luma u k w zs]
  let flags := rowFlags rows
  let head := Blemish.or flags.2 (Blemish.of ((g.rows.head?.map (fun r => r.head.2)).getD 0))
  let synth := rows.any (fun r => r.2.2)
  let bracket := ((g.rows.findSome? (fun r => r.line)).map (fun l => l.bracket)).getD idleCell
  let gen := (s.planeTag u 0 0 g).gen
  let a := (List.range (s.kalOuts u)).foldl (fun (d : Dev × Bool × Nat) o =>
    let z := planes.getD (s.fld (fldUp Reg.KAL_P_SEL.sel0 (3 * o)) u 0 k) ([], fun _ => Blemish.clear)
    let q := s.kalOutQ u o
    let l : ULine := { colon := ((s.planeTag u o flags.1 g).grain, head.mark cColon), bracket := bracket, pos := 0, xs := z.1
                       sat := z.1.map (fun _ => false)
                       blem := grainFlags (shapeN (s.qShape q)) w (fun cols => Blemish.or (Blemish.all (cols.map z.2)) ⟨false, synth⟩) }
    let plain := l.cells (shapeN (s.qShape q)) (s.qShape q) (if stop then cStop else cComma)
    let hit := strikesAt errs d.2.2 (plain.length - 2)
    let x := d.1.qWriteLines q (strikeLine hit plain)
    let ok := if x.1.qStalled q then x.1.lineFits q plain.length else x.2 == 1
    ((x.1.bufferAlarms 4 u (strikeLost hit (plain.length - 2))).bump Reg.KAL_STAT2.clipped u 0 0 (clippedIn (s.qShape q) z.1),
      d.2.1 && ok, d.2.2 + (plain.length - 2))) (f.2, true, 0)
  let counted := if a.2.1 then a.1.setDue u ((List.range (s.kalOuts u)).map (s.kalOutQ u)) else a.1
  let b := counted.bump Reg.KAL_STAT2.substituted u 0 0 (rows.filter (fun r => r.2.2)).length
  if rows.any (fun r => r.2.1.tag.gen != gen) then b.bump Reg.KAL_STAT2.gen_mixed u else b

/-- Residue mismatches of a set: each counted and logged (R190). -/
def Dev.kalMismatches (s : Dev) (u idx : Nat) : Nat → Dev
  | 0 => s
  | n + 1 => (s.countAnd Reg.KAL_STAT.residue_fail u 0 1 4 u (s.kalOwner u) 0 idx).kalMismatches u idx n

/-- Aligned set j of a context leaves the unit. -/
def Dev.kalSet (s0 : Dev) (u c j mismatches : Nat) (g0 : KalGroup) (errs : List BufErr := []) : Dev :=
  let k := s0.bankOf kalWin u c g0.index
  let back := s0.rereadGroups u k j (s0.kalGroups u c)
  let s := back.2
  let gs := back.1
  let g := gs[j]?.getD g0
  let rows := (s.rowsOf u k j).map (fun v => (v, s.virtualRow u k gs v))
  let own := takeRows (s.kalGroups u c) j (s.rowOff u k)
  let emitted := own.2.foldl (fun d t => d.endLine (s.kalIn u) t stDone 0)
    ((s.switchBank kalWin u c g.index (s.kalOwner u)).setGroups u c (markEmitted own.1 j))
  let k' := emitted.bankOf kalWin u c g.index
  let last := emitted.lastSet u && (s.kal u).ending == some true
  let found := rows.filterMap (fun r => r.2.map (fun x => (r.1, x)))
  let fl := rowFlags found
  let head := Blemish.or g.blemish fl.2
  if g.void then (emitted.kalEllipses u g g.flags g.blemish none).kalClose u false
  else if rows.any (fun r => r.2.isNone) then
    (((emitted.kalEllipses u g (g.flags ||| fl.1) head (some caMosaicGap)).bump Reg.KAL_STAT2.gap_fail u).log 4 u (s.kalOwner u) g.index
      (Reg.KAL_STAT2.gap_fail.addr u 0 0) 16).kalClose u false
  else
    let a := emitted.kalMismatches u g.index mismatches
    if 2 ≤ mismatches then
      (((a.kalEllipses u g fl.1 head (some caResidue)).bump Reg.KAL_STAT.replay_fail u).alarm 4 0 u (s.kalOwner u) g.index
        (Reg.KAL_STAT.replay_fail.addr u 0 0) 48).kalClose u false
    else (a.kalWrite u k' j g found last errs).kalClose u last

/-- Is group i of a context whole: every row has come, or a later group or the block's end follows? -/
def Dev.groupWhole (s : Dev) (u c i : Nat) : Bool :=
  let gs := s.kalGroups u c
  (s.kal u).ending.isSome || i + 1 < gs.length || ((gs[i]?).map (fun g => decide (s.kalPy u ≤ g.rows.length))).getD false

/-- May a unit work? -/
def Dev.kalReady (s : Dev) (u : Nat) : Bool :=
  (s.kalCfg u).flag Reg.KAL_CTRL.enable u && s.unitRuns (s.kalOwner u) (272 + u)

/-- The next aligned set of a context, if its time has come (R186). -/
def Dev.kalEmit (s : Dev) (u c mismatches : Nat) (errs : List BufErr := []) : Dev :=
  if s.kalReady u && (List.range (s.kalOuts u)).all (fun o => !s.qStalled (s.kalOutQ u o)) then
    let gs := s.kalGroups u c
    match gs.zipIdx.find? (fun gi => !gi.1.emitted) with
    | none => s
    | some (g, j) =>
      if (s.kal u).ending.isSome ∨ s.groupWhole u c (j + s.kalDelta u (s.bankOf kalWin u c g.index))
      then s.kalSet u c j mismatches g errs else s
  else s

/-- KAL_SET_EMIT (R186). -/
def execKalSetEmit (u : Fin 32) (c : Ctx) (mismatches : Fin 3) (s : State) (errs : List BufErr := []) : Out :=
  s.run (fun d => d.unlessStalled (d.kalOwner u.val) (fun e => e.kalEmit u.val c.val mismatches.val errs))

/-! ### Input (R175, R188) -/

/-- Room in the ring of a context for one more group (R188): for what the banks of the sets still held, and of the new group, require. -/
def Dev.kalRoom (s : Dev) (u c idx : Nat) : Bool :=
  let gs := s.kalGroups u c
  let ks := (idx :: (gs.filter (fun g => !g.emitted)).map (fun g => g.index)).map (fun i => s.bankOf kalWin u c i)
  let reach := (ks.map (s.kalReach u)).foldl max 0
  let d := (ks.map (s.kalDelta u)).foldl max 0 + reach + 4
  let first := ((gs.zipIdx.find? (fun gi => !gi.1.emitted)).map (fun gi => gi.2)).getD gs.length
  gs.length + 1 ≤ first - (reach + 2) + d

/-- A line or ellipsis enters the ring of its context (R177, R188). -/
def Dev.kalStore (s : Dev) (u q : Nat) (sc : Scan) (h : Cell) : Dev :=
  let t := Tag.of h.1
  let gs := s.kalGroups u t.ctx
  let fresh := !((gs.getLast?.map (fun g => g.index == t.index)).getD false)
  if fresh ∧ !s.kalRoom u t.ctx t.index then s
  else
    let before := if fresh then gs ++ [⟨((gs.getLast?.map (fun g => g.num + 1)).getD 0), t.index, [], false⟩] else gs
    let pos := (before.getLast?.map (fun g => g.rows.length)).getD 0
    let num := (before.getLast?.map (fun g => g.num)).getD 0
    let l : Option ULine := match sc.item with
      | .line c br data => some (lineOf (s.qShape q) (s.kalWidth u) c br data pos)
      | _ => none
    let slot := if l.isSome then s.kalSlot u t.ctx (s.bankOf kalWin u t.ctx t.index) num pos else none
    let gs' := modifyAt (fun g => { g with rows := g.rows ++ [⟨h, l, false, slot⟩] }) (before.length - 1) before
    let a := (s.takeScan q sc).setGroups u t.ctx gs'
    let b := match l, slot with
      | some x, some i => a.keepRow (shapeN (s.qShape q)) i x
      | _, _ => a
    let e := if sc.item.endsInput then b.modKal u (fun r => { r with ending := some (l.isSome) }) else b
    (e.releaseItem q sc.item).kalClose u false

/-- A pilcrow passes to every output queue; after an abort alignment begins again here (R186, R191, R272). -/
def Dev.kalPil (s : Dev) (u : Nat) (c : Cell) : Dev :=
  let a := (s.switchUnit 4 u (pilBlockOf c.1)).setKal u { KalRec.init with block := some (pilBlockOf c.1) }
  (List.range (a.kalOuts u)).foldl (fun d o => d.qWrite (d.kalOutQ u o) c) a

/-- The unit copies one item of in_q (R188); nothing is taken while an ended block has sets to emit. -/
def Dev.kalCopy (s : Dev) (u : Nat) : Dev :=
  let a := s.switchAt 4 u (s.kal u).block.isSome (fun c => [c.fld Reg.KAL_CTRL.in_q u])
  if a.kalReady u && (a.kal u).ending.isNone then
    let q := a.kalIn u
    match a.peekItem q (some (a.kalWidth u)) with
    | none => a
    | some sc =>
      match sc.item with
      | .noise => (a.takeScan q sc).releaseItem q sc.item
      | .stop =>
        if (a.kal u).skipping then (a.takeScan q sc).releaseItem q sc.item
        else (((a.takeScan q sc).modKal u (fun r => { r with ending := some false })).releaseItem q sc.item).kalClose u false
      | .pil c true =>
        if (a.kal u).block.isSome ∧ !(a.kal u).skipping then (a.modKal u (fun r => { r with ending := some false })).kalClose u false
        else ((a.takeScan q sc).kalPil u c).releaseItem q sc.item
      | .pil c false => ((a.takeScan q sc).kalPil u c).releaseItem q sc.item
      | it =>
        if (a.kal u).skipping then (a.takeScan q sc).releaseItem q sc.item
        else a.kalStore u q sc (it.head?.getD idleCell)
  else a

/-- KAL_INPUT_COPY (R188). -/
def execKalInputCopy (u : Fin 32) (s : State) : Out := s.run (fun d => d.unlessStalled (d.kalOwner u.val) (fun e => e.kalCopy u.val))

/-! ### Parameter commits (R189, R192) -/

/-- The slots a ring of the shadow needs (R188). -/
def Dev.kalRing (s : Dev) (u k : Nat) : Nat :=
  (s.kalDelta u k + s.kalReach u k + 4) * (s.kalPy u * ((s.kalWidth u + 3) / 4 + 2))

/-- Centre rows of a bank within the pattern (R189). -/
def Dev.kalRowsOk (s : Dev) (u k : Nat) : Bool := (List.range 6).all (fun i => s.centreRow u k i < s.kalPy u)

/-- Is the least offset of a bank 0 (R189)? -/
def Dev.kalOffsOk (s : Dev) (u k : Nat) : Bool := (List.range (s.kalPy u)).any (fun p => s.rowOff u k p == 0)

/-- Selections of a bank that name planes in use, or luma (R189). -/
def Dev.kalSelOk (s : Dev) (u k : Nat) : Bool :=
  (List.range 6).all (fun o =>
    let x := s.fld (fldUp Reg.KAL_P_SEL.sel0 (3 * o)) u 0 k
    x < s.kalInts u || x == 6)

/-- Has a guided bank a plane of channel code 3 (R189)? -/
def Dev.kalGuideOk (s : Dev) (u k : Nat) : Bool := !s.kalGuided u k || (List.range (s.kalInts u)).any (fun i => s.planeCode u k i == 3)

/-- Is a bank of a unit valid (R189)? -/
def Dev.kalBankOk (s : Dev) (u k : Nat) : Bool :=
  s.vHalf u k != 3 && s.kalRowsOk u k && s.kalOffsOk u k && s.kalSelOk u k && s.kalGuideOk u k &&
    s.kalRing u k ≤ (s.kalCfg u).fld Reg.KAL_SCRATCH.stride u

/-- KAL_COMMIT_ARM (R189). -/
def execKalCommitArm (u : Fin 32) (s : State) : Out :=
  s.run (fun d => d.armBank kalWin u.val (d.kalOwner u.val) (d.kalBankOk u.val 16))

/-- KAL_COMMIT_CANCEL (R189). -/
def execKalCommitCancel (u : Fin 32) (s : State) : Out := s.run (fun d => d.cancelBank kalWin u.val)

/-- KAL_BANK_COPY (R192). -/
def execKalBankCopy (u : Fin 32) (s : State) : Out := s.run (fun d => d.shadowFrom kalWin u.val (d.kalOwner u.val))

end Sys2Proof.Machine
end

