-- ==== Sys2Proof/Machine/Crypto.lean ====
section
/-! DEFINITION. The published standards that the manual names and does not restate: SHA-256 and SHA-384 (FIPS 180-4), HMAC-SHA-256
(RFC 2104; R293, R443), AES-256-GCM (FIPS 197, SP 800-38D; R260) and ECDSA over P-384 (FIPS 186; R261). -/

namespace Sys2Proof.Machine

/-! ### SHA-2 -/

/-- A number as n big-endian bytes. -/
def beBytes (n v : Nat) : List Byte := (List.range n).map (fun i => BitVec.ofNat 8 (v >>> (8 * (n - 1 - i))))

/-- The number in big-endian bytes. -/
def ofBeBytes (bs : List Byte) : Nat := bs.foldl (fun n b => n * 256 + b.toNat) 0

/-- The round constants of SHA-256. -/
def sha256K : List Nat :=
  [0x428a2f98, 0x71374491, 0xb5c0fbcf, 0xe9b5dba5, 0x3956c25b, 0x59f111f1, 0x923f82a4, 0xab1c5ed5] ++
  [0xd807aa98, 0x12835b01, 0x243185be, 0x550c7dc3, 0x72be5d74, 0x80deb1fe, 0x9bdc06a7, 0xc19bf174] ++
  [0xe49b69c1, 0xefbe4786, 0x0fc19dc6, 0x240ca1cc, 0x2de92c6f, 0x4a7484aa, 0x5cb0a9dc, 0x76f988da] ++
  [0x983e5152, 0xa831c66d, 0xb00327c8, 0xbf597fc7, 0xc6e00bf3, 0xd5a79147, 0x06ca6351, 0x14292967] ++
  [0x27b70a85, 0x2e1b2138, 0x4d2c6dfc, 0x53380d13, 0x650a7354, 0x766a0abb, 0x81c2c92e, 0x92722c85] ++
  [0xa2bfe8a1, 0xa81a664b, 0xc24b8b70, 0xc76c51a3, 0xd192e819, 0xd6990624, 0xf40e3585, 0x106aa070] ++
  [0x19a4c116, 0x1e376c08, 0x2748774c, 0x34b0bcb5, 0x391c0cb3, 0x4ed8aa4a, 0x5b9cca4f, 0x682e6ff3] ++
  [0x748f82ee, 0x78a5636f, 0x84c87814, 0x8cc70208, 0x90befffa, 0xa4506ceb, 0xbef9a3f7, 0xc67178f2]

/-- The round constants of SHA-384. -/
def sha512K : List Nat :=
  [0x428a2f98d728ae22, 0x7137449123ef65cd, 0xb5c0fbcfec4d3b2f, 0xe9b5dba58189dbbc] ++
  [0x3956c25bf348b538, 0x59f111f1b605d019, 0x923f82a4af194f9b, 0xab1c5ed5da6d8118] ++
  [0xd807aa98a3030242, 0x12835b0145706fbe, 0x243185be4ee4b28c, 0x550c7dc3d5ffb4e2] ++
  [0x72be5d74f27b896f, 0x80deb1fe3b1696b1, 0x9bdc06a725c71235, 0xc19bf174cf692694] ++
  [0xe49b69c19ef14ad2, 0xefbe4786384f25e3, 0x0fc19dc68b8cd5b5, 0x240ca1cc77ac9c65] ++
  [0x2de92c6f592b0275, 0x4a7484aa6ea6e483, 0x5cb0a9dcbd41fbd4, 0x76f988da831153b5] ++
  [0x983e5152ee66dfab, 0xa831c66d2db43210, 0xb00327c898fb213f, 0xbf597fc7beef0ee4] ++
  [0xc6e00bf33da88fc2, 0xd5a79147930aa725, 0x06ca6351e003826f, 0x142929670a0e6e70] ++
  [0x27b70a8546d22ffc, 0x2e1b21385c26c926, 0x4d2c6dfc5ac42aed, 0x53380d139d95b3df] ++
  [0x650a73548baf63de, 0x766a0abb3c77b2a8, 0x81c2c92e47edaee6, 0x92722c851482353b] ++
  [0xa2bfe8a14cf10364, 0xa81a664bbc423001, 0xc24b8b70d0f89791, 0xc76c51a30654be30] ++
  [0xd192e819d6ef5218, 0xd69906245565a910, 0xf40e35855771202a, 0x106aa07032bbd1b8] ++
  [0x19a4c116b8d2d0c8, 0x1e376c085141ab53, 0x2748774cdf8eeb99, 0x34b0bcb5e19b48a8] ++
  [0x391c0cb3c5c95a63, 0x4ed8aa4ae3418acb, 0x5b9cca4f7763e373, 0x682e6ff3d6b2b8a3] ++
  [0x748f82ee5defb2fc, 0x78a5636f43172f60, 0x84c87814a1f0ab72, 0x8cc702081a6439ec] ++
  [0x90befffa23631e28, 0xa4506cebde82bde9, 0xbef9a3f7b2c67915, 0xc67178f2e372532b] ++
  [0xca273eceea26619c, 0xd186b8c721c0c207, 0xeada7dd6cde0eb1e, 0xf57d4f7fee6ed178] ++
  [0x06f067aa72176fba, 0x0a637dc5a2c898a6, 0x113f9804bef90dae, 0x1b710b35131c471b] ++
  [0x28db77f523047d84, 0x32caab7b40c72493, 0x3c9ebe0a15c9bebc, 0x431d67c49c100d4c] ++
  [0x4cc5d4becb3e42b6, 0x597f299cfc657e2a, 0x5fcb6fab3ad6faec, 0x6c44198c4a475817]

/-- The initial hash value of SHA-256. -/
def sha256Init : List Nat :=
  [0x6a09e667, 0xbb67ae85, 0x3c6ef372, 0xa54ff53a, 0x510e527f, 0x9b05688c, 0x1f83d9ab, 0x5be0cd19]

/-- The initial hash value of SHA-384. -/
def sha384Init : List Nat :=
  [0xcbbb9d5dc1059ed8, 0x629a292a367cd507, 0x9159015a3070dd17, 0x152fecd8f70e5939] ++
  [0x67332667ffc00b31, 0x8eb44a8768581511, 0xdb0c2e0d64f98fa7, 0x47b5481dbefa4fa4]

/-- What tells the two hashes apart: bits of a word, round constants, and the distances of Σ0, Σ1, σ0 and σ1 (the last of σ a shift). -/
structure Sha where
  w : Nat
  k : List Nat
  s0 : Nat × Nat × Nat
  s1 : Nat × Nat × Nat
  e0 : Nat × Nat × Nat
  e1 : Nat × Nat × Nat

/-- SHA-256. -/
def shaA : Sha := ⟨32, sha256K, (2, 13, 22), (6, 11, 25), (7, 18, 3), (17, 19, 10)⟩

/-- SHA-384. -/
def shaB : Sha := ⟨64, sha512K, (28, 34, 39), (14, 18, 41), (1, 8, 7), (19, 61, 6)⟩

/-- Rotate right within a word. -/
def Sha.rotr (h : Sha) (n x : Nat) : Nat := (x >>> n ||| x <<< (h.w - n)) % 2 ^ h.w

/-- Σ: three rotations. -/
def Sha.big (h : Sha) (d : Nat × Nat × Nat) (x : Nat) : Nat := h.rotr d.1 x ^^^ h.rotr d.2.1 x ^^^ h.rotr d.2.2 x

/-- σ: two rotations and a shift. -/
def Sha.small (h : Sha) (d : Nat × Nat × Nat) (x : Nat) : Nat := h.rotr d.1 x ^^^ h.rotr d.2.1 x ^^^ x >>> d.2.2

/-- The message schedule, latest word first, with n more words. -/
def Sha.schedule (h : Sha) : Nat → List Nat → List Nat
  | 0, ws => ws
  | n + 1, ws => h.schedule n
      ((h.small h.e1 (ws.getD 1 0) + ws.getD 6 0 + h.small h.e0 (ws.getD 14 0) + ws.getD 15 0) % 2 ^ h.w :: ws)

/-- One round on the words a to h. -/
def Sha.round (h : Sha) (v : List Nat) (kw : Nat × Nat) : List Nat :=
  let x := fun i => v.getD i 0
  let ch := (x 4 &&& x 5) ^^^ ((2 ^ h.w - 1 - x 4) &&& x 6)
  let maj := (x 0 &&& x 1) ^^^ (x 0 &&& x 2) ^^^ (x 1 &&& x 2)
  let t1 := x 7 + h.big h.s1 (x 4) + ch + kw.1 + kw.2
  [(t1 + h.big h.s0 (x 0) + maj) % 2 ^ h.w, x 0, x 1, x 2, (x 3 + t1) % 2 ^ h.w, x 4, x 5, x 6]

/-- One block. -/
def Sha.block (h : Sha) (v : List Nat) (bs : List Byte) : List Nat :=
  let ws := (chunks (h.w / 8) 16 bs).map ofBeBytes
  let sch := (h.schedule (h.k.length - 16) ws.reverse).reverse
  ((h.k.zip sch).foldl h.round v).zip v |>.map (fun ab => (ab.1 + ab.2) % 2 ^ h.w)

/-- The padded message. -/
def Sha.pad (h : Sha) (bs : List Byte) : List Byte :=
  let blk := 2 * h.w
  let z := (2 * blk - (bs.length + 1 + h.w / 4) % blk) % blk
  bs ++ [0x80] ++ List.replicate z 0 ++ beBytes (h.w / 4) (8 * bs.length)

/-- The hash value as words. -/
def Sha.hash (h : Sha) (iv : List Nat) (bs : List Byte) : List Nat :=
  let m := h.pad bs
  (chunks (2 * h.w) m.length m).foldl h.block iv

/-- SHA-256 of bytes. -/
def sha256 (bs : List Byte) : List Byte := (shaA.hash sha256Init bs).flatMap (beBytes 4)

/-- SHA-384 of bytes. -/
def sha384 (bs : List Byte) : List Byte := ((shaB.hash sha384Init bs).take 6).flatMap (beBytes 8)

/-- HMAC-SHA-256 under a key of at most 64 bytes. -/
def hmac256 (key msg : List Byte) : List Byte :=
  let k := key ++ List.replicate (64 - key.length) 0
  sha256 (k.map (fun b => b ^^^ 0x5C) ++ sha256 (k.map (fun b => b ^^^ 0x36) ++ msg))

/-! ### AES-256-GCM -/

/-- Multiplication by x in the field of AES. -/
def xtime (b : Byte) : Byte := if b.getLsbD 7 then (b <<< 1) ^^^ 0x1B else b <<< 1

/-- Multiplication in the field of AES, over the low n bits of the first factor. -/
def aesMul : Nat → Byte → Byte → Byte
  | 0, _, _ => 0
  | n + 1, a, b => (if a.getLsbD 0 then b else 0) ^^^ aesMul n (a >>> 1) (xtime b)

/-- Product of two field elements. -/
def gmul8 (a b : Byte) : Byte := aesMul 8 a b

/-- The inverse in the field of AES, b^254 (0 for 0). -/
def aesInv (b : Byte) : Byte :=
  let b2 := gmul8 b b
  let b3 := gmul8 b2 b
  let b12 := gmul8 (gmul8 b3 b3) (gmul8 b3 b3)
  let b15 := gmul8 b12 b3
  let b60 := gmul8 (gmul8 b15 b15) (gmul8 b15 b15)
  let b240 := gmul8 (gmul8 b60 b60) (gmul8 b60 b60)
  gmul8 (gmul8 b240 b12) b2

/-- The S-box. -/
def sbox (b : Byte) : Byte :=
  let i := aesInv b
  i ^^^ i.rotateLeft 1 ^^^ i.rotateLeft 2 ^^^ i.rotateLeft 3 ^^^ i.rotateLeft 4 ^^^ 0x63

/-- Two byte lists XORed. -/
def xorBytes (a b : List Byte) : List Byte := (a.zip b).map (fun p => p.1 ^^^ p.2)

/-- The expanded key of AES-256, four-byte words, latest first, with n more words; `rc` is the next round constant. -/
def aesExpand : Nat → Nat → Byte → List (List Byte) → List (List Byte)
  | 0, _, _, ws => ws
  | n + 1, i, rc, ws =>
    let t := ws.getD 0 []
    let u := if i % 8 = 0 then xorBytes ((t.drop 1 ++ t.take 1).map sbox) [rc, 0, 0, 0] else if i % 8 = 4 then t.map sbox else t
    aesExpand n (i + 1) (if i % 8 = 0 then xtime rc else rc) (xorBytes (ws.getD 7 []) u :: ws)

/-- The fifteen round keys. -/
def aesKeys (key : List Byte) : List (List Byte) :=
  (chunks 4 15 ((aesExpand 52 8 1 (chunks 4 8 key).reverse).reverse)).map (fun r => r.flatMap id)

/-- SubBytes and ShiftRows on the sixteen bytes of a state, column by column. -/
def aesShift (s : List Byte) : List Byte := (List.range 16).map (fun i => sbox (s.getD ((i + 4 * (i % 4)) % 16) 0))

/-- MixColumns. -/
def aesMix (s : List Byte) : List Byte :=
  (List.range 16).map (fun i =>
    let c := fun r => s.getD (i / 4 * 4 + (i + r) % 4) 0
    xtime (c 0) ^^^ (xtime (c 1) ^^^ c 1) ^^^ c 2 ^^^ c 3)

/-- AES-256 of a block under its round keys. -/
def aesBlock (ks : List (List Byte)) (b : List Byte) : List Byte :=
  let s := ((ks.drop 1).take 13).foldl (fun s k => xorBytes (aesMix (aesShift s)) k) (xorBytes b (ks.getD 0 []))
  xorBytes (aesShift s) (ks.getD 14 [])

/-- Multiplication in the field of GCM: bit 127 of the number is the first bit of the block. -/
def ghashMul : Nat → Nat → Nat → Nat
  | 0, _, _ => 0
  | n + 1, x, v =>
    (if x.testBit n then v else 0) ^^^ ghashMul n x (if v.testBit 0 then (v >>> 1) ^^^ (0xE1 <<< 120) else v >>> 1)

/-- GHASH of a sequence of bytes that is a whole number of blocks. -/
def ghash (h : Nat) (bs : List Byte) : Nat :=
  (chunks 16 bs.length bs).foldl (fun y b => ghashMul 128 (y ^^^ ofBeBytes b) h) 0

/-- Bytes padded with zeros to whole blocks. -/
def pad16 (bs : List Byte) : List Byte := bs ++ List.replicate ((16 - bs.length % 16) % 16) 0

/-- Counter mode from a counter value. -/
def aesCtr (ks : List (List Byte)) (iv : List Byte) (n : Nat) (bs : List Byte) : List Byte :=
  ((chunks 16 bs.length bs).zipIdx.map (fun bi => xorBytes bi.1 (aesBlock ks (iv ++ beBytes 4 (n + bi.2))))).flatMap id

/-- AES-256-GCM decryption with a 12-byte IV: none where the tag fails. -/
def gcmOpen (key iv aad ct tag : List Byte) : Option (List Byte) :=
  let ks := aesKeys key
  let h := ofBeBytes (aesBlock ks (List.replicate 16 0))
  let s := ghash h (pad16 aad ++ pad16 ct ++ beBytes 8 (8 * aad.length) ++ beBytes 8 (8 * ct.length))
  if xorBytes (beBytes 16 s) (aesBlock ks (iv ++ [0, 0, 0, 1])) = tag then some (aesCtr ks iv 2 ct) else none

/-! ### ECDSA over P-384 -/

/-- The field prime, the coefficient b, the order, and the base point of P-384. -/
def p384 : Nat := 2 ^ 384 - 2 ^ 128 - 2 ^ 96 + 2 ^ 32 - 1
def p384b : Nat := 0xb3312fa7e23ee7e4988e056be3f82d19181d9c6efe8141120314088f5013875ac656398d8a2ed19d2a85c8edd3ec2aef
def p384n : Nat := 0xffffffffffffffffffffffffffffffffffffffffffffffffc7634d81f4372ddf581a0db248b0a77aecec196accc52973
def p384G : Nat × Nat :=
  (0xaa87ca22be8b05378eb1c71ef320ad746e1d3b628ba79b9859f741e082542a385502f25dbf55296c3a545e3872760ab7,
   0x3617de4a96262c6f5d9e98bf9292dc29f8f41dbd289a147ce9da3113b5f0b8c00a60b1ce1d7e819d7a431d7c90ea0e5f)

/-- A power modulo m, over the low n bits of the exponent. -/
def powMod (m : Nat) : Nat → Nat → Nat → Nat
  | 0, _, _ => 1 % m
  | n + 1, x, e => (if e.testBit 0 then x else 1) * powMod m n (x * x % m) (e >>> 1) % m

/-- The inverse modulo a prime of at most 384 bits. -/
def invMod (m x : Nat) : Nat := powMod m 384 (x % m) (m - 2)

/-- The sum of two points; none is the point at infinity. -/
def ecAdd (a b : Option (Nat × Nat)) : Option (Nat × Nat) :=
  match a, b with
  | none, q => q
  | q, none => q
  | some p, some q =>
    if p.1 = q.1 ∧ (p.2 + q.2) % p384 = 0 then none
    else
      let l := if p = q then (3 * p.1 * p.1 + (p384 - 3)) * invMod p384 (2 * p.2) % p384
        else (q.2 + (p384 - p.2)) * invMod p384 (q.1 + (p384 - p.1)) % p384
      let x := (l * l + (p384 - p.1) + (p384 - q.1)) % p384
      some (x, (l * (p.1 + (p384 - x)) + (p384 - p.2)) % p384)

/-- A multiple of a point, over the low n bits of the scalar. -/
def ecMul : Nat → Nat → Option (Nat × Nat) → Option (Nat × Nat)
  | 0, _, _ => none
  | n + 1, k, p => ecAdd (if k.testBit 0 then p else none) (ecMul n (k >>> 1) (ecAdd p p))

/-- ECDSA verification: public point, 48-byte digest, r and s. -/
def ecdsaOk (x y : Nat) (digest : List Byte) (r s : Nat) : Bool :=
  let e := ofBeBytes digest
  let w := invMod p384n s
  x < p384 && y < p384 && (y * y) % p384 == (x * x * x + (p384 - 3) * x + p384b) % p384 &&
    1 ≤ r && r < p384n && 1 ≤ s && s < p384n &&
    (match ecAdd (ecMul 384 (e * w % p384n) (some p384G)) (ecMul 384 (r * w % p384n) (some (x, y))) with
     | none => false
     | some q => q.1 % p384n == r)

end Sys2Proof.Machine
end

