-- ==== Sys2Proof/Machine/Dma.lean ====
section
/-! DEFINITION. DMA channels, line records and RoCE queue pairs (chapter 11, R281–R290, R298–R307, R352). -/

namespace Sys2Proof.Machine

/-! ### Channels and queue pairs -/

/-- The record of a channel replaced by a function of it. -/
def Dev.modChan (s : Dev) (ch : Nat) (f : ChanRec → ChanRec) : Dev := s.setChan ch (f (s.chan ch))

/-- Queue pair u of a channel. -/
def ChanRec.qp (r : ChanRec) (u : Nat) : QpRec := if u = 0 then r.qp0 else r.qp1

/-- The channel with a queue pair replaced by a function of it. -/
def ChanRec.modQp (r : ChanRec) (u : Nat) (f : QpRec → QpRec) : ChanRec :=
  if u = 0 then { r with qp0 := f r.qp0 } else { r with qp1 := f r.qp1 }

/-- A queue pair of the device replaced by a function of it. -/
def Dev.modQp (s : Dev) (ch u : Nat) (f : QpRec → QpRec) : Dev := s.modChan ch (fun r => r.modQp u f)

/-- The configuration of a channel: a commit reaches it with the next descriptor (R272). -/
def Dev.chCfg (s : Dev) (ch : Nat) : RegFile := s.cfg 9 ch

/-- The owner of a channel. -/
def Dev.chOwner (s : Dev) (ch : Nat) : Nat := (s.chCfg ch).fld Reg.DMA_CH_CFG.owner ch

/-- The flow of a channel. -/
def Dev.chFlow (s : Dev) (ch : Nat) : Nat := (s.chCfg ch).fld Reg.DMA_CH_CFG.flow ch

/-- Is it a local channel? -/
def Dev.chLocal (s : Dev) (ch : Nat) : Bool := (s.chCfg ch).flag Reg.DMA_CH_CFG.kind ch

/-- The uplinks that a channel drives: both in mirrored mode, the flow's own in split mode (R282, R283). -/
def Dev.chUplinks (s : Dev) (ch : Nat) : List Nat :=
  if s.img.upMode = 1 then [(s.chCfg ch).fld Reg.UPL_FLOW_A.uplink (s.chFlow ch)] else [0, 1]

/-- Queue pair states (R309). -/
def qsReset : Nat := 0
def qsRts : Nat := 1
def qsError : Nat := 2

/-- The state of a queue pair. -/
def Dev.qpState (s : Dev) (ch u : Nat) : Nat := s.fld Reg.DMA_CH_QP.qp_state ch u

/-- Channel states (R309). -/
def csChIdle : Nat := 0
def csChReady : Nat := 1
def csChRunning : Nat := 2
def csChStopped : Nat := 3

/-- A channel shows a state. -/
def Dev.chGo (s : Dev) (ch st : Nat) : Dev := s.setF Reg.DMA_CH_CTRL.state st ch

/-- The queue pairs in service, by bit. -/
def ChanRec.service (r : ChanRec) : Nat := (if r.qp0.inService then 1 else 0) + (if r.qp1.inService then 2 else 0)

/-- The queue pairs in service show in DMA_CH_CTRL. -/
def Dev.showService (s : Dev) (ch : Nat) : Dev := s.setF Reg.DMA_CH_CTRL.in_service (s.chan ch).service ch

/-- May a channel work: enabled, its island not halted, and its partition running? A completion channel runs on through a
stall, an abort and a stop of its partition (R365, R370). -/
def Dev.chRuns (s : Dev) (ch : Nat) : Bool :=
  let p := s.chOwner ch
  s.flag Reg.DMA_CH_CTRL.enable ch && !s.isHalted 481 &&
    (s.partRuns p || (s.flag Reg.PART_CQ.cq_enable p && s.fld Reg.PART_CQ.cq_channel p == ch))

/-! ### Line records (R287–R290) -/

/-- Bits of a packed item (R287). -/
def packBits (pack : Nat) : Nat :=
  if pack = 0 then 8 else if pack = 1 then 10 else if pack = 2 then 12 else if pack = 3 then 14 else if pack = 4 then 16 else 72

/-- The seconds of a bracket nearest to now (R288). -/
def nearSeconds (now low : Nat) : Nat :=
  let d := toSigned 32 ((now + 2 ^ 32 - low % 2 ^ 32) % 2 ^ 32)
  if (now : Int) - d < 0 then low else ((now : Int) - d).toNat

/-- The epoch of a line from its pilcrow: the latest one whose low four bits it carries (R50, R287). -/
def epochNear (cur low : Nat) : Nat := (cur + 2 ^ 32 - (cur + 16 - low % 16) % 16) % 2 ^ 32

/-- The samples that a data grain of a line holds: its unused positions are ignored (R42, R44). -/
def samplesIn (sh : Nat) (c : Cell) : Nat := shapeN sh - unusedOf c.2

/-- The payload of a pixel line (R289). -/
def packLine (sh pack shift : Nat) (signed : Bool) (data : List Cell) : List Byte :=
  let b := packBits pack
  let xs := data.flatMap (fun c => ((rawSamples sh c.1).take (samplesIn sh c)).map (sampleValue sh))
  let codes := xs.map (fun x => let v := rshiftRound x shift; ofSigned b (if signed then satS b v else satU b v))
  leBytes ((xs.length * b + 7) / 8) (codes.reverse.foldl (fun n v => n * 2 ^ b + v) 0)

/-- What a record is made of: its tag, bracket and data cells; an ellipsis has no data. -/
structure RecordSrc where
  tag : Cell
  bracket : Cell
  data : List Cell
  line : Bool
  deriving DecidableEq, Repr

/-- Does a line show half a seam (R288)? -/
def Dev.halfSeam (s : Dev) (t : Tag) : Bool := !hasFlag t.flags lfStitched && s.seamOrdinal t.ordinal

/-- The flags of a record (R287, R288). -/
def Dev.recordFlags (s : Dev) (src : RecordSrc) (syn : Nat) : Nat :=
  let t := Tag.of src.tag.1
  let bit := fun (c : Bool) (n : Nat) => if c then 2 ^ n else 0
  let cells := if src.line then [src.tag, src.bracket] ++ src.data else [src.tag]
  let sus := cells.any (fun c => suspect c.2)
  let half := s.halfSeam t
  let div := hasFlag t.flags lfDivergent
  let late := hasFlag t.flags lfLate
  bit sus 0 + bit (!src.line) 1 + bit half 2 + bit div 3 + bit late 4 + bit (hasFlag t.flags lfResampled) 5
    + bit (hasFlag t.flags lfStitched) 6 + bit (hasFlag t.flags lfIntegrated) 7
    + bit (sus || !src.line || half || div || late || decide (0 < syn)) 8

/-- The line record of an item (R287–R290). -/
def Dev.lineRecord (s : Dev) (ch q : Nat) (pil : Grain) (src : RecordSrc) : List Byte :=
  let c := s.chCfg ch
  let t := Tag.of src.tag.1
  let sh := s.qShape q
  let pack := c.fld Reg.DMA_CH_CFG.pack ch
  let rcd := pack == 5
  let payload := if !src.line then [] else if rcd then src.data.flatMap (fun g => grainBytes g.1)
    else packLine sh pack (c.fld Reg.DMA_CH_CFG.pack_shift ch) (c.flag Reg.DMA_CH_CFG.pack_signed ch) src.data
  let count := if !src.line then 0 else if rcd then src.data.length else (src.data.map (samplesIn sh)).sum
  let syn := ((src.data.filter (fun g => synthetic g.2)).map (samplesIn sh)).sum
  let b := src.bracket.1
  let head := leBytes 2 0x4B52 ++ leBytes 1 1 ++ leBytes 1 (if rcd then 1 else 0) ++ leBytes 1 s.chainAddr ++ leBytes 1 t.ctx
    ++ leBytes 1 t.gen ++ leBytes 1 t.ordinal ++ leBytes 8 t.index ++ leBytes 4 (pilBlockOf pil)
    ++ leBytes 2 (epochNear s.epoch (bits pil 35 32)) ++ leBytes 2 (s.recordFlags src syn)
    ++ leBytes 8 (nearSeconds (tbSeconds s.tbNow) (bits b 71 40)) ++ leBytes 4 (bits b 39 8) ++ leBytes 1 (bits b 7 0)
    ++ leBytes 1 (packBits pack) ++ leBytes 2 0 ++ leBytes 4 (if rcd then 0 else c.fld Reg.UPL_FLOW_B.col_start (s.chFlow ch))
    ++ leBytes 4 count ++ leBytes 4 syn ++ leBytes 4 payload.length
    ++ leBytes 4 (if payload.isEmpty then 0 else crc32c payload)
  head ++ leBytes 4 (crc32c head) ++ payload

/-! ### Descriptors (R299, R306) -/

/-- A descriptor from its four words (R299); `bad` says that a bit which is zero in the layout is set. -/
def Desc.of (w : List Nat) (isLocal : Bool) : Desc :=
  let w0 := w.getD 0 0
  let w1 := w.getD 1 0
  let w2 := w.getD 2 0
  let len := w0 >>> 32
  { srcQ := w0 % 2 ^ 15, dst := w1 >>> 23 % 2 ^ 23, barrier := w0.testBit 16, half := w0.testBit 17, full := w0.testBit 18
    chain := w0.testBit 19, length := len, addr := if isLocal then w1 % 2 ^ 23 else w1, rkey := w2 % 2 ^ 32
    imm := w2 >>> 32, tag := w.getD 3 0 % 2 ^ 32
    bad := w0 % 2 ^ 32 &&& 0xFFF08000 != 0 || w.getD 3 0 >>> 32 != 0 ||
      (if isLocal then decide (len < 1) || w1 >>> 46 != 0 || w2 != 0
       else len % 64 != 0 || decide (len < 64) || w1 % 64 != 0) }

/-- The table region in use and owned by p that holds a span of slots. -/
def Dev.spanOwned (s : Dev) (p slot n : Nat) : Bool :=
  match s.regionOf slot with
  | none => false
  | some r => s.queueOwner r == p && decide (slot + n ≤ s.fld Reg.QD_BASE.base r * 64 + s.qSize r)

/-- Does a local descriptor copy between two spans of its partition's regions that do not overlap (R299, R305)? -/
def Dev.localOk (s : Dev) (p : Nat) (d : Desc) : Bool :=
  s.spanOwned p d.addr d.length && s.regionOf d.addr == some d.srcQ && s.spanOwned p d.dst d.length &&
    (decide (d.addr + d.length ≤ d.dst) || decide (d.dst + d.length ≤ d.addr))

/-- Does a descriptor break its layout or its owner's rights (R299)? -/
def Dev.descBad (s : Dev) (ch : Nat) (d : Desc) : Bool :=
  d.bad || (if s.chLocal ch then !s.localOk (s.chOwner ch) d
            else !s.qLive d.srcQ || s.queueOwner d.srcQ != s.chOwner ch)

/-- A descriptor begins with some queue pairs in service. -/
def DescRun.start (d : Desc) (seq service : Nat) (fenced : Bool) : DescRun :=
  { d := d, seq := seq, fenced := fenced, offset := 0, written := 0, lines := 0, first := none, last := none, gens := [], recs := []
    stayed := service, mirrorLost := false, halfAt := none, halfSent := 0, complete := false, running := true, held := none
    noted := false, ended := none }

/-- The started descriptor of a number replaced by a function of it. -/
def ChanRec.modRun (r : ChanRec) (seq : Nat) (f : DescRun → DescRun) : ChanRec :=
  { r with
    started := r.started.map (fun x => if x.seq = seq then f x else x), lagged := r.lagged.map (fun x => if x.seq = seq then f x else x) }

/-- The descriptor that the channel works on or keeps open: the last one, until it is complete or has ended. -/
def ChanRec.openRun (r : ChanRec) : Option DescRun :=
  match r.started.getLast? with
  | none => none
  | some x => if x.complete || x.ended.isSome then none else some x

/-- A grid index or generation of a completion record where there is no line or more than one generation, or the bytes of a local
descriptor: the spec states no value, so a free one. -/
def Dev.indexOr (s : Dev) (x : Option Nat) : Nat × Dev :=
  match x with
  | some n => (n, s)
  | none => let f := s.drawFree 48; (f.1.toNat, f.2)

/-- The completion record of a descriptor that has ended (R306, R366). -/
def Dev.descRecord (s : Dev) (ch : Nat) (x : DescRun) (e : Nat × Nat × Bool) : Dev :=
  let valid := e.2.2
  let first := s.indexOr x.first
  let last := first.2.indexOr x.last
  let gen := last.2.indexOr (match x.gens with
    | [g] => some g
    | _ => none)
  let copied := gen.2.indexOr (if s.chLocal ch then none else some x.written)
  let r : CompRec := ⟨none,
    cr0Of (if s.chLocal ch then 3 else 2) e.1 e.2.1 valid x.mirrorLost ch 0 x.d.tag,
    cr12Of first.1 (gen.1 % 256 * 2 ^ 16), cr12Of last.1 (if valid then x.lines else 0),
    BitVec.ofNat 72 (if valid then copied.1 % 2 ^ 64 else 0)⟩
  (copied.2.bump Reg.DMA_CH_STAT.descriptors ch).complete (s.chOwner ch) r

/-- Has every record of a complete descriptor been acknowledged on a queue pair that stayed in service throughout (R306)? -/
def DescRun.delivered (x : DescRun) : Bool :=
  x.complete && x.held.isNone && x.recs.all (fun r => r.2 &&& x.stayed != 0)

/-- The queue pairs in service that a descriptor uses. -/
def Dev.qpsOf (s : Dev) (ch : Nat) (x : DescRun) : List Nat :=
  [0, 1].filter (fun u => ((s.chan ch).qp u).inService && x.stayed.testBit u)

/-- Does a half notice of a descriptor still wait for a queue pair's acknowledgements (R302)? -/
def Dev.halfDue (s : Dev) (ch : Nat) (x : DescRun) : Bool :=
  x.d.half && x.ended.isNone && x.halfAt.isSome && (s.qpsOf ch x).any (fun u => !x.halfSent.testBit u)

/-- Completion records are written in descriptor order (R303, R306). -/
def Dev.finishDescs (s : Dev) (ch : Nat) : Nat → Dev
  | 0 => s
  | n + 1 =>
    match (s.chan ch).started with
    | [] => s
    | x :: rest =>
      match (if x.ended.isSome then x.ended else if x.delivered && !s.chLocal ch then some (stDone, 0, true) else none) with
      | none => s
      | some e =>
        ((s.modChan ch (fun r => { r with started := rest, lagged := if s.halfDue ch x then r.lagged ++ [x] else r.lagged })).descRecord ch x
          e).finishDescs ch n

/-- All ended descriptors at the front. -/
def Dev.finishAll (s : Dev) (ch : Nat) : Dev := s.finishDescs ch (s.chan ch).started.length

/-! ### Release of source queues (R282, R283) -/

/-- Grains at the front of the list of those owed are released while they are settled. -/
def Dev.releaseOwed (s : Dev) (ch : Nat) : Nat → Dev
  | 0 => s
  | n + 1 =>
    match (s.chan ch).owed with
    | [] => s
    | o :: rest =>
      if o.settled then ((s.modChan ch (fun r => { r with owed := rest })).releaseTo o.q o.upTo).releaseOwed ch n else s

/-- Everything that may be released is. -/
def Dev.releaseSettled (s : Dev) (ch : Nat) : Dev := s.releaseOwed ch (s.chan ch).owed.length

/-- The grains of some lines may be released. -/
def Dev.settle (s : Dev) (ch : Nat) (which : Nat → Bool) : Dev :=
  (s.modChan ch (fun r => { r with owed := r.owed.map (fun o => if which o.id then { o with settled := true } else o) })).releaseSettled ch

/-! ### Ends of descriptors and queue pairs (R282, R286, R307) -/

/-- Started descriptors that have not ended and satisfy a condition end so; their lines may be released. -/
def Dev.endRuns (s : Dev) (ch : Nat) (e : Nat × Nat × Bool) (which : DescRun → Bool) : Dev :=
  let hit := fun (x : DescRun) => x.ended.isNone && which x
  let ids := ((s.chan ch).started.filter hit).flatMap (fun x => x.recs.map (fun r => r.1) ++ (x.held.map (fun h => h.2.id)).toList)
  ((s.modChan ch (fun r => { r with
    started := r.started.map (fun x => if hit x then { x with ended := some e, running := false, held := none } else x) })).settle ch
      (fun i => ids.contains i)).finishAll ch

/-- The last queue pair in service is lost: the channel stops (R286). -/
def Dev.chStop (s : Dev) (ch cause : Nat) : Dev := (s.endRuns ch (stFailed, cause, true) (fun _ => true)).chGo ch csChStopped

/-- The cause of descriptors that lose their last queue pair; for a pair dropped for its lag the spec names none: a free value among the
FAILED causes of R367 (log entry 108). -/
def Dev.lossCause (s : Dev) (cause : Option Nat) : Nat × Dev :=
  match cause with
  | some c => (c, s)
  | none =>
    let f := s.drawFree 8
    let k := f.1.toNat % 19
    (if k < 2 then k + 1 else k + 2, f.2)

/-- A queue pair in service is lost to its channel (R282, R286): by its lag (no cause), its link or its ERROR. Where it was the last one,
it is in ERROR, and the channel waits until the host connects it anew (log entry 108). -/
def Dev.loseQp (s : Dev) (ch u : Nat) (cause : Option Nat) : Dev :=
  if !((s.chan ch).qp u).inService then s
  else
    let a := (s.modChan ch (fun r =>
      { (r.modQp u (fun q => { q with
        inService := false, dropped := true, backlog := [], acked := 0, una := (q.una + q.sent) % 2 ^ 24, sent := 0, next := 0 })) with
        started := r.started.map (fun x => if x.ended.isNone && x.stayed.testBit u then
          { x with stayed := x.stayed - 2 ^ u, mirrorLost := x.mirrorLost || s.img.upMode == 0 } else x) })).showService ch
    let b := if s.img.upMode = 0 then
        a.countAnd Reg.DMA_CH_STAT2.mirror_drops ch 0 2 9 ch (s.chOwner ch) 2 0 else a
    let k := b.lossCause cause
    if (b.chan ch).service = 0 then (k.2.setF Reg.DMA_CH_QP.qp_state qsError ch u).chStop ch k.1
    else
      let d := if (b.chan ch).started.any (fun x => x.ended.isNone && x.stayed == 0) then
          k.2.endRuns ch (stFailed, k.1, true) (fun x => x.stayed == 0) else b
      d.finishAll ch

/-- A queue pair enters ERROR (R285). -/
def Dev.qpError (s : Dev) (ch u cause : Nat) : Dev :=
  (((s.setF Reg.DMA_CH_QP.qp_state qsError ch u).alarmAt Reg.DMA_CH_QP.qp_state ch u 9 3 ch (s.chOwner ch)).notice (s.chOwner ch) 7 0).loseQp ch u (some cause)

/-! ### Writes into the backlog stores (R282, R302, R303) -/

/-- The path MTU of a channel. -/
def Dev.pmtu (s : Dev) (ch : Nat) : Nat := 1024 * 2 ^ (s.chCfg ch).fld Reg.DMA_CH_CFG.pmtu ch

/-- Packets of a write (R284). -/
def packetsOf (pmtu len : Nat) : Nat := max 1 ((len + pmtu - 1) / pmtu)

/-- Bytes of a backlog. -/
def QpRec.lag (q : QpRec) : Nat := (q.backlog.map (fun b => b.bytes.length)).sum

/-- The address and key of a write on queue pair u (R309). -/
def Dev.target (s : Dev) (ch u : Nat) (d : Desc) (off : Nat) : Nat × Nat :=
  if u = 0 then ((d.addr + off) % 2 ^ 64, d.rkey)
  else
    let k := s.fld Reg.DMA_CH_U1KEY.rkey ch
    ((d.addr + off + s.fld Reg.DMA_CH_U1.addr_delta ch) % 2 ^ 64, if k = 0 then d.rkey else k)

/-- A write of descriptor x on queue pair u. Its first write waits for all earlier ones where the descriptor before it has
barrier set (R303). -/
def Dev.writeFor (s : Dev) (ch u : Nat) (x : DescRun) (off id : Nat) (bytes : List Byte) (imm : Option Nat) : Backlog :=
  let t := s.target ch u x.d off
  ⟨x.seq, id, t.1, t.2, bytes, imm, x.fenced && x.recs.isEmpty⟩

/-- Writes whose packets have not begun to leave, from the front of a backlog. -/
def unsentAfter (pmtu : Nat) : Nat → List Backlog → Nat
  | _, [] => 0
  | sent, b :: rest => if sent = 0 then 0 else unsentAfter pmtu (sent - packetsOf pmtu b.bytes.length) rest + 1

/-- A queue pair takes a write: a record at the end of its store, a half notice ahead of every write that has not begun to leave. -/
def Dev.enqueue (s : Dev) (ch u : Nat) (w : Backlog) : Dev :=
  s.modQp ch u (fun q =>
    if w.id = 0 then
      let n := unsentAfter (s.pmtu ch) (q.acked + q.sent) q.backlog
      { q with backlog := q.backlog.take n ++ [w] ++ q.backlog.drop n }
    else { q with backlog := q.backlog ++ [w] })

/-- The half notices that are due (R302): on every queue pair that has acknowledged the records up to half the buffer. -/
def Dev.halfNotices (s : Dev) (ch : Nat) : Dev :=
  let a := ((s.chan ch).started ++ (s.chan ch).lagged).foldl (fun d x =>
    match x.halfAt with
    | none => d
    | some n =>
      if !x.d.half || x.ended.isSome then d
      else (d.qpsOf ch x).foldl (fun d u =>
        if x.halfSent.testBit u || !(x.recs.take n).all (fun r => r.2.testBit u) then d
        else (d.enqueue ch u (d.writeFor ch u x 0 0 [] (some (x.d.imm % 2 ^ 31 + 2 ^ 31)))).modChan ch (fun r =>
          r.modRun x.seq (fun y => { y with halfSent := y.halfSent ||| 2 ^ u }))) d) s
  if (a.chan ch).lagged.isEmpty then a else a.modChan ch (fun r => { r with lagged := r.lagged.filter (fun x => a.halfDue ch x) })

/-- Would a record make a queue pair lag behind another one in service (R282)? -/
def Dev.lags (s : Dev) (ch u len : Nat) : Bool :=
  s.img.upMode == 0 && (s.chan ch).service == 3 &&
    decide ((s.chCfg ch).fld Reg.DMA_CH_CFG.mirror_lag ch * 1024 < ((s.chan ch).qp u).lag + len)

/-- A record is placed on every queue pair in service (R282, R302). -/
def Dev.placeRecord (s : Dev) (ch seq off : Nat) (rec_ : LineRec) (imm : Option Nat) : Dev :=
  let a := [0, 1].foldl (fun d u => if d.lags ch u rec_.bytes.length then d.loseQp ch u none else d) s
  match (a.chan ch).started.find? (fun x => x.seq == seq && x.ended.isNone) with
  | none => a
  | some x =>
    let b := (a.qpsOf ch x).foldl (fun d u => d.enqueue ch u (d.writeFor ch u x off rec_.id rec_.bytes imm)) a
    let upTo := off + (rec_.bytes.length + 63) / 64 * 64
    (b.modChan ch (fun r => r.modRun seq (fun y => { y with
      recs := y.recs ++ [(rec_.id, 0)]
      halfAt := if y.halfAt.isNone && decide (y.d.length ≤ 2 * upTo) then some (y.recs.length + 1) else y.halfAt }))).halfNotices ch

/-- A record kept back for the full notice is placed, with the immediate where it proves the last one (R302). -/
def Dev.flushHeld (s : Dev) (ch seq : Nat) (final : Bool) : Dev :=
  match (s.chan ch).started.find? (fun x => x.seq == seq) with
  | none => s
  | some x =>
    match x.held with
    | none => s
    | some (off, rec_) =>
      (s.modChan ch (fun r => r.modRun seq (fun y => { y with held := none, noted := y.noted || final }))).placeRecord ch seq off rec_
        (if final then some (x.d.imm % 2 ^ 31) else none)

/-- A record takes the next place of its descriptor (R300, R302). -/
def Dev.addRecord (s : Dev) (ch : Nat) (x : DescRun) (rec_ : LineRec) : Dev :=
  let t := Tag.of rec_.tag
  let off := x.offset
  let next := off + (rec_.bytes.length + 63) / 64 * 64
  let a := (s.modChan ch (fun r => r.modRun x.seq (fun y => { y with
    offset := next, written := y.written + rec_.bytes.length, lines := y.lines + (if rec_.line then 1 else 0)
    first := if rec_.line then some (y.first.getD t.index) else y.first
    last := if rec_.line then some t.index else y.last
    gens := if rec_.line && !y.gens.contains t.gen then y.gens ++ [t.gen] else y.gens })))
  let b := if rec_.line then a.bump Reg.DMA_CH_STAT.lines ch else a
  if x.d.full then
    let c := b.flushHeld ch x.seq false
    let held := c.modChan ch (fun r => r.modRun x.seq (fun y => { y with held := some (off, rec_) }))
    if x.d.length < next + 64 then held.flushHeld ch x.seq true else held
  else b.placeRecord ch x.seq off rec_ none

/-- A descriptor is complete (R300): its last record carries the full notice; where that record has left already, a
zero-length write after every write of the descriptor does (R302). -/
def Dev.completeRun (s : Dev) (ch : Nat) (x : DescRun) : Dev :=
  let a := s.flushHeld ch x.seq true
  let b := match (a.chan ch).started.find? (fun y => y.seq == x.seq) with
    | none => a
    | some y =>
      if y.d.full && !y.noted && !y.recs.isEmpty then
        (a.qpsOf ch y).foldl (fun d u => d.modQp ch u (fun q => { q with
          backlog := q.backlog ++ [d.writeFor ch u y 0 0 [] (some (y.d.imm % 2 ^ 31))] })) a
      else a
  ((b.modChan ch (fun r => { (r.modRun x.seq (fun y => { y with complete := true, running := false })) with
    chained := x.d.chain })).chGo ch csChIdle).finishAll ch

/-! ### Reading lines (R300, R301) -/

/-- Does a source queue make a channel ready (R301): paced, or a committed block end not yet read? A queue that the channel may
not read does not hold its descriptor back. -/
def Dev.srcReady (s : Dev) (q : Nat) : Bool :=
  !s.qLive q || s.flag Reg.QD_FILL.paced_high q || (s.visible q).any (fun c => codeOf c.2 == cStop)

/-- Does a source queue make a channel ready that keeps a line which did not fit? A block end read with that line has not been sent. -/
def Dev.chanReady (s : Dev) (ch q : Nat) : Bool := ((s.chan ch).spill.map (fun l => l.ends)).getD false || s.srcReady q

/-- Punctuation read or a line that is not sent: released once what was read before it is. -/
def Dev.owe (s : Dev) (ch q id : Nat) (settled : Bool) : Dev :=
  (s.modChan ch (fun r => { r with owed := r.owed ++ [⟨id, q, s.rp q, settled⟩] })).releaseSettled ch

/-- What an item gives a channel: the parts of a record, or nothing. An ellipsis carries no bracket: its time is a free value. -/
def Dev.recordSrc (s : Dev) (it : Item) : Option RecordSrc × Dev :=
  match it with
  | .line c b data => (some ⟨c, b, data, true⟩, s)
  | .ell c => let f := s.drawFree 72; (some ⟨c, (f.1, 0), [], false⟩, f.2)
  | .bad c => let f := s.drawFree 72; (some ⟨c, (f.1, 0), [], false⟩, f.2)
  | _ => (none, s)

/-- The next record of a source queue: punctuation before it is read. None: no whole item is visible. -/
def Dev.readRecord (s : Dev) (ch q : Nat) : Nat → Option LineRec × Dev
  | 0 => (none, s)
  | n + 1 =>
    match s.peekItem q none with
    | none => (none, s)
    | some sc =>
      let a := s.takeScan q sc
      match a.recordSrc sc.item with
      | (none, _) =>
        let b := match sc.item with
          | .pil c _ => a.modChan ch (fun r => { r with pils := Sparse.insert q c.1 r.pils })
          | _ => a
        ((if sc.item.closes then b.closeRuns q (fun _ => true) else b).owe ch q 0 true).readRecord ch q n
      | (some src, b) =>
        let id := (b.chan ch).lineId
        let pil := (Sparse.find q (b.chan ch).pils).getD 0
        (some ⟨b.lineRecord ch q pil src, src.tag.1, src.line, q, id, sc.item.closes⟩,
          (b.modChan ch (fun r => { r with lineId := id + 1 })).owe ch q id false)

/-- The runs of a source queue close with the block that a line read ends (R363). -/
def Dev.closeWith (s : Dev) (l : LineRec) : Dev := if l.ends then s.closeRuns l.srcQ (fun _ => true) else s

/-- A record longer than the buffer ends its line FAILED, cause OVERSIZE (R300). -/
def Dev.oversize (s : Dev) (ch : Nat) (rec_ : LineRec) : Dev :=
  let a := s.countAnd Reg.DMA_CH_STAT2.oversize ch 0 1 9 ch (s.chOwner ch) 0 (Tag.of rec_.tag).index
  let b := if rec_.line then a.endLine rec_.srcQ rec_.tag stFailed caOversize else a
  (b.closeWith rec_).settle ch (fun i => i == rec_.id)

/-- The queue pairs in RTS on an uplink in RUN join the channel; the return of a dropped one raises a LOG event (R282). -/
def Dev.joinQps (s : Dev) (ch : Nat) : Dev :=
  ((s.chUplinks ch).foldl (fun d u =>
    let q := (d.chan ch).qp u
    if q.inService || d.qpState ch u != qsRts || !d.uplinkUp u then d
    else
      let a := d.modQp ch u (fun q => { q with inService := true, dropped := false, progressAt := d.now })
      if q.dropped then a.logAt Reg.DMA_CH_CTRL.in_service ch 0 9 ch (d.chOwner ch) else a) s).showService ch

/-- An episode of starvation: the channel is ready and desc_q is empty (R301). -/
def Dev.starve (s : Dev) (ch : Nat) : Dev :=
  let a := s.chGo ch csChReady
  if (s.chan ch).starved then a
  else ((a.modChan ch (fun r => { r with starved := true })).countAnd Reg.DMA_CH_STAT.starved ch 0 1 9 ch (s.chOwner ch) 0 0).notice
    (s.chOwner ch) 8 0

/-- The words of the next four grains of a descriptor queue. -/
def Dev.takeWords (s : Dev) (q : Nat) : Nat → List Nat × Dev
  | 0 => ([], s.qRelease q)
  | n + 1 =>
    let r := s.qRead q
    let rest := r.2.takeWords q n
    (r.1.1.toNat :: rest.1, rest.2)

/-- A channel takes its next descriptor (R299, R301): a bad one ends FAILED, cause RANGE. A commit reaches the channel here (R272). -/
def Dev.startDesc (s : Dev) (ch : Nat) : Dev :=
  let a := { s with workSets := Sparse.erase (unitKey 9 ch) s.workSets }
  let q := (a.chCfg ch).fld Reg.DMA_CH_CFG.desc_q ch
  let w := a.takeWords q 4
  let d := Desc.of w.1 (a.chLocal ch)
  let b := if a.chLocal ch then w.2 else w.2.joinQps ch
  let r := b.chan ch
  let x := DescRun.start d r.descSeq r.service r.barrier
  let bad := b.descBad ch d || w.1.any (fun g => decide (2 ^ 64 ≤ g))
  let x := if bad then { x with running := false, ended := some (stFailed, caRange, true) } else x
  let c := b.setChan ch { r with
    started := r.started ++ [x], descSeq := r.descSeq + 1, starved := false, chained := bad && d.chain, barrier := d.barrier
    srcQ := if bad then r.srcQ else some d.srcQ }
  if bad then (c.chGo ch csChIdle).finishAll ch else c.chGo ch csChRunning

/-- A remote channel can start a descriptor only with a queue pair to send on. -/
def Dev.hasQp (s : Dev) (ch : Nat) : Bool :=
  s.chLocal ch || (s.chUplinks ch).any (fun u => ((s.chan ch).qp u).inService || (s.qpState ch u == qsRts && s.uplinkUp u))

/-- A channel goes on with its open descriptor, or takes the next one, where it is ready (R301). -/
def Dev.chanNext (s : Dev) (ch : Nat) : Nat → Dev
  | 0 => s
  | n + 1 =>
    if !s.chRuns ch || s.fld Reg.DMA_CH_CTRL.state ch == csChStopped then s
    else
      let r := s.chan ch
      match r.openRun with
      | some x =>
        if x.running || !s.chanReady ch x.d.srcQ then s
        else (s.modChan ch (fun r => r.modRun x.seq (fun y => { y with running := true }))).chGo ch csChRunning
      | none =>
        let c := s.regs
        let q := c.fld Reg.DMA_CH_CFG.desc_q ch
        if !s.qLive q || s.fill q < 4 then
          if !s.chLocal ch && r.srcQ.any (fun src => s.qLive src && s.chanReady ch src) then s.starve ch else s.chGo ch csChIdle
        else
          let src := (slotGrain s.mem (s.slotAt q (s.rp q))).toNat % 2 ^ 15
          if !s.hasQp ch || !(r.chained || s.chLocal ch || s.chanReady ch src) then s.chGo ch csChIdle
          else
            let a := s.startDesc ch
            if (a.chan ch).openRun.isSome then a else a.chanNext ch n

/-- CHANNEL_READY (R299, R301). -/
def execChannelReady (ch : Chan) (s : State) : Out := s.run (fun d => d.unlessStalled (d.chOwner ch.val) (fun e => e.chanNext ch.val 64))

/-- A running remote descriptor goes on (R300, R301): the line that opens it, or the next one of its source queue; a line that does
not fit completes it. -/
def Dev.assemble (s : Dev) (ch : Nat) : Dev :=
  if !s.chRuns ch || s.chLocal ch then s
  else match (s.chan ch).openRun with
  | none => s
  | some x =>
    if !x.running then s
    else
      let q := x.d.srcQ
      if (s.chan ch).spill.isNone && !s.srcReady q then
        ((s.modChan ch (fun r => r.modRun x.seq (fun y => { y with running := false }))).chGo ch csChIdle).flushHeld ch x.seq false
      else
        let got := match (s.chan ch).spill with
          | some l => (some l, s.modChan ch (fun r => { r with spill := none }))
          | none => s.readRecord ch q (s.fill q)
        match got.1 with
        | none => got.2
        | some l =>
          let a := got.2
          if x.d.length < l.bytes.length then a.oversize ch l
          else if x.d.length < x.offset + l.bytes.length then
            ((a.modChan ch (fun r => { r with spill := some l })).completeRun ch x).chanNext ch 64
          else (a.closeWith l).addRecord ch x l

/-- LINE_RECORD_ASSEMBLE (R282, R284, R287–R290, R299–R303). -/
def execLineRecordAssemble (ch : Chan) (s : State) : Out := s.run (fun d => d.unlessStalled (d.chOwner ch.val) (fun e => e.assemble ch.val))

/-- Slots copied one after another, grain and mark, as their reads deliver them (R46, R305). -/
def Dev.copySlots (s : Dev) (region src dst : Nat) : Nat → Dev
  | 0 => s
  | n + 1 =>
    let a := s.eccAlarm region src
    (a.writeSlot dst (s.portCell src)).copySlots region (src + 1) (dst + 1) n

/-- A local descriptor copies its slots and ends DONE (R305). -/
def Dev.localCopy (s : Dev) (ch : Nat) : Dev :=
  if !s.chRuns ch || !s.chLocal ch then s
  else match (s.chan ch).openRun with
  | none => s
  | some x =>
    let a := (s.copySlots x.d.srcQ x.d.addr x.d.dst x.d.length).modChan ch (fun r =>
      { (r.modRun x.seq (fun y => { y with
          complete := true, running := false, ended := some (stDone, 0, true) })) with
        chained := x.d.chain })
    ((a.chGo ch csChIdle).finishAll ch).chanNext ch 64

/-- LOCAL_DESCRIPTOR_COPY (R299, R305, R306). -/
def execLocalDescriptorCopy (ch : Chan) (s : State) : Out := s.run (fun d => d.unlessStalled (d.chOwner ch.val) (fun e => e.localCopy ch.val))

/-! ### Descriptor pushes, enable and disable (R298, R307, R309) -/

/-- Word 3 appends the descriptor, unless desc_q has fewer than four free slots (R298). -/
def Dev.pushDesc (s : Dev) (ch : Nat) (w3 : Nat) : Dev :=
  let q := s.fld Reg.DMA_CH_CFG.desc_q ch
  let words := (s.chan ch).words.take 3 ++ [w3]
  if !s.qLive q || s.qSize q < s.occ q + 4 then s.log 9 ch (s.fld Reg.DMA_CH_CFG.owner ch) q
  else s.qWriteAll q (words.map (fun w => (BitVec.ofNat 72 (w % 2 ^ 64), mkCode cNoun)))

/-- DESCRIPTOR_PUSH (R298). -/
def execDescriptorPush (ch : Chan) (word3 : Word) (s : State) : Out := s.run (fun d => d.pushDesc ch.val word3.toNat)

/-- enable := 1 (R307, R309). -/
def Dev.chEnable (s : Dev) (ch : Nat) : Dev :=
  if s.flag Reg.DMA_CH_CTRL.enable ch then s else (s.setF Reg.DMA_CH_CTRL.enable 1 ch).chGo ch csChIdle

/-- CHANNEL_ENABLE (R307). -/
def execChannelEnable (ch : Chan) (s : State) : Out := s.run (fun d => d.chEnable ch.val)

/-- A word of registers becomes undefined: a free value. -/
def Dev.blurWord (s : Dev) (a : Nat) : Dev :=
  let f := s.drawFree 64
  { f.2 with regs := f.2.regs.setWord a f.1 }

/-- The line read for the next descriptor ends with its channel. -/
def Dev.endSpill (s : Dev) (ch cause : Nat) : Dev :=
  match (s.chan ch).spill with
  | none => s
  | some l => (if l.line then s.endLine l.srcQ l.tag stAborted cause else s).closeWith l

/-- A queue pair in RESET: its next PSN is the start PSN (R309). -/
def Dev.qpReset (s : Dev) (ch u : Nat) : Dev :=
  (s.setF Reg.DMA_CH_QP.qp_state qsReset ch u).setF Reg.DMA_CH_QP.psn ((s.chan ch).qp u).startPsn ch u

/-- psn: the start PSN, written in RESET only (R309). -/
def Dev.psnWrite (s : Dev) (ch u v : Nat) : Dev :=
  if s.qpState ch u = qsReset then (s.setF Reg.DMA_CH_QP.psn v ch u).modQp ch u (fun q => { q with startPsn := v }) else s

/-- A channel is disabled at once (R307): what had started ends ABORTED, its lines are not returned, its counters become undefined, and
both queue pairs are in RESET. -/
def Dev.chDisable (s : Dev) (ch cause : Nat) : Dev :=
  if s.fld Reg.DMA_CH_CTRL.enable ch = 0 then s
  else
    let a := (s.endRuns ch (stAborted, cause, false) (fun _ => true)).endSpill ch cause
    let b := a.settle ch (fun _ => true)
    let r := b.chan ch
    let c := b.setChan ch { ChanRec.init with
      words := r.words, descSeq := r.descSeq, lineId := r.lineId
      qp0 := { QpRec.init with startPsn := r.qp0.startPsn }, qp1 := { QpRec.init with startPsn := r.qp1.startPsn } }
    let d := (c.qpReset ch 0).qpReset ch 1
    ((((d.setF Reg.DMA_CH_CTRL.enable 0 ch).chGo ch csChIdle).showService ch).blurWord (Reg.DMA_CH_STAT.lines.addr ch 0 0)).blurWord
      (Reg.DMA_CH_STAT2.retransmits.addr ch 0 0)

/-- CHANNEL_DISABLE (R307). -/
def execChannelDisable (ch : Chan) (s : State) : Out := s.run (fun d => d.chDisable ch.val caDisabled)

/-- connect: RESET or ERROR to RTS, from the start PSN (R284, R309); a stopped channel goes on (R286). -/
def Dev.qpConnect (s : Dev) (ch u : Nat) : Dev :=
  if s.fld Reg.DMA_CH_CTRL.enable ch = 0 ∨ s.qpState ch u = qsRts then s
  else
    let start := ((s.chan ch).qp u).startPsn
    let a := ((s.setF Reg.DMA_CH_QP.qp_state qsRts ch u).setF Reg.DMA_CH_QP.psn start ch u).modQp ch u (fun q =>
      { QpRec.init with una := start, startPsn := start, dropped := q.dropped, progressAt := s.now })
    if a.fld Reg.DMA_CH_CTRL.state ch = csChStopped then a.chGo ch csChIdle else a

/-- QP_CONNECT (R284, R309). -/
def execQpConnect (ch : Chan) (u : Uplink) (s : State) : Out := s.run (fun d => d.qpConnect ch.val u.val)

/-! ### Acknowledgements, retransmission (R282, R285, R302) -/

/-- Whole writes among the packets acknowledged: the writes that leave the store, those that stay, and the packets of the oldest one
that are acknowledged. -/
def popAcked (pmtu : Nat) : Nat → List Backlog → List Backlog × List Backlog × Nat
  | n, [] => ([], [], n)
  | n, b :: rest =>
    if packetsOf pmtu b.bytes.length ≤ n then
      let r := popAcked pmtu (n - packetsOf pmtu b.bytes.length) rest
      (b :: r.1, r.2)
    else ([], b :: rest, n)

/-- The records of writes that a queue pair has acknowledged. -/
def Dev.creditRecords (s : Dev) (ch u : Nat) (ws : List Backlog) : Dev :=
  let credit := fun (x : DescRun) => { x with
    recs := x.recs.map (fun e => if ws.any (fun w => w.id != 0 && w.id == e.1) then (e.1, e.2 ||| 2 ^ u) else e) }
  let a := s.modChan ch (fun r => { r with started := r.started.map credit, lagged := r.lagged.map credit })
  ((a.settle ch (fun i => i != 0 && ws.any (fun w => w.id == i))).halfNotices ch).finishAll ch

/-- The first n packets from the oldest one not acknowledged are acknowledged (R282). -/
def Dev.ackPackets (s : Dev) (ch u n : Nat) : Dev :=
  let q := (s.chan ch).qp u
  if n = 0 ∨ q.sent < n then s
  else
    let r := popAcked (s.pmtu ch) (q.acked + n) q.backlog
    (s.modQp ch u (fun q => { q with
      backlog := r.2.1, acked := r.2.2, una := (q.una + n) % 2 ^ 24, sent := q.sent - n, next := q.next - n
      retries := 0, progressAt := s.now })).creditRecords ch u r.1

/-- Packets from the oldest one not acknowledged up to a PSN, that one included. -/
def Dev.packetsUpTo (s : Dev) (ch u psn : Nat) : Nat := (psn + 1 + 2 ^ 24 - ((s.chan ch).qp u).una) % 2 ^ 24

/-- Is a queue pair in RTS, on an uplink in RUN? -/
def Dev.qpLive (s : Dev) (ch u : Nat) : Bool := s.qpState ch u == qsRts && s.uplinkUp u

/-- ROCE_ACK (R282, R284, R302, R303, R306). -/
def execRoceAck (u : Uplink) (ch : Chan) (psn : BitVec 24) (s : State) : Out :=
  s.run (fun d => if d.qpLive ch.val u.val then d.ackPackets ch.val u.val (d.packetsUpTo ch.val u.val psn.toNat) else d)

/-- Go back to the oldest PSN not acknowledged (R285): at retry_count retransmissions without progress, ERROR. -/
def Dev.goBack (s : Dev) (ch u : Nat) : Dev :=
  let q := (s.chan ch).qp u
  if q.sent = 0 then s
  else if (s.chCfg ch).fld Reg.DMA_CH_CFG.retry_count ch ≤ q.retries then s.qpError ch u caRetry
  else (s.bump Reg.DMA_CH_STAT2.retransmits ch).modQp ch u (fun q => { q with next := 0, retries := q.retries + 1, progressAt := s.now })

/-- A NAK (R285): a sequence NAK acknowledges the PSNs before the one it names. -/
def Dev.roceNak (s : Dev) (ch u psn : Nat) : NakKind → Dev
  | .sequence =>
    let n := s.packetsUpTo ch u psn
    if n = 0 ∨ ((s.chan ch).qp u).sent < n then s else (s.ackPackets ch u (n - 1)).goBack ch u
  | .rnr => s.goBack ch u
  | .remoteAccess => s.qpError ch u caRemoteAccess
  | .remoteOperation => s.qpError ch u caRemoteAccess

/-- ROCE_NAK (R285, R286). -/
def execRoceNak (u : Uplink) (ch : Chan) (psn : BitVec 24) (kind : NakKind) (s : State) : Out :=
  s.run (fun d => if d.qpLive ch.val u.val then d.roceNak ch.val u.val psn.toNat kind else d)

/-- The retry timeout of a channel in ps (R285). -/
def Dev.retryPs (s : Dev) (ch : Nat) : Nat := 4096 * Config.nsPs * 2 ^ (s.chCfg ch).fld Reg.DMA_CH_CFG.retry_timeout ch

/-- No acknowledgement within the retry timeout (R285). -/
def Dev.retryTimeout (s : Dev) (ch u : Nat) : Dev :=
  let q := (s.chan ch).qp u
  if s.qpLive ch u && q.sent != 0 then (s.reach (q.progressAt + s.retryPs ch)).goBack ch u else s

/-- ROCE_RETRY_TIMEOUT (R285, R286). -/
def execRoceRetryTimeout (u : Uplink) (ch : Chan) (s : State) : Out := s.run (fun d => d.retryTimeout ch.val u.val)

/-! ### Rates (R281) -/

/-- The line rate of an uplink in Mbit/s (R255, R277). -/
def Dev.lineRate (s : Dev) : Nat := if s.img.upRate = 0 then 800000 else if s.img.upRate = 3 then 200000 else 400000

/-- A CNP (R281): at most one cut per cnp_interval. -/
def Dev.cnp (s : Dev) (ch u : Nat) : Dev :=
  let a := s.bump Reg.UPL_STAT2.cnp_rx u
  let q := (a.chan ch).qp u
  let due : Bool := match q.cutAt with
    | none => true
    | some t => decide (t + a.fld Reg.UPL_CC.cnp_interval u * Config.usPs ≤ a.now)
  if a.qpState ch u ≠ qsRts then a
  else if due then
    let rate := q.rate.getD a.lineRate
    let cut := max (rate - rate >>> (a.fld Reg.UPL_CC.cut_shift u + 1)) (a.fld Reg.UPL_CC.min_rate u * 1000)
    (a.bump Reg.DMA_CH_STAT2.cnp_cuts ch).modQp ch u (fun q => { q with rate := some cut, cutAt := some a.now, recoverAt := a.now })
  else a.modQp ch u (fun q => { q with recoverAt := a.now })

/-- CNP_RECEIVE (R281). -/
def execCnpReceive (u : Uplink) (ch : Chan) (s : State) : Out :=
  s.run (fun d => if d.uplinkUp u.val then d.cnp ch.val u.val else d)

/-- recover_us without a CNP (R281). -/
def Dev.rateRecover (s : Dev) (ch u : Nat) : Dev :=
  let q := (s.chan ch).qp u
  match q.rate with
  | none => s
  | some rate =>
    let a := s.reach (q.recoverAt + s.fld Reg.UPL_CC.recover_us u * Config.usPs)
    let up := min (rate + s.fld Reg.UPL_CC.step u * 1000) s.lineRate
    a.modQp ch u (fun q => { q with rate := if up = s.lineRate then none else some up, recoverAt := a.now })

/-- RATE_RECOVER (R281). -/
def execRateRecover (u : Uplink) (ch : Chan) (s : State) : Out := s.run (fun d => d.rateRecover ch.val u.val)

/-! ### Sending packets (R280, R303, R304, R352) -/

/-- The write that packet k of a backlog belongs to, the packet's place in it, and whether it is the oldest write. -/
def packetAt (pmtu : Nat) (oldest : Bool) : Nat → List Backlog → Option (Backlog × Nat × Bool)
  | _, [] => none
  | k, b :: rest =>
    let n := packetsOf pmtu b.bytes.length
    if k < n then some (b, k, oldest) else packetAt pmtu false (k - n) rest

/-- Where a flow sends (R277): the address it names. -/
def Dev.flowIp (s : Dev) (f : Nat) : BitVec 128 :=
  if s.flag Reg.UPL_FLOW_A.ipv6 f then BitVec.ofNat 128 (s.fld Reg.UPL_FLOW_C.dest_ipv6 f * 2 ^ 64 + s.fld Reg.UPL_FLOW_D.dest_ipv6 f)
  else BitVec.ofNat 128 (s.fld Reg.UPL_FLOW_B.dest_ipv4 f)

/-- The headers of a frame of an uplink (R277, R308): tagged with a priority where vlan_en is set, never fragmented. -/
def Dev.frameHead (s : Dev) (u prio dstMac dst : Nat) (v6 : Bool) (dscp ecn srcPort dstPort : Nat) : FrameHead :=
  { dstMac := dstMac, srcMac := s.fld Reg.UPL_ADDR.mac u
    vlan := if s.flag Reg.UPL_CTRL.vlan_en u then some (prio, s.fld Reg.UPL_CTRL.vlan_id u) else none
    v6 := v6, src := if v6 then s.fld Reg.UPL_IPV6_HI.ipv6 u * 2 ^ 64 + s.fld Reg.UPL_IPV6_LO.ipv6 u else s.fld Reg.UPL_IPV4.ipv4 u
    dst := dst, noFragment := !v6, hops := s.fld Reg.UPL_ADDR.ttl u, dscp := dscp, ecn := ecn, srcPort := srcPort, dstPort := dstPort }

/-- The headers of a frame that belongs to a flow (R278). -/
def Dev.flowHead (s : Dev) (u f prio ecn srcPort dstPort : Nat) : FrameHead :=
  s.frameHead u prio (s.fld Reg.UPL_FLOW_A.dest_mac f) (s.flowIp f).toNat (s.flag Reg.UPL_FLOW_A.ipv6 f) (s.fld Reg.UPL_FLOW_A.dscp f) ecn
    srcPort dstPort

/-- The headers of a RoCE packet (R281, R284): ECT(0), from port 49,152 + channel to port 4791. -/
def Dev.roceHead (s : Dev) (ch u : Nat) : FrameHead :=
  ({ s with regs := s.chCfg ch } : Dev).flowHead u (s.chFlow ch) ((s.chCfg ch).fld Reg.UPL_FLOW_A.pcp (s.chFlow ch)) 2 (49152 + ch) 4791

/-- The packet that a queue pair sends next, where one is ready (R280, R281, R303). -/
def Dev.nextPacket (s : Dev) (ch u : Nat) : Option RocePkt :=
  let q := (s.chan ch).qp u
  let mtu := s.pmtu ch
  let pcp := (s.chCfg ch).fld Reg.UPL_FLOW_A.pcp (s.chFlow ch)
  if !q.inService || !s.qpLive ch u || (s.fld Reg.UPL_STATUS.paused u).testBit pcp || decide (s.now < q.sendAt) || s.isHalted 481 then none
  else match packetAt mtu true (q.acked + q.next) q.backlog with
    | none => none
    | some (w, k, oldest) =>
      if w.fence && !oldest then none
      else
        let last := decide (k + 1 = packetsOf mtu w.bytes.length)
        some { head := s.roceHead ch u, destQpn := s.fld Reg.DMA_CH_QP.dest_qpn ch u, badFcs := false, chan := ch, psn := (q.una + q.next) % 2 ^ 24, first := k == 0, last := last, addr := w.addr, rkey := w.rkey
               imm := if last then w.imm else none, payload := slice w.bytes (k * mtu) mtu }

/-- The length of a packet's frame (R352), without its FCS. -/
def Dev.frameLen (s : Dev) (u : Nat) (p : RocePkt) : Nat :=
  (p.payload.length + 3) / 4 * 4 + 12 + 4 + (if p.first then 16 else 0) + (if p.imm.isSome then 4 else 0) + 8
    + (if (s.chCfg p.chan).flag Reg.UPL_FLOW_A.ipv6 (s.chFlow p.chan) then 40 else 20) + 14
    + (if s.flag Reg.UPL_CTRL.vlan_en u then 4 else 0)

/-- Channels of a partition with a packet ready on an uplink. -/
def Dev.readyChans (s : Dev) (u p : Nat) : List Nat :=
  (s.chans.map (fun e => e.1)).filter (fun ch => s.chOwner ch == p && (s.nextPacket ch u).isSome)

/-- The channel that sends next (R304): of the highest priority, and among equals in turn. -/
def Dev.pickChan (s : Dev) (u p : Nat) : Option Nat :=
  let prio := fun (ch : Nat) => (s.chCfg ch).fld Reg.DMA_CH_CFG.priority ch
  let cs := s.readyChans u p
  match cs with
  | [] => none
  | _ =>
    let top := cs.foldl (fun m ch => max m (prio ch)) 0
    let eq := cs.filter (fun ch => prio ch == top)
    match Sparse.find (p * 8 + top) (s.upl u).turns with
    | none => eq.head?
    | some last => (eq.find? (fun ch => decide (last < ch))).orElse (fun _ => eq.head?)

/-- A packet leaves (R281, R284): psn reads the next PSN. -/
def Dev.sendPacket (s : Dev) (u p : Nat) (k : RocePkt) : Dev :=
  let len := s.frameLen u k
  let prio := (s.chCfg k.chan).fld Reg.DMA_CH_CFG.priority k.chan
  let a := s.modQp k.chan u (fun q => { q with
    next := q.next + 1, sent := max q.sent (q.next + 1), progressAt := if q.next = 0 then s.now else q.progressAt
    sendAt := match q.rate with
      | none => q.sendAt
      | some r => s.now + len * 8 * 1000000 / max 1 r })
  let q := (a.chan k.chan).qp u
  let b := a.setF Reg.DMA_CH_QP.psn ((q.una + q.sent) % 2 ^ 24) k.chan u
  b.setUpl u { b.upl u with packets := (b.upl u).packets ++ [k], turns := Sparse.insert (p * 8 + prio) k.chan (b.upl u).turns }

/-- Packets of the visited partition leave while they fit its deficit (R352). -/
def Dev.dwrrSend (s : Dev) (u p deficit : Nat) : Nat → Nat × Dev
  | 0 => (deficit, s)
  | n + 1 =>
    match s.pickChan u p with
    | none => (0, s)
    | some ch =>
      match s.nextPacket ch u with
      | none => (0, s)
      | some k =>
        if deficit < s.frameLen u k then (deficit, s)
        else (s.sendPacket u p k).dwrrSend u p (deficit - s.frameLen u k) n

/-- The partition visited next: the first one at or after the place with a packet ready, wrapping round (R352). -/
def Dev.dwrrPart (s : Dev) (u : Nat) : Option Nat :=
  ((List.range 16).map (fun i => ((s.upl u).nextPart + i) % 16)).find? (fun p => !(s.readyChans u p).isEmpty)

/-- The packets of the visit before have gone. -/
def Dev.clearSent (s : Dev) (u : Nat) : Dev := s.setUpl u { s.upl u with packets := [] }

/-- One visit of the deficit-weighted round robin (R304, R352). -/
def Dev.dwrrVisit (s : Dev) (u : Nat) : Dev :=
  if !s.uplinkUp u then s
  else match s.dwrrPart u with
    | none => s
    | some p =>
      let d := (Sparse.find p (s.upl u).deficits).getD 0 + 64 * s.fld Reg.PART_SHARE.quantum p
      let r := (s.clearSent u).dwrrSend u p d (d / 64 + 1)
      let left := if (r.2.readyChans u p).isEmpty then 0 else r.1
      r.2.setUpl u { r.2.upl u with deficits := Sparse.set (fun _ => 0) (r.2.upl u).deficits p left, nextPart := (p + 1) % 16 }

/-- Frames whose assembly buffer shows an uncorrectable error, by their number in the visit, leave with an inverted FCS and are counted
(R377). -/
def Dev.strikeFrames (s : Dev) (u : Nat) (struck : List Nat) : Dev :=
  let ps := (s.upl u).packets
  (s.setUpl u { s.upl u with packets := ps.mapIdx (fun i k => if struck.contains i then { k with badFcs := true } else k) }).bump
    Reg.UPL_STAT.fec_uncorrectable u (n := ((List.range ps.length).filter (fun i => struck.contains i)).length)

/-- DWRR_VISIT (R304, R352). -/
def execDwrrVisit (u : Uplink) (s : State) (struck : List Nat := []) : Out :=
  s.run (fun d => if d.uplinkUp u.val && (d.dwrrPart u.val).isSome then (d.dwrrVisit u.val).strikeFrames u.val struck else d.dwrrVisit u.val)

end Sys2Proof.Machine
end

