-- ==== Sys2Proof/Machine/Sport.lean ====
section
/-! DEFINITION. Sensor ports (chapter 03, R84–R101, R134, R135, R481): packets, trigger records, framing, block punctuation. -/

namespace Sys2Proof.Machine

/-! ### Unpacking (R90, R91, R93) -/

/-- Bits per sample of a CSI-2 data type (R90); user-defined types by user_bits. -/
def dtBits (dt userBits : Nat) : Nat :=
  if dt = 0x2A then 8 else if dt = 0x2B then 10 else if dt = 0x2C then 12 else if dt = 0x2D then 14
  else if dt = 0x2E then 16 else if dt = 0x2F then 20 else 8 + 2 * min userBits 4

/-- Bytes and samples of one packing group of CSI-2 (PRESUMED layouts of the MIPI standard, log entry 12). -/
def groupOf (b : Nat) : Nat × Nat :=
  if b = 8 then (1, 1) else if b = 10 then (5, 4) else if b = 12 then (3, 2) else if b = 14 then (7, 4)
  else if b = 16 then (2, 1) else (5, 2)

/-- The samples of one packing group. -/
def unpackGroup (b : Nat) (g : List Byte) : List Nat :=
  let x := fun i => (g.getD i 0).toNat
  if b = 8 then [x 0]
  else if b = 10 then (List.range 4).map (fun i => x i * 4 + x 4 / 4 ^ i % 4)
  else if b = 12 then [x 0 * 16 + x 2 % 16, x 1 * 16 + x 2 / 16]
  else if b = 14 then
    let low := x 4 + x 5 * 2 ^ 8 + x 6 * 2 ^ 16
    (List.range 4).map (fun i => x i * 64 + low / 64 ^ i % 64)
  else if b = 16 then [x 0 * 256 + x 1]
  else
    let t := (List.range 4).map (fun i => x i * 4 + x 4 / 4 ^ i % 4)
    [t.getD 0 0 * 1024 + t.getD 1 0, t.getD 2 0 * 1024 + t.getD 3 0]

/-- Samples received in a payload: the whole samples it holds. -/
def unpack (b : Nat) (payload : List Byte) : List Nat :=
  (((chunks (groupOf b).1 payload.length payload).map (unpackGroup b)).flatten).take (8 * payload.length / b)

/-- One sample converted to 18 bits (R90). -/
def convert18 (b : Nat) (align : Bool) (x : Nat) : Nat :=
  if b = 20 then (min (rshiftRound x 2) 262143).toNat else if align then x * 2 ^ (18 - b) else x

/-! ### Writing to a stream (R134, R481) -/

/-- Is a stream enabled on an enabled port? -/
def Dev.streamOn (s : Dev) (n st : Nat) : Bool :=
  (s.cfg 1 n).flag Reg.SPORT_CTRL.enable n && (s.cfg 1 n).flag Reg.SPORT_STREAM_A.enable n st

/-- The enabled streams of a port. -/
def Dev.streamsOn (s : Dev) (n : Nat) : List Nat := (List.range 4).filter (s.streamOn n)

/-- The output queue of a stream. -/
def Dev.streamQ (s : Dev) (n st : Nat) : Nat := (s.cfg 1 n).fld Reg.SPORT_STREAM_A.out_q n st

/-- The record of a stream replaced by a function of it. -/
def Dev.modStream (s : Dev) (n st : Nat) (f : StreamRec → StreamRec) : Dev := s.setStream (4 * n + st) (f (s.stream (4 * n + st)))

/-- A grain of a stream goes to its queue, or waits behind the grains that wait already (R481). -/
def Dev.portPut (s : Dev) (n st : Nat) (own : Bool) (c : Cell) : Dev :=
  let q := s.streamQ n st
  let r := s.stream (4 * n + st)
  if r.store.isEmpty && !s.qWaits 64 q then s.qWrite q c
  else if own && 256 ≤ (r.store.filter (fun e => e.2)).length then
    s.countAnd Reg.SPORT_STAT2.own_drops n 0 1 1 n (s.portOwner n) 0 0
  else s.modStream n st (fun r => { r with store := r.store ++ [(c, own)] })

/-- Waiting grains are written as the queue frees slots (R481). -/
def Dev.portFlush (s : Dev) (n st : Nat) : Nat → Dev
  | 0 => s
  | k + 1 =>
    match (s.stream (4 * n + st)).store with
    | [] => s
    | e :: rest =>
      if s.qWaits 64 (s.streamQ n st) then s
      else ((s.modStream n st (fun r => { r with store := rest })).qWrite (s.streamQ n st) e.1).portFlush n st k

/-- The pilcrow of a boundary (R50, R134). -/
def Dev.boundCell (s : Dev) (b : Bound) : Cell := (pilcrowGrain b.block b.cause (b.epoch.getD s.epoch), mkCode cPilcrow)

/-- A stream ends its open block and opens the block of a boundary (R134). -/
def Dev.openBlock (s : Dev) (n st : Nat) (b : Bound) : Dev :=
  let a := (if (s.stream (4 * n + st)).opened then s.portPut n st true bareStop else s).switchUnit 1 n b.block
  (a.portPut n st true (s.boundCell b)).modStream n st (fun r =>
    { r with opened := true, startIdx := b.index, boundsDone := r.boundsDone + 1 })

/-- The punctuation due before an item of a grid index: every boundary at or below it, empty blocks included (R134). -/
def Dev.punctuate (s : Dev) (n st idx : Nat) : Dev :=
  ((s.marn.bounds.drop (s.stream (4 * n + st)).boundsDone).takeWhile (fun b => !before48 idx b.index)).foldl
    (fun d b => d.openBlock n st b) s

/-- The tag of a line of a trigger record (R92). -/
def Dev.portTag (s : Dev) (n st : Nat) (r : TrigRec) : Tag :=
  { ctx := r.ctx, gen := r.gen, ordinal := (s.cfg 1 n).fld Reg.SPORT_STREAM_A.source_ordinal n st, flags := 0, index := r.index }

/-- The bracket of a line: the timebase at its midpoint, on the old scale below the boundary of a re-step (R92, R345). -/
def Dev.midBracket (s : Dev) (r : TrigRec) : Grain :=
  let v : Int := s.tbAt r.midAt
  let old := (r.oldScale.orElse (fun _ => s.tb.oldBelow.map (fun b => before48 r.index b)))
  bracketOf (if r.midAt < s.tb.stepAt then (if old = some false then v + s.tb.oldShift else v)
    else (if old = some true then v - s.tb.oldShift else v)).toNat

/-- A line item of a port ends in its output queue. -/
def Dev.endPortLine (s : Dev) (n st : Nat) (r : TrigRec) (cause : Nat) : Dev :=
  s.endLine (s.streamQ n st) (s.portTag n st r).grain stFailed cause

/-- An ellipsis for a missing or discarded line; none where the stream is already past the line's block (R96). -/
def Dev.portEllipsis (s : Dev) (n st : Nat) (r : TrigRec) : Dev :=
  let str := s.stream (4 * n + st)
  if str.opened ∧ before48 r.index str.startIdx then s
  else (s.punctuate n st r.index).portPut n st true ((s.portTag n st r).grain, mkCode cEllipsis)

/-- A line of grains with its tag, after the punctuation due before it; a failed payload CRC makes every grain of it suspect (R99). -/
def Dev.portLine (s : Dev) (n st : Nat) (r : TrigRec) (sus : Bool) (data : List (Cell × Bool)) : Dev :=
  let a := (s.punctuate n st r.index).stamped
  let b := (a.portPut n st false ((s.portTag n st r).grain, mark sus false cColon)).portPut n st false (s.midBracket r, mark sus false cBracket)
  data.foldl (fun d c => d.portPut n st c.2 c.1) b

/-! ### Trigger records (R94–R97) -/

/-- Lines that a stream expects of a trigger. -/
def Dev.linesPer (s : Dev) (n st : Nat) : Nat := (s.cfg 1 n).fld Reg.SPORT_STREAM_A.lines_per_trigger n st + 1

/-- Crystal ticks from an instant to now. -/
def Dev.xcSince (s : Dev) (t : Nat) : Nat := (s.now - t) / Config.xcPs

/-- A record closes: an ellipsis and a FAILED record for each missing line (R96). -/
def Dev.closeTrig (s : Dev) (n st : Nat) (r : TrigRec) : Dev :=
  let a := s.modStream n st (fun x => { x with recs := x.recs.filter (fun y => y.index != r.index) })
  let a := if r.received = 0 then a.bump Reg.SPORT_STREAM_STAT2.window_timeouts n st else a
  let missing := s.linesPer n st - r.received
  let b := (List.range missing).foldl (fun d _ =>
    ((d.portEllipsis n st r).bump Reg.SPORT_STREAM_STAT.count_missing n st).endPortLine n st r
      (if r.received = 0 then caTimeout else caCount)) a
  if missing = 0 then b
  else b.log 1 n (s.portOwner n) 0 (Reg.SPORT_STREAM_STAT.count_missing.addr n st 0) Reg.SPORT_STREAM_STAT.count_missing.lo

/-- Has a record's time run out (R96): its window without a line, or inter_line since its last? -/
def Dev.trigExpired (s : Dev) (n : Nat) (r : TrigRec) : Bool :=
  if r.received = 0 then (s.cfg 1 n).fld Reg.SPORT_TIMING.first_max n < s.xcSince r.pinAt
  else (s.cfg 1 n).fld Reg.SPORT_TIMING.inter_line n < s.xcSince r.lastAt

/-- Close every record of a stream whose time has run out. -/
def Dev.closeExpired (s : Dev) (n st : Nat) : Dev :=
  ((s.stream (4 * n + st)).recs.filter (s.trigExpired n)).foldl (fun d r => d.closeTrig n st r) s

/-- Does a record take a line arriving now (R95)? -/
def Dev.qualifies (s : Dev) (n st : Nat) (r : TrigRec) : Bool :=
  decide ((s.cfg 1 n).fld Reg.SPORT_TIMING.first_min n ≤ s.xcSince r.pinAt) && !s.trigExpired n r
    && decide (r.received < s.linesPer n st)

/-- Is the port one that works: enabled, its partition running, its island not halted? -/
def Dev.portRuns (s : Dev) (n : Nat) : Bool :=
  (s.cfg 1 n).flag Reg.SPORT_CTRL.enable n && s.unitRuns (s.portOwner n) (483 + n)

/-- Does the port follow its link: enabled, its island not halted? It does so while its partition is stopped too (R88, R89, R97). -/
def Dev.portListens (s : Dev) (n : Nat) : Bool := (s.cfg 1 n).flag Reg.SPORT_CTRL.enable n && !s.isHalted (483 + n)

/-- Open a trigger record in every enabled stream (R94). -/
def Dev.openTrig (s : Dev) (n idx ctx gen pinAt midAt : Nat) : Dev :=
  (s.streamsOn n).foldl (fun d st => d.modStream n st (fun r =>
    { r with recs := r.recs ++ [⟨idx, ctx, gen, pinAt, midAt, 0, 0, none⟩] })) s

/-- A skipped trigger: one ellipsis in every enabled stream, each line FAILED OVERSPEED (R127). DESIGN CHOICE (log entry 133): one line
ends in a stream, whatever its lines_per_trigger. -/
def Dev.skipTrig (s : Dev) (n idx ctx gen at_ : Nat) : Dev :=
  (s.streamsOn n).foldl (fun d st =>
    (d.portEllipsis n st ⟨idx, ctx, gen, at_, at_, 0, 0, none⟩).endPortLine n st ⟨idx, ctx, gen, at_, at_, 0, 0, none⟩ caOverspeed) s

/-! ### Long packets (R86, R88–R93, R95, R96, R99–R101) -/

/-- The stream that a packet matches (R89). -/
def Dev.matchStream (s : Dev) (n vc dt : Nat) : Option Nat :=
  (s.streamsOn n).find? (fun st =>
    (s.cfg 1 n).fld Reg.SPORT_STREAM_A.vc n st == vc && (s.cfg 1 n).fld Reg.SPORT_STREAM_A.dt n st == dt)

/-- Must the port discard every packet until a deskew burst (R88)? -/
def Dev.needsDeskew (s : Dev) (n : Nat) : Bool :=
  let c := s.cfg 1 n
  c.fld Reg.SPORT_CTRL.phy n == 0 && decide (1500 < c.fld Reg.SPORT_CTRL.rate n) && !(s.port n).deskewed

/-- The mark of data grain i of a line of a width: the last one is a comma that leaves the positions beyond the width unused (R42, R44). -/
def dataMark (sh width i : Nat) (sus syn : Bool) : Mark :=
  let total := grainsOfWidth sh width
  if i + 1 = total then withUnused (mark sus syn cComma) (total * shapeN sh - width) else mark sus syn cNoun

/-- The data grains of a line with their marks; `errs` are grains lost in the intake buffer, `fixed` grains that a corrected error in it
has reached (R92, R93, R99, R376, R377). -/
def portGrains (sh : Nat) (sus : Bool) (errs fixed : List Nat) (samples : List Nat) : List Cell :=
  let gs := if samples.isEmpty then [(0 : Grain)] else (chunks (shapeN sh) samples.length samples).map (packGrain sh)
  gs.zipIdx.map (fun gi =>
    if errs.contains gi.2 then (0, dataMark sh samples.length gi.2 true true)
    else (gi.1, dataMark sh samples.length gi.2 (sus || fixed.contains gi.2) false))

/-- The samples that a stream keeps of a payload (R90, R91, R93). -/
def Dev.keptSamples (s : Dev) (n st : Nat) (payload : List Byte) : List Nat :=
  let c := s.cfg 1 n
  if c.flag Reg.SPORT_STREAM_A.opaque n st then payload.map (fun b => b.toNat)
  else
    let b := dtBits (c.fld Reg.SPORT_STREAM_A.dt n st) (c.fld Reg.SPORT_STREAM_A.user_bits n st)
    (((unpack b payload).map (convert18 b (c.flag Reg.SPORT_STREAM_A.align n st))).drop
      (c.fld Reg.SPORT_STREAM_B.col_start n st)).take (c.fld Reg.SPORT_STREAM_B.col_count n st)

/-- The shape a stream writes (R92, R93). -/
def Dev.streamShape (s : Dev) (n st : Nat) : Nat := if (s.cfg 1 n).flag Reg.SPORT_STREAM_A.opaque n st then 0 else 2

/-- A discarded line: its ellipsis and its FAILED record (R99). -/
def Dev.discardLine (s : Dev) (n st : Nat) (r : TrigRec) (cause : Nat) : Dev :=
  (s.portEllipsis n st r).endPortLine n st r cause

/-- A received line written whole (R92, R93). -/
def Dev.writeLine (s : Dev) (n st : Nat) (r : TrigRec) (p : LongPacket) (sus : Bool) : Dev :=
  let cells := portGrains (s.streamShape n st) sus p.bufferErrors p.corrected (s.keptSamples n st p.payload)
  ((s.portLine n st r sus (cells.map (fun c => (c, false)))).bufferAlarms 1 n
    (p.bufferErrors.filter (fun i => i < cells.length)).length)

/-- A short or overrun line of a cut-through stream is padded with zeros, suspect and synthetic, to its expected width, the grain in
which it ends among them; a long one ends at it with its comma suspect (R101). DESIGN CHOICE (log entry 95): the expected width of an
opaque line, which no register gives, is the bytes received, so nothing is padded there. -/
def Dev.writeCutThrough (s : Dev) (n st : Nat) (r : TrigRec) (p : LongPacket) (long sus : Bool) : Dev :=
  let sh := s.streamShape n st
  let kept := s.keptSamples n st p.payload
  let want := if (s.cfg 1 n).flag Reg.SPORT_STREAM_A.opaque n st then kept.length
    else (s.cfg 1 n).fld Reg.SPORT_STREAM_B.col_count n st
  let got := portGrains sh sus p.bufferErrors p.corrected kept
  let lost := p.bufferErrors.filter (fun i => i < got.length && i < grainsOfWidth sh want && !kept.isEmpty)
  (s.portLine n st r sus ((List.range (grainsOfWidth sh want)).map (fun i =>
    let received := i < got.length ∧ ¬kept.isEmpty
    let c := got.getD i (0, 0)
    if kept.length < want ∧ (kept.length / shapeN sh ≤ i ∨ kept.isEmpty) then
      ((if received then c.1 else 0, dataMark sh want i true true), !decide received)
    else ((c.1, dataMark sh want i (suspect c.2 || (long && i + 1 == grainsOfWidth sh want)) (synthetic c.2)), false)))).bufferAlarms 1 n lost.length

/-- The checks of R99 in the order of R100, every failing one counted, on a line that a record has taken. -/
def Dev.checkLine (s : Dev) (n st : Nat) (r : TrigRec) (p : LongPacket) : Dev :=
  let c := s.cfg 1 n
  let own := s.portOwner n
  let isOpaque := c.flag Reg.SPORT_STREAM_A.opaque n st
  let b := dtBits (c.fld Reg.SPORT_STREAM_A.dt n st) (c.fld Reg.SPORT_STREAM_A.user_bits n st)
  let width := 8 * p.payload.length / b
  let badLength := !isOpaque && width != c.fld Reg.SPORT_STREAM_B.sensor_width n st
  let cut := !s.qLineCommit (s.streamQ n st)
  let strict := c.flag Reg.SPORT_CTRL.strict n
  let a := if p.overrun then s.bump Reg.SPORT_STAT.overrun n else s
  let a := if badLength then a.bump Reg.SPORT_STREAM_STAT.length_fail n st else a
  let a := if p.crcOk then a else a.bump Reg.SPORT_STREAM_STAT.crc_fail n st
  if p.overrun then
    let e := a.alarm 1 0 n own 0 (Reg.SPORT_STAT.overrun.addr n 0 0) Reg.SPORT_STAT.overrun.lo
    if cut then e.writeCutThrough n st r p false (!p.crcOk) else e.discardLine n st r caOverrun
  else if badLength then
    let e := a.log 1 n own 0 (Reg.SPORT_STREAM_STAT.length_fail.addr n st 0) Reg.SPORT_STREAM_STAT.length_fail.lo
    if cut then e.writeCutThrough n st r p (decide (c.fld Reg.SPORT_STREAM_B.sensor_width n st < width)) (!p.crcOk)
    else e.discardLine n st r caLength
  else if !p.crcOk then
    let e := a.log 1 n own 0 (Reg.SPORT_STREAM_STAT.crc_fail.addr n st 0) Reg.SPORT_STREAM_STAT.crc_fail.lo
    if strict && !cut then e.discardLine n st r caCrc else e.writeLine n st r p true
  else a.writeLine n st r p false

/-- A line is counted in its record; a full record closes and stays known (R96). -/
def Dev.countLine (s : Dev) (n st : Nat) (r : TrigRec) : Dev :=
  let r' := { r with received := r.received + 1, lastAt := s.now }
  s.modStream n st (fun x =>
    if s.linesPer n st ≤ r'.received then
      { x with recs := x.recs.filter (fun y => y.index != r.index), done := x.done ++ [r'] }
    else { x with recs := x.recs.map (fun y => if y.index = r.index then r' else y) })

/-- Is the packet outside FS…FE of its virtual channel where framing asks for one (R97)? -/
def Dev.outsideFrame (s : Dev) (n vc : Nat) : Bool :=
  decide ((s.cfg 1 n).fld Reg.SPORT_CTRL.framing n < 2) && !(s.port n).frames.any (fun f => f.1 == vc)

/-- A packet that no record takes (R95). -/
def Dev.untriggered (s : Dev) (n st : Nat) : Dev :=
  s.countAnd Reg.SPORT_STREAM_STAT.untriggered n st 0 1 n (s.portOwner n) 0 0

/-- A packet of a stream meets its trigger records (R95, R96). -/
def Dev.streamPacket (s : Dev) (n st : Nat) (p : LongPacket) : Dev :=
  let a := s.closeExpired n st
  let r := a.stream (4 * n + st)
  let a := a.modStream n st (fun x => { x with
    done := x.done.filter (fun y => a.xcSince y.lastAt ≤ (s.cfg 1 n).fld Reg.SPORT_TIMING.inter_line n) })
  let taker := r.recs.find? (a.qualifies n st)
  let extra := (a.stream (4 * n + st)).done.any (fun y => (taker.map (fun t => decide (y.pinAt < t.pinAt))).getD true)
  if s.outsideFrame n p.vc.val then a.untriggered n st
  else
    let b := if extra then
        (a.bump Reg.SPORT_STREAM_STAT2.extra_lines n st).log 1 n (s.portOwner n) 0
          (Reg.SPORT_STREAM_STAT2.extra_lines.addr n st 0) 0
      else a
    match taker with
    | some t => (b.checkLine n st t p).countLine n st t
    | none => if extra then b else b.untriggered n st

/-- A packet reaches the port: none where the port does not listen, discarded and counted while a deskew burst is awaited (R88),
else taken. -/
def Dev.packetIn (s : Dev) (n : Nat) (take : Dev → Dev) : Dev :=
  if !s.portListens n then s else if s.needsDeskew n then s.bump Reg.SPORT_STAT.unmatched n else take s

/-- LONG_PACKET (R95): header, stream, then the records of the stream; a port whose partition is stopped takes no line (R370, R372). An
uncorrectable header is the first failing check; an overrun of the same packet is counted too (R100). -/
def Dev.longPacket (s : Dev) (n : Nat) (p : LongPacket) : Dev :=
  s.packetIn n (fun s =>
    match p.hdr with
    | .uncorrectable =>
      (if p.overrun then s.bump Reg.SPORT_STAT.overrun n else s).countAnd Reg.SPORT_STAT.hdr_uncorrectable n 0 1 1 n (s.portOwner n) 0 0
    | h =>
      let a := if h = .corrected then s.bump Reg.SPORT_STAT.hdr_corrected n else s
      match a.matchStream n p.vc.val p.dt.toNat with
      | none => a.bump Reg.SPORT_STAT.unmatched n
      | some st => if s.portRuns n then a.streamPacket n st p else a)

def execLongPacket (port : Port) (pkt : LongPacket) (s : State) : Out := s.run (fun d => d.longPacket port.val pkt)

/-! ### Framing and other packets (R84, R88, R97) -/

/-- FS of a virtual channel. DESIGN CHOICE (log entry 93): a second FS without an FE takes the place of the first, and frame_timeout
counts from it. -/
def Dev.frameStart (s : Dev) (n vc : Nat) : Dev :=
  s.packetIn n (fun s =>
    if (s.cfg 1 n).fld Reg.SPORT_CTRL.framing n < 2 then
      s.setPort n { s.port n with frames := (s.port n).frames.filter (fun f => f.1 != vc) ++ [(vc, s.now)] }
    else s)

/-- FRAME_START (R97). -/
def execFrameStart (port : Port) (vc : Fin 32) (s : State) : Out := s.run (fun d => d.frameStart port.val vc.val)

/-- The oldest open record of each stream of a virtual channel closes (R97, framing per trigger). -/
def Dev.closeFrame (s : Dev) (n vc : Nat) : Dev :=
  ((s.streamsOn n).filter (fun st => (s.cfg 1 n).fld Reg.SPORT_STREAM_A.vc n st == vc)).foldl (fun d st =>
    match (d.stream (4 * n + st)).recs with
    | [] => d
    | r :: _ => d.closeTrig n st r) s

/-- The frame of a virtual channel ends; per trigger that closes its oldest open record at once, FS or none before it (R97). -/
def Dev.endFrame (s : Dev) (n vc : Nat) : Dev :=
  let a := s.setPort n { s.port n with frames := (s.port n).frames.filter (fun f => f.1 != vc) }
  if (s.cfg 1 n).fld Reg.SPORT_CTRL.framing n = 0 ∧ s.portRuns n then a.closeFrame n vc else a

/-- FE of a virtual channel (R97); ignored where the port takes no framing. -/
def Dev.frameEnd (s : Dev) (n vc : Nat) : Dev :=
  s.packetIn n (fun s => if (s.cfg 1 n).fld Reg.SPORT_CTRL.framing n < 2 then s.endFrame n vc else s)

/-- FRAME_END (R97). -/
def execFrameEnd (port : Port) (vc : Fin 32) (s : State) : Out := s.run (fun d => d.frameEnd port.val vc.val)

/-- FRAME_TIMEOUT (R97): frame_timeout after an FS without an FE, the port acts as if the FE had arrived. -/
def Dev.frameTimeout (s : Dev) (n vc : Nat) : Dev :=
  match (s.port n).frames.find? (fun f => f.1 == vc) with
  | none => s
  | some f =>
    let a := s.reach (f.2 + (s.cfg 1 n).fld Reg.SPORT_TIMING.frame_timeout n * 1024 * Config.xcPs)
    if s.portListens n then
      (a.endFrame n vc).countAnd Reg.SPORT_STAT2.frame_timeouts n 0 1 1 n (s.portOwner n) 0 0
    else a

def execFrameTimeout (port : Port) (vc : Fin 32) (s : State) : Out := s.run (fun d => d.frameTimeout port.val vc.val)

/-- SHORT_PACKET_IGNORED (R84): received and ignored; before the deskew burst it is discarded and counted like every packet (R88). -/
def execShortPacketIgnored (port : Port) (_vc : Fin 32) (_kind : ShortKind) (s : State) : Out := s.run (fun d => d.packetIn port.val id)

/-- SENSOR_LINK_START (R88): after a start of the link a deskew burst is awaited. DESIGN CHOICE (log entry 94): no frame is open on a
link that has just started. -/
def execSensorLinkStart (port : Port) (s : State) : Out :=
  s.run (fun d => d.setPort port.val { d.port port.val with deskewed := false, frames := [] })

/-! ### Timed closures (R96) and own grains (R481) -/

/-- TRIGGER_WINDOW_CLOSE (R96): the window of the oldest record without a line closes. -/
def Dev.windowClose (s : Dev) (n st : Nat) : Dev :=
  match (s.stream (4 * n + st)).recs.find? (fun r => r.received == 0) with
  | none => s
  | some r =>
    let a := s.reach (r.pinAt + ((s.cfg 1 n).fld Reg.SPORT_TIMING.first_max n + 1) * Config.xcPs)
    if s.portRuns n then a.closeTrig n st r else a

def execTriggerWindowClose (port : Port) (strm : Strm) (s : State) : Out := s.run (fun d => d.windowClose port.val strm.val)

/-- INTER_LINE_TIMEOUT (R96): inter_line has passed since the last line of the oldest record with lines. -/
def Dev.interLineTimeout (s : Dev) (n st : Nat) : Dev :=
  match (s.stream (4 * n + st)).recs.find? (fun r => r.received != 0) with
  | none => s
  | some r =>
    let a := s.reach (r.lastAt + ((s.cfg 1 n).fld Reg.SPORT_TIMING.inter_line n + 1) * Config.xcPs)
    if s.portRuns n then a.closeTrig n st r else a

def execInterLineTimeout (port : Port) (strm : Strm) (s : State) : Out :=
  s.run (fun d => d.interLineTimeout port.val strm.val)

/-- PORT_OWN_GRAIN_FLUSH (R481). -/
def execPortOwnGrainFlush (port : Port) (strm : Strm) (s : State) : Out :=
  s.run (fun d => if d.portRuns port.val then
    d.portFlush port.val strm.val (d.stream (4 * port.val + strm.val)).store.length else d)

/-! ### The block end at a stop (R134, R135) -/

/-- A stream ends its open block at a stop: the pilcrows of boundaries already reached, then the bare full stop. -/
def Dev.streamStop (s : Dev) (n st : Nat) : Dev :=
  let due := (s.marn.bounds.drop (s.stream (4 * n + st)).boundsDone).takeWhile (fun b => b.epoch.isSome)
  let a := due.foldl (fun d b => d.openBlock n st b) s
  if (a.stream (4 * n + st)).opened then
    (a.portPut n st true bareStop).modStream n st (fun r => { r with opened := false })
  else a

/-- STOP_BLOCK_END (R135): once every record opened before the stop has closed, each stream of a port that works ends its block (R372). -/
def Dev.stopBlockEnd (s : Dev) (n : Nat) : Dev :=
  if (s.port n).stopPending && s.portRuns n && (s.streamsOn n).all (fun st => (s.stream (4 * n + st)).recs.isEmpty) then
    ((s.streamsOn n).foldl (fun d st => d.streamStop n st) s).setPort n { s.port n with stopPending := false }
  else s

def execStopBlockEnd (port : Port) (s : State) : Out := s.run (fun d => d.stopBlockEnd port.val)

end Sys2Proof.Machine
end

