-- ==== Sys2Proof/Machine/Cci.lean ====
section
/-! DEFINITION. CCI masters and exposure sets (chapter 03, R102–R110). -/

namespace Sys2Proof.Machine

/-- The record of a CCI master replaced by a function of it. -/
def Dev.modCci (s : Dev) (n : Nat) (f : CciRec → CciRec) : Dev := s.setCci n (f (s.cci n))

/-- The staged set of a slot. -/
def Dev.exp (s : Dev) (n k : Nat) : ExpRec := (s.cci n).slots.getD k .init

/-- The staged set of a slot replaced, its phase shown in status (R111). -/
def Dev.setExp (s : Dev) (n k : Nat) (e : ExpRec) : Dev :=
  (s.modCci n (fun r => { r with slots := r.slots.set k e })).setF Reg.SPORT_EXP_SLOT.status e.phase n k

/-- Valid entries of a slot, counted from e = 0 (R110). -/
def Dev.expEntries (s : Dev) (n k : Nat) : Nat :=
  ((List.range 8).takeWhile (fun e => s.flag Reg.SPORT_EXP_ENTRY.valid n k e)).length

/-- Are the valid entries contiguous from e = 0, and is there one (R110)? -/
def Dev.expWellFormed (s : Dev) (n k : Nat) : Bool :=
  let m := s.expEntries n k
  decide (0 < m) && (List.range 8).all (fun e => e < m || !s.flag Reg.SPORT_EXP_ENTRY.valid n k e)

/-- Has the head a group hold (R105)? -/
def Dev.groupHold (s : Dev) (n : Nat) : Bool := (s.cfg 1 n).flag Reg.SPORT_EXP_CFG.group_hold n

/-- The transactions of a set in order, an entry with true for a read-back (R105). -/
def Dev.expPlan (s : Dev) (n k : Nat) : List (Nat × Bool) :=
  let m := s.expEntries n k
  let reads := fun (j : Nat) => ((List.range j).filter (fun e => s.flag Reg.SPORT_EXP_ENTRY.readback n k e)).map (fun e => (e, true))
  let writes := fun (j : Nat) => (List.range j).map (fun e => (e, false))
  if s.groupHold n then writes (m - 1) ++ reads (m - 1) ++ [(m - 1, false)] else writes m ++ reads m

/-- Transactions before the latch write of a set with group_hold. -/
def Dev.expPrep (s : Dev) (n k : Nat) : Nat := (s.expPlan n k).length - 1

/-- The commit index of a slot. -/
def Dev.expIndex (s : Dev) (n k : Nat) : Nat := s.fld Reg.SPORT_EXP_SLOT.commit_index n k

/-- Has every set of lower commit_index finished (R105)? -/
def Dev.lowerFinished (s : Dev) (n k : Nat) : Bool :=
  (List.range 4).all (fun j => (s.exp n j).phase == 0 || (s.exp n j).lastEnd.isSome
    || !before48 (s.expIndex n j) (s.expIndex n k))

/-- The armed slots in ascending commit_index (R110). -/
def Dev.expOrder (s : Dev) (n : Nat) : List Nat :=
  ((List.range 4).filter (fun k => (s.exp n k).phase != 0)).mergeSort (fun a b => !before48 (s.expIndex n b) (s.expIndex n a))

/-- An exposure set ends with its completion record and notice 6 (R107, R108, R110, R353, R366). -/
def Dev.endSet (s : Dev) (n k status cause idx gen : Nat) : Dev :=
  let p := s.portOwner n
  let commit := s.expIndex n k
  let a := ((s.setExp n k .init).setF Reg.SPORT_EXP_SLOT.arm 0 n k).setF Reg.SPORT_EXP_SLOT.cancel 0 n k
  let b := a.setF Reg.SPORT_EXP_SLOT.result (status + 1) n k
  let d := if status = stDone then b.setF Reg.SPORT_EXP_SLOT.generation gen n k else b
  let e := if status = stFailed then d.alarmAt Reg.SPORT_EXP_SLOT.result n k 1 1 n p else d
  (e.complete p ⟨none, cr0Of 4 status cause false false (4 * n + k) 0 commit,
    cr12Of idx (if status = stDone then gen * 2 ^ 16 else 0), 0, 0⟩).notice p 6 0

/-- Is the master active (R103)? -/
def Dev.cciActive (s : Dev) (n : Nat) : Bool := s.fld Reg.SPORT_CCI_CFG.role n == 0

/-- A register address as the head's transactions carry it: 8 or 16 bits (R102, R111). -/
def Dev.cciAddr (s : Dev) (n a : Nat) : Nat := if (s.cfg 1 n).flag Reg.SPORT_CCI_CFG.addr16 n then a % 2 ^ 16 else a % 2 ^ 8

/-- A transaction as the master drives it (R102): a write carries its data. -/
def Dev.cciTrans (s : Dev) (n : Nat) (read : Bool) (reg bytes data : Nat) : CciTrans :=
  ⟨read, BitVec.ofNat 16 (s.cciAddr n reg), ⟨bytes % 4, Nat.mod_lt _ (by decide)⟩, if read then 0 else BitVec.ofNat 32 data⟩

/-- A transaction goes to the head's device address (R111). -/
def Dev.cciPut (s : Dev) (n : Nat) (tr : CciTrans) : Dev :=
  s.modCci n (fun r => { r with lastBusy := s.now, sent := some ((s.cfg 1 n).fld Reg.SPORT_CCI_CFG.dev_addr n, tr) })

/-- The next transaction of a set begins on the bus. -/
def Dev.cciIssue (s : Dev) (n k phase : Nat) : Dev :=
  let t := (s.expPlan n k).getD (s.exp n k).next (0, false)
  let tr := s.cciTrans n t.2 (s.fld Reg.SPORT_EXP_ENTRY.reg_addr n k t.1) (s.fld Reg.SPORT_EXP_ENTRY.bytes n k t.1)
    (s.fld Reg.SPORT_EXP_ENTRY.data n k t.1)
  ((s.setExp n k { s.exp n k with phase := phase }).modCci n (fun r => { r with job := .set k })).cciPut n tr

/-- May a transaction of a set begin once the bus is free (R105): a latch write that is due, the set in progress, or one that may begin? -/
def Dev.expDue (s : Dev) (n k : Nat) : Bool :=
  let e := s.exp n k
  (e.phase == 3 && e.gateOpen) || e.phase == 2 || (e.phase == 4 && !s.groupHold n && e.lastEnd.isNone)
    || (e.phase == 1 && s.lowerFinished n k && (s.groupHold n || e.gateOpen))

/-- An empty preparatory part is complete as soon as it may begin (R105). -/
def Dev.expSettle (s : Dev) (n : Nat) : Dev :=
  (List.range 4).foldl (fun d k =>
    if d.groupHold n ∧ (d.exp n k).phase = 1 ∧ d.expPrep n k = 0 ∧ d.lowerFinished n k then d.setExp n k { d.exp n k with phase := 3 }
    else d) s

/-- What waits for an abandoned bus does so from now on, if it did not already (R102). DESIGN CHOICE (log entry 130): the stretch_timeout
of a transaction that already waited counts from the abandonment. -/
def Dev.cciWait (s : Dev) (n : Nat) : Dev :=
  let a := s.modCci n (fun r => { r with directDue := if r.directWaiting then some (r.directDue.getD s.now) else none })
  (List.range 4).foldl (fun d k =>
    d.setExp n k { d.exp n k with due := if d.expDue n k then some ((d.exp n k).due.getD s.now) else none }) a

/-- Nothing waits for an abandoned bus any longer. -/
def Dev.cciWaitOver (s : Dev) (n : Nat) : Dev :=
  (List.range 4).foldl (fun d k => d.setExp n k { d.exp n k with due := none }) (s.modCci n (fun r => { r with directDue := none }))

/-- A free bus takes what comes next (R104, R105, R110): a latch write that is due, the set in progress, a waiting direct command,
a set that may begin. -/
def Dev.cciStart (s : Dev) (n : Nat) : Dev :=
  let order := s.expOrder n
  match order.find? (fun k => (s.exp n k).phase == 3 && (s.exp n k).gateOpen) with
  | some k => s.cciIssue n k 4
  | none =>
    match order.find? (fun k => s.expDue n k && (s.exp n k).phase != 1) with
    | some k => s.cciIssue n k (s.exp n k).phase
    | none =>
      if (s.cci n).directWaiting then
        (s.modCci n (fun r => { r with job := .direct, directWaiting := false })).cciPut n
          (s.cciTrans n (s.flag Reg.SPORT_CCI_CMD.read n) (s.fld Reg.SPORT_CCI_CMD.reg_addr n) (s.fld Reg.SPORT_CCI_CMD.bytes n)
            (s.fld Reg.SPORT_CCI_DATA.data n))
      else match order.find? (s.expDue n) with
        | none => s
        | some k => s.cciIssue n k (if s.groupHold n then 2 else 4)

/-- What the bus takes next; nothing in a listener (R103), and nothing on a bus in use, where waits for an abandoned one begin (R102). -/
def Dev.cciNext (s : Dev) (n : Nat) : Dev :=
  if !s.cciActive n then s
  else
    let a := s.expSettle n
    match (s.cci n).job with
    | .idle => a.cciStart n
    | .abandoned _ => a.cciWait n
    | _ => a

/-- The outcome of a transaction of a staged set, on the bus or observed on it (R105, R108, R109). -/
def Dev.expStep (s : Dev) (n k : Nat) (acked : Bool) (readData : BitVec 32) : Dev :=
  let e := s.exp n k
  let plan := s.expPlan n k
  let t := plan.getD e.next (0, false)
  let m := 2 ^ (8 * (s.fld Reg.SPORT_EXP_ENTRY.bytes n k t.1 + 1))
  if !acked then s.endSet n k stFailed caNack 0 0
  else if t.2 && readData.toNat % m != s.fld Reg.SPORT_EXP_ENTRY.data n k t.1 % m then s.endSet n k stFailed caReadback 0 0
  else if e.next + 1 = plan.length then s.setExp n k { e with phase := 4, next := e.next + 1, lastEnd := some s.now }
  else if s.groupHold n ∧ e.next + 1 = s.expPrep n k then s.setExp n k { e with phase := 3, next := e.next + 1, gateOpen := false }
  else s.setExp n k { e with next := e.next + 1 }

/-- A direct command ends with its status (R104, R111). -/
def Dev.directEnd (s : Dev) (n status : Nat) : Dev :=
  (s.setF Reg.SPORT_CCI_CMD.status status n).setF Reg.SPORT_CCI_CMD.go 0 n

/-- What has waited for an abandoned bus as a test of its first instant says fails with BUS_TIMEOUT, or status timeout for a direct
command (R102). -/
def Dev.cciWaitersFail (s : Dev) (n : Nat) (late : Nat → Bool) : Dev :=
  let a := if (s.cci n).directDue.any late then
      (s.directEnd n 3).modCci n (fun r => { r with directWaiting := false, directDue := none })
    else s
  ((s.expOrder n).filter (fun k => (s.exp n k).due.any late)).foldl (fun d k => d.endSet n k stFailed caBusTimeout 0 0) a

/-- The longest time that a transaction waits for an abandoned bus (R102). -/
def Dev.stretchLimit (s : Dev) (n : Nat) : Nat := (s.cfg 1 n).fld Reg.SPORT_CCI_CFG.stretch_timeout n * Config.xcPs

/-- Has the head latched a set of which so many transactions have ended without failure (R110): its latch write, or its last write? -/
def Dev.expLatched (s : Dev) (n k done : Nat) : Bool :=
  decide ((if s.groupHold n then (s.expPlan n k).length else s.expEntries n k) ≤ done)

/-- Is the next transaction of a set without failure (R108): acknowledged, and a read-back that matches? -/
def Dev.expPasses (s : Dev) (n k : Nat) (acked : Bool) (readData : BitVec 32) : Bool :=
  let t := (s.expPlan n k).getD (s.exp n k).next (0, false)
  let m := 2 ^ (8 * (s.fld Reg.SPORT_EXP_ENTRY.bytes n k t.1 + 1))
  acked && (!t.2 || readData.toNat % m == s.fld Reg.SPORT_EXP_ENTRY.data n k t.1 % m)

/-- A set ends ABORTED of which so many transactions have ended without failure, the last at an instant (R110): where the head has
latched it, the generation still advances at T + D. DESIGN CHOICE (log entry 132): also where a read-back that runs then fails. -/
def Dev.abortSet (s : Dev) (n k cause done at_ : Nat) : Dev :=
  (if s.expLatched n k done then s.modCci n (fun r => { r with ghosts := r.ghosts ++ [at_] }) else s).endSet n k stAborted cause 0 0

/-- A transaction ends with its STOP (R105): its job goes on, and the bus takes what comes next. DESIGN CHOICE (log entry 98): the end of
a direct command is taken as SPORT_CCI_CMD reads then. -/
def Dev.transactionEnd (s : Dev) (n : Nat) (acked : Bool) (readData : BitVec 32) : Dev :=
  let free := s.modCci n (fun r => { r with job := .idle, lastBusy := s.now })
  match (s.cci n).job with
  | .idle => s
  | .direct =>
    let m := 2 ^ (8 * (s.fld Reg.SPORT_CCI_CMD.bytes n + 1))
    let a := if acked && s.flag Reg.SPORT_CCI_CMD.read n
      then free.setF Reg.SPORT_CCI_DATA.data (readData.toNat % m) n else free
    (a.directEnd n (if acked then 0 else 2)).cciNext n
  | .set k =>
    match (s.exp n k).ending with
    | some cause =>
      (free.abortSet n k cause ((s.exp n k).next + if s.expPasses n k acked readData then 1 else 0) s.now).cciNext n
    | none => (free.expStep n k acked readData).cciNext n
  | .abandoned _ => ((free.cciWaitersFail n (fun t => decide (t + s.stretchLimit n < s.now))).cciWaitOver n).cciNext n

/-- CCI_TRANSACTION_END (R105). -/
def execCciTransactionEnd (port : Port) (acked : Bool) (readData : BitVec 32) (s : State) : Out :=
  s.run (fun d => d.transactionEnd port.val acked readData)

/-- The instants since which transactions wait for an abandoned bus. -/
def Dev.cciDues (s : Dev) (n : Nat) : List Nat :=
  (s.cci n).directDue.toList ++ (List.range 4).filterMap (fun k => (s.exp n k).due)

/-- A listener sees a stretch timeout (R109): the transaction was of the set that it expects next, which fails with that outcome (DESIGN
CHOICE, log entry 101), or of one it has not staged. -/
def Dev.stretchSeen (s : Dev) (n : Nat) : Dev :=
  let a := s.modCci n (fun r => { r with lastBusy := s.now })
  match (a.expOrder n).find? (fun k => (a.exp n k).lastEnd.isNone) with
  | none => a.alarm 1 2 n (a.portOwner n)
  | some k => a.endSet n k stFailed caBusTimeout 0 0

/-- A clock stretch reaches stretch_timeout (R102, R108): the transaction is abandoned and occupies the bus to its STOP. On a bus already
abandoned, what has waited for stretch_timeout fails. -/
def Dev.stretchTimeout (s : Dev) (n : Nat) : Dev :=
  let left := s.modCci n (fun r => { r with job := .abandoned s.now, lastBusy := s.now })
  if (s.cfg 1 n).flag Reg.SPORT_CCI_CFG.mode n then s
  else if !s.cciActive n ∧ (s.cci n).job = .idle then s.stretchSeen n
  else match (s.cci n).job with
  | .idle => s
  | .direct => (left.directEnd n 3).cciNext n
  | .set k =>
    match (s.exp n k).ending with
    | some cause => (left.abortSet n k cause (s.exp n k).next s.now).cciNext n
    | none => (left.endSet n k stFailed caBusTimeout 0 0).cciNext n
  | .abandoned _ =>
    match (s.cciDues n).min? with
    | none => s
    | some t =>
      let a := s.reach (t + s.stretchLimit n)
      (a.cciWaitersFail n (fun x => decide (x + s.stretchLimit n ≤ a.now))).cciNext n

/-- CCI_STRETCH_TIMEOUT (R102). -/
def execCciStretchTimeout (port : Port) (s : State) : Out := s.run (fun d => d.stretchTimeout port.val)

/-- go issues a direct command; it waits while an exposure set occupies the bus (R104). DESIGN CHOICE (log entry 97): in a listener, which
never drives the bus, it stays busy until the master is active. -/
def Dev.cciGo (s : Dev) (n : Nat) : Dev :=
  if s.flag Reg.SPORT_CCI_CMD.go n then s
  else (((s.setF Reg.SPORT_CCI_CMD.go 1 n).setF Reg.SPORT_CCI_CMD.status 1 n).modCci n
    (fun r => { r with directWaiting := true })).cciNext n

/-- CCI_CMD_GO (R104). -/
def execCciCmdGo (port : Port) (s : State) : Out := s.run (fun d => d.cciGo port.val)

/-- A listener starts to wait for 100 µs without bus activity (R103). -/
def Dev.cciTakeover (s : Dev) (n : Nat) : Dev :=
  if s.cciActive n then s
  else (s.setF Reg.SPORT_CCI_CFG.takeover 1 n).modCci n (fun r => { r with activeWait := some s.now })

/-- CCI_TAKEOVER (R103). -/
def execCciTakeover (port : Port) (s : State) : Out := s.run (fun d => d.cciTakeover port.val)

/-- CCI_YIELD (R103): role := 1 makes an active master a listener; a listener stays one, and goes on waiting if it waits to take over. -/
def execCciYield (port : Port) (s : State) : Out :=
  s.run (fun d => if d.cciActive port.val then d.setF Reg.SPORT_CCI_CFG.role 1 port.val else d)

/-- CCI_IDLE_WAIT_END (R103): the bus has been quiet for 100 µs, and the listener becomes active. DESIGN CHOICE (log entry 96): the 100 µs
count from the later of the request and the last bus activity. -/
def Dev.idleWaitEnd (s : Dev) (n : Nat) : Dev :=
  match (s.cci n).activeWait with
  | none => s
  | some t =>
    let a := s.reach (max t (s.cci n).lastBusy + 100 * Config.usPs)
    (((a.setF Reg.SPORT_CCI_CFG.role 0 n).setF Reg.SPORT_CCI_CFG.takeover 0 n).modCci n
      (fun r => { r with activeWait := none })).cciNext n

def execCciIdleWaitEnd (port : Port) (s : State) : Out := s.run (fun d => d.idleWaitEnd port.val)

/-- A listener follows a transaction on the bus (R109). DESIGN CHOICE (log entry 100): a direct command of the twin, which the listener
cannot tell from a set's transaction, is held against the set it expects, and is a set it has not staged where there is none. -/
def Dev.busObserved (s : Dev) (n : Nat) (tr : CciTrans) (acked : Bool) (readData : BitVec 32) : Dev :=
  if s.cciActive n then s
  else
    let a := s.modCci n (fun r => { r with lastBusy := s.now })
    match (a.expOrder n).find? (fun k => (a.exp n k).lastEnd.isNone) with
    | none => a.alarm 1 2 n (a.portOwner n)
    | some k =>
      let t := (a.expPlan n k).getD (a.exp n k).next (0, false)
      let m := 2 ^ (8 * (a.fld Reg.SPORT_EXP_ENTRY.bytes n k t.1 + 1))
      if tr.read == t.2 && a.cciAddr n tr.reg.toNat == a.cciAddr n (a.fld Reg.SPORT_EXP_ENTRY.reg_addr n k t.1)
        && tr.bytes.val == a.fld Reg.SPORT_EXP_ENTRY.bytes n k t.1
        && (t.2 || tr.data.toNat % m == a.fld Reg.SPORT_EXP_ENTRY.data n k t.1 % m)
      then (if (a.exp n k).phase = 1 then a.setExp n k { a.exp n k with phase := if a.groupHold n then 2 else 4 } else a).expStep
        n k acked readData
      else a.alarm 1 2 n (a.portOwner n)

/-- CCI_BUS_OBSERVED (R109). -/
def execCciBusObserved (port : Port) (tr : CciTrans) (acked : Bool) (readData : BitVec 32) (s : State) : Out :=
  s.run (fun d => d.busObserved port.val tr acked readData)

/-- Arm a slot, or refuse it (R110). -/
def Dev.expArm (s : Dev) (n k : Nat) : Dev :=
  if (s.exp n k).phase ≠ 0 then s
  else if !s.expWellFormed n k ∨ (List.range 4).any (fun j =>
      j != k && (s.exp n j).phase != 0 && s.expIndex n j == s.expIndex n k) then
    (s.setF Reg.SPORT_EXP_SLOT.result 4 n k).logAt Reg.SPORT_EXP_SLOT.result n k 1 n (s.portOwner n) (s.expIndex n k)
  else
    (((s.setF Reg.SPORT_EXP_SLOT.arm 1 n k).setF Reg.SPORT_EXP_SLOT.result 0 n k).setExp n k
      { ExpRec.init with phase := 1 }).cciNext n

/-- EXP_SLOT_ARM (R110). -/
def execExpSlotArm (port : Port) (slot : Fin 4) (s : State) : Out := s.run (fun d => d.expArm port.val slot.val)

/-- End an armed set ABORTED with a cause, after its current transaction (R110). `late` also ends one whose latch write has
begun, whose generation still advances once it has completed. No other set begins here. -/
def Dev.expAbort (s : Dev) (n k cause : Nat) (late : Bool) : Dev :=
  let e := s.exp n k
  if e.phase = 0 then s
  else if e.phase = 4 ∧ !late then s
  else if (s.cci n).job = .set k then s.setExp n k { e with ending := some cause }
  else s.abortSet n k cause e.next (e.lastEnd.getD (s.cci n).lastBusy)

/-- Every armed set of a port that a test names ends ABORTED; then the bus takes what comes next (R110). -/
def Dev.expAbortAll (s : Dev) (n cause : Nat) (late : Bool) (which : ExpRec → Bool) : Dev :=
  ((List.range 4).foldl (fun d k => if which (s.exp n k) then d.expAbort n k cause late else d) s).cciNext n

/-- cancel of a slot (R110, R111): it stands at 1 until the transaction in progress has ended. -/
def Dev.expCancel (s : Dev) (n k : Nat) : Dev :=
  let a := s.expAbort n k caCancelled false
  if (a.exp n k).ending.isSome then a.setF Reg.SPORT_EXP_SLOT.cancel 1 n k else a.cciNext n

/-- EXP_SLOT_CANCEL (R110). -/
def execExpSlotCancel (port : Port) (slot : Fin 4) (s : State) : Out :=
  s.run (fun d => d.expCancel port.val slot.val)

/-- I3C_IN_BAND_INTERRUPT (R102): answered with NACK; nothing changes. -/
def execI3cInBandInterrupt (_port : Port) (s : State) : Out := s.run (fun d => d)

/-! ### Triggers seen by exposure sets (R105–R107, R110) -/

/-- The head's next trigger above a grid index (R129). -/
def Dev.nextTrigOf (s : Dev) (n idx : Nat) : Nat :=
  ((List.range 16).find? (fun k =>
    ((s.lineCfg ((idx + k + 1) % 2 ^ 48)).fld Reg.MARN_SEQ.head_mask
      (seqEntry (s.lineCfg ((idx + k + 1) % 2 ^ 48)) ((idx + k + 1) % 2 ^ 48))).testBit n)).elim ((idx + 1) % 2 ^ 48)
    (fun k => (idx + k + 1) % 2 ^ 48)

/-- The head's first trigger at or beyond a grid index. -/
def Dev.firstTrigFrom (s : Dev) (n idx : Nat) : Nat := s.nextTrigOf n ((idx + 2 ^ 48 - 1) % 2 ^ 48)

/-- The exposure generation of a port: that of the next trigger (R111). -/
def Dev.portGen (s : Dev) (n : Nat) : Nat := s.fld Reg.SPORT_EXP_CFG.generation n

/-- The commit trigger T of the sets whose last transaction has ended (R106, R107): late where a trigger at or beyond commit_index has
already reached the pin. DESIGN CHOICE (log entry 99): sets with the same T commit in ascending commit_index; (log entry 131): a pin
instant equal to that of the STOP follows it. -/
def Dev.expCommit (s : Dev) (n idx pinAt : Nat) : Dev :=
  (s.expOrder n).foldl (fun d k =>
    match (d.exp n k).lastEnd with
    | none => d
    | some t =>
      if t ≤ pinAt then
        let a := d.modCci n (fun r => { r with genDue := r.genDue ++ [(d.cfg 1 n).fld Reg.SPORT_EXP_CFG.exp_latency n] })
        let gen := (d.portGen n + (a.cci n).genDue.length) % 256
        let late := (a.cci n).lastTrig.any (fun i => !before48 i (d.expIndex n k))
        (if late then a.log 1 n (a.portOwner n) (a.expIndex n k) else a).endSet n k stDone 0 idx gen
      else d) s

/-- Sets that ended ABORTED after their latch write still advance the generation (R110). -/
def Dev.ghostCommit (s : Dev) (n pinAt : Nat) : Dev :=
  s.modCci n (fun r => { r with
    genDue := r.genDue ++ (r.ghosts.filter (fun t => t ≤ pinAt)).map (fun _ => (s.cfg 1 n).fld Reg.SPORT_EXP_CFG.exp_latency n)
    ghosts := r.ghosts.filter (fun t => pinAt < t) })

/-- The generation advances for every set whose D triggers have been counted (R107). -/
def Dev.genApply (s : Dev) (n : Nat) : Dev :=
  let hits := ((s.cci n).genDue.filter (fun x => x == 0)).length
  (s.modCci n (fun r => { r with genDue := r.genDue.filter (fun x => x != 0) })).setF Reg.SPORT_EXP_CFG.generation
    ((s.portGen n + hits) % 256) n

/-- A trigger has been fired: the generation is from now on that of the next trigger (R107, R111). -/
def Dev.genTick (s : Dev) (n : Nat) : Dev :=
  (s.modCci n (fun r => { r with genDue := r.genDue.map (fun x => x - 1) })).genApply n

/-- The gate trigger, or a later one, opens the gap of the sets that are ready (R105). -/
def Dev.gateOpen (s : Dev) (n idx : Nat) : Dev :=
  (List.range 4).foldl (fun d k =>
    let e := d.exp n k
    let reached := !before48 (d.nextTrigOf n idx) (d.expIndex n k)
    if reached ∧ e.ending = none ∧ (e.phase = 3 ∨ (e.phase = 1 ∧ !d.groupHold n ∧ d.lowerFinished n k))
    then d.setExp n k { e with gateOpen := true } else d) s

/-- A trigger of the head reaches its pin (R105–R107); where D is 0, this trigger has the new generation. -/
def Dev.cciTrigger (s : Dev) (n idx pinAt : Nat) : Dev :=
  let a := (((s.expCommit n idx pinAt).ghostCommit n pinAt).genApply n).gateOpen n idx
  (a.modCci n (fun r => { r with lastTrig := some idx })).cciNext n

end Sys2Proof.Machine
end

