-- ==== Sys2Proof/Machine/Ring.lean ====
section
/-! DEFINITION. Ring messages on the flank links (R313–R316), training attempts (R318–R321), repeater mode (R324) and
enumeration (R325, R326), as operations that several families share. -/

namespace Sys2Proof.Machine

/-! ### Links -/

/-- Is a link enabled? -/
def Dev.flkOn (s : Dev) (l : Nat) : Bool := s.flag Reg.FLK_CTRL.enable l
/-- Is a link settled (R326): in RUN or DOWN, or not in use? -/
def Dev.flkSettled (s : Dev) (l : Nat) : Bool := !s.flkOn l || s.flkUp l || s.flkState l == fsDown

/-- A link enters a training state; a change of state raises notice 10 of P0 (R353). The instant since which both links are settled follows. -/
def Dev.flkGo (s : Dev) (l st : Nat) : Dev :=
  let a := (s.setF Reg.FLK_STATUS.state st l).modFlank l (fun r => { r with since := s.now, waitUntil := none })
  let b := { a with chain := { a.chain with
    settledAt := if a.flkSettled 0 && a.flkSettled 1 then some (a.chain.settledAt.getD a.now) else none } }
  if s.flkState l = st then b else b.notice 0 10 0

/-- A link loses everything it holds for transmission (R321). -/
def Dev.flkClear (s : Dev) (l : Nat) : Dev :=
  s.modFlank l (fun r => { r with
    waiting := [], unacked := [], ackDue := none, retries := 0, nakSent := false, txSeq := 0, rxSeq := 0, fails := [], accepted := false
    dropped := [] })

/-- The first attempt of a link begins (R320). -/
def Dev.flkStart (s : Dev) (l : Nat) : Dev :=
  ((((s.flkClear l).setF Reg.FLK_STATUS.attempts 0 l).setF Reg.FLK_STATUS.backoff 0 l).flkGo l fsDetect)

/-- A seam line that was partly received is discarded from rx_q (R321). -/
def Dev.seamCut (s : Dev) (l : Nat) : Dev :=
  (List.range 16).foldl (fun d k =>
    if d.flag Reg.FLK_SEAM.rx_en l k then d.qDiscard 64 (d.fld Reg.FLK_SEAM.rx_q l k) else d) s

/-- A link leaves RUN (R321). -/
def Dev.flkLeave (s : Dev) (l : Nat) : Dev :=
  if s.flkUp l then ((s.countAnd Reg.FLK_STAT.run_exits l 0 2 10 l 0 0 0).seamCut l).flkStart l else s

/-- An attempt fails (R320): at once the next one, after the third DOWN, and in DOWN the next wait. -/
def Dev.flkFail (s : Dev) (l : Nat) : Dev :=
  let a := s.countAnd Reg.FLK_STAT2.train_fail l 0 1 10 l 0 0 0
  let n := s.fld Reg.FLK_STATUS.attempts l
  let wait := fun (d : Dev) (sec : Nat) =>
    ((d.setF Reg.FLK_STATUS.backoff sec l).flkGo l fsDown).modFlank l (fun r => { r with waitUntil := some (s.now + sec * Config.secPs) })
  if n < 2 then (a.setF Reg.FLK_STATUS.attempts (n + 1) l).flkGo l fsDetect
  else if n = 2 then wait ((a.setF Reg.FLK_STATUS.attempts 3 l).countAnd Reg.FLK_STAT2.downs l 0 2 10 l 0 1 0) 1
  else wait a (min 8 (2 * s.fld Reg.FLK_STATUS.backoff l))

/-- The receiver accepts a data frame (R312): the next sequence number, and an acknowledgement to send. -/
def Dev.flkAccept (s : Dev) (l : Nat) : Dev :=
  s.modFlank l (fun r => { r with rxSeq := (r.rxSeq + 1) % 256, accepted := true, nakSent := false, ackDue := some (r.ackDue.getD s.now) })

/-! ### Frames (R311–R313) -/

/-- The six grains of a position sample (R118). -/
def posGrains (p : PosSample) : List Grain :=
  [p.pos.toNat * 2 ^ 8 + p.seq.toNat, p.frac.toNat * 2 ^ 40 + p.speed.toNat * 2 ^ 8 + p.status.toNat,
   p.seconds.toNat * 2 ^ 40 + p.nanos.toNat * 2 ^ 8, p.nextBoundary.toNat * 2 ^ 24 + p.cause.toNat * 2 ^ 20, p.block.toNat * 2 ^ 40,
   p.origin.toNat * 2 ^ 8].map (BitVec.ofNat 72)

/-- The header grain of a ring message (R313). DESIGN CHOICE (log entry 120): no chapter gives the message types, nor, but for the position
sample, the grains behind the header; both are free values of what the message says. -/
def ringHead (m : RingMsg) : Grain :=
  BitVec.ofNat 72 (m.origin.toNat * 2 ^ 65 + m.destination.toNat * 2 ^ 58 + m.hops.toNat * 2 ^ 52 + m.msgId.toNat * 2 ^ 36
    + (Config.ringType m.body).toNat * 2 ^ 32 + (if m.broadcast then 2 ^ 31 else 0))

/-- The grains of a ring message, at most the 256 of a frame (R311, R313). -/
def ringGrains (m : RingMsg) : List Grain :=
  ringHead m :: (match m.body with
    | .sample p => posGrains p
    | b => (Config.ringGrains b).take 255)

/-- The correctionField of an IEEE 1588 message put into its bytes 8–15, most significant byte first (R336, R338). -/
def corrected (m : PtpMsg) : List Byte :=
  m.bytes.take 8 ++ ((leBytes 8 (ofSigned 64 (satS 64 m.correction))).reverse.take (m.bytes.length - 8)) ++ m.bytes.drop 16

/-- The grains of a time frame (R337): its length, direction and hops, then the message bytes, nine a grain. -/
def timeGrains (f : TimeFrame) : List Grain :=
  let bytes := corrected f.msg
  BitVec.ofNat 72 (bytes.length % 2 ^ 16 + (if f.towardsRoot then 2 ^ 16 else 0) + f.hops.toNat * 2 ^ 17)
    :: (chunks 9 bytes.length bytes).map (fun bs => BitVec.ofNat 72 (ofLeBytes bs))

/-- The grains of a load (R311, R313, R337). -/
def FlkLoad.grains : FlkLoad → List Cell
  | .seam _ cells => cells
  | .ring m => (ringGrains m).map (fun g => (g, mkCode cNoun))
  | .time f _ => (timeGrains f).map (fun g => (g, mkCode cNoun))
  | .lost => []

/-- The channel code of a load (R313). -/
def FlkLoad.code : FlkLoad → Nat
  | .ring m => m.channel.val
  | .time _ _ => 0
  | .seam _ _ => 6
  | .lost => 0

/-- The 64-bit header of a frame (R311). -/
def FlkFrame.header (f : FlkFrame) : Nat :=
  f.channel * 2 ^ 61 + f.seq * 2 ^ 53 + f.ackSeq * 2 ^ 45 + (if f.ackValid then 2 ^ 44 else 0) + f.grains.length * 2 ^ 35 + f.type * 2 ^ 33
    + f.seam * 2 ^ 29

/-- A grain as it is sent: 80 bits, the grain followed by its mark (R311). -/
def wireGrain (c : Cell) : List Byte := leBytes 10 (c.1.toNat + c.2.toNat % 256 * 2 ^ 72)

/-- A frame as bytes (R311): the header, the grains, and the CRC-32C over both. -/
def FlkFrame.bytes (f : FlkFrame) : List Byte :=
  let body := leBytes 8 f.header ++ f.grains.flatMap wireGrain
  body ++ leBytes 4 (crc32c body)

/-- A frame of a type leaves (R311, R312): the acknowledgement due goes with it. A data frame carries its load. -/
def Dev.flkEmit (s : Dev) (l type seq : Nat) (x : FlkLoad) : Dev :=
  s.modFlank l (fun r => { r with
    ackDue := none
    sent := some { channel := x.code, seq := seq, ackSeq := (r.rxSeq + 255) % 256, ackValid := r.accepted, type := type
                   seam := (match x with
                     | .seam k _ => k
                     | _ => 0), grains := x.grains } })

/-- An acknowledgement frees the frames up to its sequence number (R312). -/
def Dev.acked (s : Dev) (l seq : Nat) : Dev :=
  let r := s.flank l
  if r.unacked.any (fun f => f.1 == seq) then
    s.modFlank l (fun r => { r with
      unacked := (r.unacked.dropWhile (fun f => f.1 != seq)).drop 1, retries := 0, sentAt := s.now })
  else s

/-- The NAK of the first bad frame after an accepted one (R312). -/
def Dev.sendNak (s : Dev) (l : Nat) : Dev :=
  if (s.flank l).nakSent then s
  else ((s.flkEmit l 2 0 .lost).modFlank l (fun r => { r with nakSent := true })).bump Reg.FLK_STAT.naks_sent l

/-- A data frame arrives (R312): in sequence it is accepted, its acknowledgement taken and what it carries delivered; out of sequence it is
discarded. -/
def Dev.dataFrame (s : Dev) (l : Nat) (f : Option FrameSeq) (act : Dev → Dev) : Dev :=
  if !s.flkUp l then s
  else match f with
    | none => act (s.flkAccept l)
    | some h =>
      if h.seq.toNat ≠ (s.flank l).rxSeq then s.sendNak l
      else
        let a := s.flkAccept l
        act (match h.ack with
          | some n => a.acked l n.toNat
          | none => a)

/-! ### Ring messages (R313–R315) -/

/-- The CRC-32C of a copy (R315): over its header grain with hops taken as zero and every grain after it. -/
def ringCrc (m : RingMsg) : Nat := crc32c ((ringGrains { m with hops := 0 }).flatMap grainBytes)

/-- The first copy of a message, with its arrival. -/
def Dev.firstCopy (s : Dev) (m : RingMsg) : Option (RingMsg × Nat) :=
  s.chain.copies.find? (fun c => c.1.origin == m.origin && c.1.channel == m.channel && c.1.msgId == m.msgId
    && decide (s.now < c.2 + copyMemory))

/-- Keep a first copy. -/
def Dev.keepCopy (s : Dev) (m : RingMsg) : Dev :=
  { s with chain := { s.chain with
    copies := ({ m with frame := none }, s.now) :: s.chain.copies.filter (fun c => decide (s.now < c.2 + copyMemory) &&
      !(c.1.origin == m.origin && c.1.channel == m.channel && c.1.msgId == m.msgId)) } }

/-- The detail of a duplicate mismatch (R476). -/
def copyDetail (m : RingMsg) : Nat := m.origin.toNat + m.channel.val * 2 ^ 7 + m.msgId.toNat * 2 ^ 10

/-- Is this device the origin? A join message comes from a device that holds no position; such a device knows its messages by what it
sent. -/
def Dev.isOrigin (s : Dev) (m : RingMsg) : Bool :=
  (s.assigned && m.origin.toNat == s.chainAddr && (match m.body with
    | .join => false
    | _ => true)) ||
  s.chain.own.any (fun o => { o.1 with hops := 0 } == { m with hops := 0, frame := none } && decide (s.now < o.2 + copyMemory))

/-- Is the message addressed to this device? -/
def Dev.isDest (s : Dev) (m : RingMsg) : Bool := !m.broadcast && s.assigned && m.destination.toNat == s.chainAddr

/-- Forward a copy on the other link (R314). -/
def Dev.ringForward (s : Dev) (l : Nat) (m : RingMsg) : Dev :=
  if s.isOrigin m ∨ m.hops = 0 ∨ s.isDest m then s
  else s.flkQueue (1 - l) (.ring { m with hops := m.hops - 1, frame := none })

/-- A copy of a message is the first one, which has an effect, or a later one, which is compared, or counted where it is stale (R315). -/
def Dev.copyIn (s : Dev) (m : RingMsg) (first : Dev → Dev) : Dev :=
  match s.firstCopy m with
  | none => first (s.keepCopy m)
  | some c =>
    if c.2 + Config.msPs < s.now then s.countAnd Reg.FLK_DUP.dup_stale 0 0 1 10 2 0 0 0
    else if ringCrc c.1 = ringCrc m then s
    else s.countAnd Reg.FLK_DUP.dup_mismatch 0 0 2 10 2 0 2 (copyDetail m)

/-- A ring message arrives on a link (R312, R314, R315): it is accepted and forwarded; a first copy that concerns this
device has the effect `act`; a second copy is compared, a stale one counted. -/
def Dev.ringIn (s : Dev) (l : Nat) (m : RingMsg) (act : Dev → Dev) : Dev :=
  s.dataFrame l m.frame (fun d =>
    let a := d.ringForward l m
    if a.isOrigin m then a
    else a.copyIn m (fun e => if m.broadcast || e.isDest m then act e else e))

/-! ### Enumeration (R325, R326) -/

/-- Values of enum_state (R330). -/
def esIdle : Nat := 0
def esRunning : Nat := 1
def esDone : Nat := 2
def esNoRoot : Nat := 3
def esDualRoot : Nat := 4
def esRowMismatch : Nat := 5
def esFull : Nat := 6

/-- The lowest free position of a map, minus 1. -/
def freePosition (map : BitVec 64) : Option Nat := (List.range 64).find? (fun p => !map.getLsbD p)

/-- The map with a position set. -/
def mapWith (map : BitVec 64) (p : Nat) : BitVec 64 := map ||| BitVec.ofNat 64 (2 ^ p)

/-- Positions in a map. -/
def mapCount (map : BitVec 64) : Nat := ((List.range 64).filter map.getLsbD).length

/-- Hold a position (minus 1). -/
def Dev.holdPosition (s : Dev) (p : Nat) : Dev :=
  let a := (s.setF Reg.FLK_CHAIN.position p).setF Reg.FLK_CHAIN.assigned 1
  { a with chain := { a.chain with took := true, sticky := some p } }

/-- The positions of the row that stay assigned, taken in this enumeration or held from an earlier one (R327). -/
def Dev.rowMap (s : Dev) (map : BitVec 64) : BitVec 64 := map ||| BitVec.ofNat 64 s.chain.reserved

/-- The result of an enumeration is recorded (R325, step 5). -/
def Dev.enumRecord (s : Dev) (count : Nat) (map : BitVec 64) (closed : Bool) : Dev :=
  let a := (((s.setF Reg.FLK_CHAIN.chain_count count).setF Reg.FLK_CHAIN_MAP2.assigned map.toNat).setF
    Reg.FLK_CHAIN.closed (if closed then 1 else 0)).setF Reg.FLK_CHAIN.enum_state esDone
  { a with chain := { a.chain with took := false, asked := none } }

/-- The root ends an enumeration (R325, step 5): what is assigned stays reserved (R327). -/
def Dev.enumFinish (s : Dev) (taken : BitVec 64) (closed : Bool) : Dev :=
  let map := s.rowMap taken
  ({ (s.enumRecord (mapCount map) map closed) with chain := { (s.enumRecord (mapCount map) map closed).chain with reserved := map.toNat } }).ringSend
    chEnum none (.chainDone (BitVec.ofNat 7 (mapCount map)) map closed)

/-- Send an enumerate message on one link: no ring message, it goes from device to device (R325). -/
def Dev.enumSend (s : Dev) (l : Nat) (map : BitVec 64) (uid : BitVec 64) (row onFl returning forced : Bool) : Dev :=
  let m := s.ringMsg chEnum none (.enumerate row uid map onFl returning forced (BitVec.ofNat 64 s.chain.reserved))
  (s.takeId chEnum).flkQueue l (.ring m)

/-- The first message came back leftward, or never left (R325, steps 3 and 4): the root tries its FL side, or ends. -/
def Dev.enumLeft (s : Dev) (uid map : BitVec 64) (forced : Bool) : Dev :=
  if s.flkUp 0 then s.enumSend 0 map uid (s.fld Reg.FLK_CHAIN.row == 1) true false forced else s.enumFinish map false

/-- The root begins an enumeration (R325, step 1); a forced renumber lets go of every position in the row (R328). -/
def Dev.enumStart (s : Dev) (uid : BitVec 64) (forced : Bool) : Dev :=
  let b := (s.setF Reg.FLK_CHAIN.enum_state esRunning).holdPosition 0
  let a := if forced then { b with chain := { b.chain with reserved := 0 } } else b
  if a.flkUp 1 then a.enumSend 1 1 uid (s.fld Reg.FLK_CHAIN.row == 1) false false forced else a.enumLeft uid 1 forced

/-- An enumeration fails (R326): the device holds no position until a later one succeeds. -/
def Dev.enumFail (s : Dev) (st : Nat) : Dev :=
  (({ s with chain := { s.chain with asked := none } }.setF Reg.FLK_CHAIN.enum_state st).setF Reg.FLK_CHAIN.assigned 0).alarmAt
    Reg.FLK_CHAIN.enum_state 0 0 10 3 2 0

/-! ### Repeater mode (R324, R432) -/

/-- Enter repeater mode: both links leave RUN (R321) and retime, and what they held is lost. Without the VSER supplies the links fail
instead (R324). -/
def Dev.repeaterOn (s : Dev) : Dev :=
  let a := [0, 1].foldl (fun d l => d.flkLeave l) s
  if s.start.vser then
    let b := if a.flag Reg.TMB_REPEATER.active then a else (a.setF Reg.TMB_REPEATER.active 1).alarmAt Reg.TMB_REPEATER.active 0 0 15 4 0 0
    [0, 1].foldl (fun d l => (d.flkClear l).flkGo l fsRepeater) b
  else [0, 1].foldl (fun d l => if s.flkUp l then d else d.flkStart l) a

/-- Leave repeater mode: both links train (R324, R432); a link that is off stays in DETECT and trains no further. -/
def Dev.repeaterOff (s : Dev) : Dev := [0, 1].foldl (fun d l => d.flkStart l) (s.setF Reg.TMB_REPEATER.active 0)

end Sys2Proof.Machine
end

