-- ==== Sys2Proof/Machine/Clock.lean ====
section
/-! DEFINITION. Clocks, sensors and calibration (chapter 16, R404–R416, R88). -/

namespace Sys2Proof.Machine

/-! ### Island clocks (R407–R410) -/

/-- An island starts an attempt to return to its PLL. -/
def Dev.relock (s : Dev) (i : Nat) : Dev := s.setPll i { s.pll i with onHaven := true, since := some s.now }

/-- The next island of a frequency change moves (R408: one at a time, in ascending number): one kept on the haven clock stays there. -/
def Dev.moveNext (s : Dev) : Dev :=
  let left := s.start.moving.dropWhile (fun i => (s.pll i).stuck)
  let a := { s with start := { s.start with moving := left } }
  match left with
  | [] => a
  | i :: _ => a.relock i

/-- An island has finished its move; the next one of the commit follows. -/
def Dev.moveDone (s : Dev) (i : Nat) : Dev :=
  match s.start.moving with
  | [] => s
  | j :: rest => if i = j then ({ s with start := { s.start with moving := rest } }).moveNext else s

/-- The islands of frequency group g (R407). -/
def groupIslands (g : Nat) : List Nat :=
  let span := fun (a n : Nat) => (List.range n).map (fun i => a + i)
  if g = 0 then span 0 272 else if g = 1 then span 272 32 else if g = 2 then span 304 32 else if g = 3 then span 336 16
  else if g = 4 then span 352 64 else if g = 5 then span 416 64 else if g = 6 then [481] else if g = 7 then [482] else span 483 32

/-- The start-up state from which an island locks (R422): that of the steward cores from FIRMWARE, every other from SELFTEST. -/
def lockFrom (i : Nat) : Nat := if i = 519 then 3 else 4

/-- Is an island trying to return to its PLL? From the state in which it locks, every island on the haven clock does, but for those kept there. -/
def Dev.relocking (s : Dev) (i : Nat) : Bool :=
  (s.pll i).onHaven && !(s.pll i).stuck && decide (lockFrom i ≤ s.fld Reg.CLK_BOOT.state)

/-- The PLL of an island has held its band (R408): the island leaves the haven clock. -/
def Dev.bandHeld (s : Dev) (i : Nat) : Dev :=
  if s.relocking i then ((s.setPll i ⟨false, false, 0, none⟩).bump Reg.CLK_STAT.relocks).moveDone i else s

/-- PLL_BAND_HELD (R408). -/
def execPllBandHeld (island : Fin 521) (s : State) : Out := s.run (fun d => d.bandHeld island.val)

/-- An attempt has lasted 1 ms (R408): the next one, or after the third the haven clock for good. -/
def Dev.attemptTimeout (s : Dev) (i : Nat) : Dev :=
  if s.relocking i then
    let a := (s.reach ((s.pll i).since.getD s.start.at_ + Config.msPs)).bump Reg.CLK_STAT.relock_fail
    let r := a.pll i
    if r.fails < 2 then (a.setPll i { r with fails := r.fails + 1 }).relock i
    else ((a.setPll i ⟨true, true, 3, none⟩).alarm 14 1 i 0 0 (Reg.CLK_STAT.relock_fail.addr 0 0 0)
      Reg.CLK_STAT.relock_fail.lo).moveDone i
  else s

/-- PLL_ATTEMPT_TIMEOUT (R408). -/
def execPllAttemptTimeout (island : Fin 521) (s : State) : Out := s.run (fun d => d.attemptTimeout island.val)

/-- A too-short period (R410): it counts where the island runs from its PLL; the PLL relocks. -/
def Dev.guardTrip (s : Dev) (i : Nat) : Dev :=
  if (s.pll i).onHaven then s
  else (s.relock i).countAnd Reg.CLK_STAT.guard_trips 0 0 2 14 i 0 2 0

/-- FREQUENCY_GUARD_TRIP (R410). -/
def execFrequencyGuardTrip (island : Fin 521) (s : State) : Out := s.run (fun d => d.guardTrip island.val)

/-- CLOCK_MEASURE (R423): a measurement over 1,024 xc begins. -/
def Dev.clockMeasure (s : Dev) : Dev :=
  { s with start := { s.start with measuring := some (s.start.measuring.getD s.now) } }

def execClockMeasure (s : State) : Out := s.run (fun d => d.clockMeasure)

/-- CLOCK_MEASURE_DONE (R423): the frequency and the clock of the selected island. -/
def Dev.measureDone (s : Dev) (khz : Nat) : Dev :=
  match s.start.measuring with
  | none => s
  | some t =>
    let a := s.reach (t + 1024 * Config.xcPs)
    let r := a.pll (a.fld Reg.CLK_MEAS_SEL.island)
    let b := ((a.setF Reg.CLK_MEAS.khz khz).setF Reg.CLK_MEAS.on_haven (if r.onHaven then 1 else 0)).setF Reg.CLK_MEAS.stuck
      (if r.stuck then 1 else 0)
    { b with start := { b.start with measuring := none } }

def execClockMeasureDone (khz : BitVec 22) (s : State) : Out := s.run (fun d => d.measureDone khz.toNat)

/-! ### Calibration (R413–R416) -/

/-- Calibration states and results (R424). -/
def csIdle : Nat := 0
def csMeasuring : Nat := 1
def csApplying : Nat := 2
def crSuccess : Nat := 1
def crPrecondition : Nat := 2
def crLimit : Nat := 3
def crAborted : Nat := 4
def crSkipped : Nat := 5

/-- The blocks of the kind of block b (R413). -/
def calKind (b : Nat) : List Nat :=
  let span := fun (a n : Nat) => (List.range n).map (fun i => a + i)
  if b < 24 then span 0 24 else if b < 56 then span 24 32 else if b < 60 then span 56 4 else [b]

/-- Lanes of the uplink rate in force (R277). DESIGN CHOICE (log entry 135): a rate of four lanes uses lanes 0 to 3. -/
def Dev.laneMask (s : Dev) : Nat := if s.img.upRate ≤ 1 then 0xFF else 0x0F

/-- Is lane i of uplink u powered (R35, R277)? The lanes that the rate in force does not use are off, as are those of a disabled uplink. -/
def Dev.lanePowered (s : Dev) (u i : Nat) : Bool := s.flag Reg.UPL_CTRL.enable u && s.laneMask.testBit i

/-- Is the resource of a block enabled and powered (R35, R414)? Blocks 0–15 serve the uplink lanes and 16–23 the flank
lanes, in that order (log entry 24). -/
def Dev.calEnabled (s : Dev) (b : Nat) : Bool :=
  if b < 16 then s.lanePowered (b / 8) (b % 8)
  else if b < 24 then s.flag Reg.FLK_CTRL.enable ((b - 16) / 4)
  else if b < 56 then s.flag Reg.SPORT_CTRL.enable (b - 24)
  else if b < 60 then s.flag Reg.MARN_ENC.enable (b - 56)
  else true

/-- The state of a block's run. -/
def Dev.calState (s : Dev) (b : Nat) : Nat := s.fld Reg.CAL_BLK.state b

/-- The temperature of a block's sensor, 1/16 °C. -/
def Dev.calTemp (s : Dev) (b : Nat) : Int := s.sfld Reg.CLK_TEMP.temp (Config.calSensor b).toNat

/-- The timeout of a block (R413). -/
def calLimit (b : Nat) : Nat := (if b < 24 then 20 else if b < 60 then 100 else 5) * Config.msPs

/-- A start request (R414, R416, R417): skipped, pending, or the run begins. -/
def Dev.calStart (s : Dev) (b : Nat) : Dev :=
  if !s.calEnabled b then
    let a := s.setF Reg.CAL_BLK.result crSkipped b
    if s.calState b = csIdle then (a.setF Reg.CAL_BLK.pending 0 b).setF Reg.CAL_BLK.run 0 b else a
  else if s.calState b ≠ csIdle ∨ 8 ≤ ((calKind b).filter (fun c => s.calState c != csIdle)).length then
    s.setF Reg.CAL_BLK.pending 1 b
  else
    (((s.setF Reg.CAL_BLK.state csMeasuring b).setF Reg.CAL_BLK.pending 0 b).bump Reg.CAL_BLK_COUNT.attempts b).setCal b
      { s.cal b with since := s.now, startedAt := some s.now, refresh := false }

/-- Waiting runs begin while fewer than 8 of their kind run. -/
def Dev.calNext (s : Dev) (b : Nat) : Dev :=
  (b :: (calKind b).filter (fun c => c != b)).foldl (fun d c =>
    if d.flag Reg.CAL_BLK.pending c ∧ d.calState c = csIdle then d.calStart c else d) s

/-- A run ends with a result (R415, R416). -/
def Dev.calEnd (s : Dev) (b result : Nat) : Dev :=
  let z := (s.setF Reg.CAL_BLK.state csIdle b).setF Reg.CAL_BLK.result result b
  let a := if s.flag Reg.CAL_BLK.pending b then z else z.setF Reg.CAL_BLK.run 0 b
  let d := if result = crSuccess then
      (((a.stamped.setCal b { a.cal b with lastTemp := some (a.calTemp b) }).bump Reg.CAL_BLK_COUNT.completed b).setF
        Reg.CAL_BLK.last_ns (tbNanos a.tbNow) b).setF Reg.CAL_BLK_SEC.last_sec (tbSeconds a.tbNow) b
    else if result = crLimit then (a.alarmAt Reg.CAL_BLK.result b 0 14 3 (0x8000 + b) 0).notice 0 14 0
    else (a.logAt Reg.CAL_BLK.result b 0 14 (0x8000 + b) 0).notice 0 14 0
  d.calNext b

/-- CAL_RUN (R414): run stands at 1 until the run it starts, or that waits for it, ends (R10). -/
def Dev.calRun (s : Dev) (b : Nat) : Dev :=
  let a := s.calStart b
  if a.calState b ≠ csIdle ∨ a.flag Reg.CAL_BLK.pending b then a.setF Reg.CAL_BLK.run 1 b else a

def execCalRun (b : Fin 62) (s : State) : Out := s.run (fun d => d.calRun b.val)

/-- CAL_PERIOD_EXPIRE (R414): cal_period minutes after the block's last start. -/
def Dev.calPeriod (s : Dev) (b : Nat) : Dev :=
  match (s.cal b).startedAt with
  | none => s
  | some t => (s.reach (t + s.fld Reg.CAL_CTRL.cal_period * 60 * Config.secPs)).calStart b

def execCalPeriodExpire (b : Fin 62) (s : State) : Out := s.run (fun d => d.calPeriod b.val)

/-- The largest of some values less the smallest. -/
def spread (xs : List Int) : Int := xs.foldl max (xs.headD 0) - xs.foldl min (xs.headD 0)

/-- Is a block temperature-stable (R413)? Its sensor has been read 16 times, and its readings of the last second, or since sampling began, lie
less than 1 °C apart. DEDUCED (log entry 140): the readings are those that R411 reports. -/
def Dev.tempStable (s : Dev) (b : Nat) : Bool :=
  let i := (Config.calSensor b).toNat
  decide (16 ≤ (s.start.temps.getD i []).length) && decide (spread ((s.start.seen.getD i []).map (fun x => x.2)) < 16)

/-- The precondition of a block (R413), but for what the command reports of the link: a signal on a SerDes lane, or an HS burst on every lane
or trio. DEDUCED (log entry 140): the edges of an encoder count from its enabling. -/
def Dev.calPre (s : Dev) (b : Nat) : Bool :=
  s.calEnabled b &&
    (if b < 24 then true
     else if b < 56 then s.tempStable b && !s.needsDeskew (b - 24)
     else if b < 60 then decide (64 ≤ (s.enc (b - 56)).edgesA) && decide (64 ≤ (s.enc (b - 56)).edgesB)
     else s.tempStable b)

/-- Does the precondition of a block rest on a signal or a burst that only the command reports (R413)? -/
def Dev.calReported (s : Dev) (b : Nat) : Bool :=
  decide (b < 24) ||
    (decide (b < 56) && !(s.fld Reg.SPORT_CTRL.phy (b - 24) == 0 && decide (1500 < s.fld Reg.SPORT_CTRL.rate (b - 24))))

/-- The precondition of a block that ended PRECONDITION is met (R414): at most one such start per cal_period. -/
def Dev.calPrecondition (s : Dev) (b : Nat) : Dev :=
  let due : Bool := match (s.cal b).preStart with
    | none => true
    | some t => decide (t + s.fld Reg.CAL_CTRL.cal_period * 60 * Config.secPs ≤ s.now)
  if s.fld Reg.CAL_BLK.result b = crPrecondition ∧ s.calPre b = true ∧ due then
    (s.setCal b { s.cal b with preStart := some s.now }).calStart b
  else s

/-- CAL_PRECONDITION_MET (R414). -/
def execCalPreconditionMet (b : Fin 62) (s : State) : Out := s.run (fun d => d.calPrecondition b.val)

/-- Codes padded with zeros to a length. -/
def padTo (n : Nat) (xs : List Int) : List Int := xs ++ List.replicate (n - xs.length) 0

/-- The measuring phase ends (R415), where the precondition holds: LIMIT where a code lies outside the 12 bits of CAL_TRIM, else the codes are applied. -/
def Dev.calMeasured (s : Dev) (b : Nat) (codes : List Int) : Dev :=
  if s.calState b ≠ csMeasuring ∨ s.calPre b = false then s
  else if codes.any (fun c => decide (c < 0) || decide (4095 < c)) then s.calEnd b crLimit
  else
    let r := s.cal b
    let n := max r.codes.length codes.length
    (s.setF Reg.CAL_BLK.state csApplying b).setCal b
      { r with since := s.now, codes := padTo n r.codes, targets := codes ++ (padTo n r.codes).drop codes.length }

/-- CAL_MEASURE_DONE (R415). -/
def execCalMeasureDone (b : Fin 62) (codes : List Int) (s : State) : Out := s.run (fun d => d.calMeasured b.val codes)

/-- The precondition is not met when the timeout expires (R415). Where it is met, and rests on nothing that only the command reports, the run
goes on. -/
def Dev.calTimeout (s : Dev) (b : Nat) : Dev :=
  if s.calState b ≠ csMeasuring ∨ (s.calPre b = true ∧ s.calReported b = false) then s else (s.reach ((s.cal b).since + calLimit b)).calEnd b crPrecondition

/-- CAL_TIMEOUT (R415). -/
def execCalTimeout (b : Fin 62) (s : State) : Out := s.run (fun d => d.calTimeout b.val)

/-- One LSB towards a target. -/
def stepCode (c t : Int) : Int := if c < t then c + 1 else if t < c then c - 1 else c

/-- One µs of stepping (R415, R88): every trim moves one LSB; the run ends once all have arrived. -/
def Dev.trimStep (s : Dev) (b : Nat) : Dev :=
  let r := s.cal b
  if s.calState b ≠ csApplying ∧ !r.refresh then s
  else
    let measuring := s.calState b = csMeasuring
    let a := if measuring then s else s.reach (r.since + Config.usPs)
    let codes := (r.codes.zip r.targets).map (fun ct => stepCode ct.1 ct.2)
    let done := decide (codes = r.targets)
    let d := a.setCal b { r with since := if measuring then r.since else a.now, codes := codes, refresh := r.refresh && !done }
    if s.calState b = csApplying ∧ done then d.calEnd b crSuccess else d

/-- CAL_TRIM_STEP (R415). -/
def execCalTrimStep (b : Fin 62) (s : State) : Out := s.run (fun d => d.trimStep b.val)

/-- A deskew burst (R88): packets are accepted from now on, and the skew trims, which follow the termination trim of the
port's block (log entry 25), step to the burst's codes, in the applying phase in place of the measured ones. It may also meet the
block's precondition. -/
def Dev.deskew (s : Dev) (n : Nat) (skew : List Nat) : Dev :=
  if s.portListens n && s.fld Reg.SPORT_CTRL.phy n == 0 then
    let b := 24 + n
    let r := s.cal b
    let len := max r.codes.length (skew.length + 1)
    let base := padTo len (if s.calState b = csApplying then r.targets else r.codes)
    ((s.setPort n { s.port n with deskewed := true }).setCal b { r with
      since := if s.calState b = csIdle then s.now else r.since
      codes := padTo len r.codes
      refresh := s.calState b != csApplying
      targets := base.take 1 ++ skew.map (fun (x : Nat) => (x : Int)) ++ base.drop (skew.length + 1) }).calPrecondition b
  else s

/-- DESKEW_BURST (R88). -/
def execDeskewBurst (port : Port) (skew : List (BitVec 12)) (s : State) : Out :=
  s.run (fun d => d.deskew port.val (skew.map (fun x => x.toNat)))

/-! ### Sensors (R411, R412) -/

/-- The start-up state (R422). -/
def Dev.bootState (s : Dev) : Nat := s.fld Reg.CLK_BOOT.state

/-- A value above a limit, with 2 °C of hysteresis (R411). -/
def hysteresis (was : Bool) (limit t : Int) : Bool := decide (limit ≤ t) || (was && decide (limit - 32 < t))

/-- A reading joins those of the last second (R413): the value that was read last keeps one entry. -/
def seenAt (now : Nat) (t : Int) (xs : List (Nat × Int)) : List (Nat × Int) :=
  (now, t) :: (if (xs.headD (0, 0)).2 = t then xs.drop 1 else xs).filter (fun x => decide (now ≤ x.1 + Config.secPs))

/-- One sensor's sample: the mean of the last 16, its maximum, and the thresholds (R411). -/
def Dev.sensorSample (s : Dev) (i : Nat) (raw : Int) : Dev :=
  let hist := (raw :: s.start.temps.getD i []).take 16
  let t := divRound hist.sum hist.length
  let a := { s with start := { s.start with
    temps := (s.start.temps ++ List.replicate (16 - s.start.temps.length) []).set i hist
    seen := (s.start.seen ++ List.replicate (16 - s.start.seen.length) []).set i (seenAt s.now t (s.start.seen.getD i [])) } }
  let b := (a.setF Reg.CLK_TEMP.temp (ofSigned 12 t) i).setF Reg.CLK_TEMP.temp_max (ofSigned 12 (max t (a.sfld Reg.CLK_TEMP.temp_max i))) i
  let wasWarm := s.start.warm.contains i
  let warm := hysteresis wasWarm (s.sfld Reg.CLK_TEMP_CFG.temp_warn) t
  let wasHot := s.start.hot.contains i
  let hot := hysteresis wasHot (s.sfld Reg.CLK_TEMP_CFG.temp_crit) t
  let keep := fun (on : Bool) (xs : List Nat) => if on then (if xs.contains i then xs else xs ++ [i]) else xs.filter (fun x => x != i)
  let c := { b with start := { b.start with warm := keep warm b.start.warm, hot := keep hot b.start.hot } }
  let d := if warm != wasWarm then c.notice 0 13 0 else c
  if hot && !wasHot then d.alarm 14 4 0 0 else d

/-- The instant of the next temperature sample: 100 µs after the one before (R411). -/
def Dev.sampleTick (s : Dev) : Dev :=
  let a := (s.start.tempAt.map (fun t => s.reach (t + 100 * Config.usPs))).getD s
  { a with start := { a.start with tempAt := some a.now } }

/-- Does a temperature differ by temp_delta from that at a block's last SUCCESS (R414)? -/
def Dev.calMoved (s : Dev) (b : Nat) (t : Int) : Bool :=
  (s.cal b).lastTemp.any (fun l => decide ((s.fld Reg.CAL_CTRL.temp_delta : Int) * 16 ≤ (t - l).natAbs))

/-- Blocks whose sensor comes to differ by temp_delta from its reading at their last SUCCESS start (R414). DEDUCED (log entry 139): the
start request is the change, and not every sample that still differs. -/
def Dev.calTempStarts (s old : Dev) : Dev :=
  (List.range 62).foldl (fun d b => if s.calMoved b (s.calTemp b) ∧ !s.calMoved b (old.calTemp b) then d.calStart b else d) s

/-- TEMP_SAMPLE (R411, R414): sampled from the start of SELFTEST, every 100 µs. -/
def Dev.tempSample (s : Dev) (readings : List Int) : Dev :=
  if s.bootState < 4 then s
  else ((readings.take 16).zipIdx.foldl (fun d ri => d.sensorSample ri.2 ri.1) s.sampleTick).calTempStarts s

def execTempSample (readings : List (BitVec 12)) (s : State) : Out :=
  s.run (fun d => d.tempSample (readings.map (fun r => r.toInt)))

end Sys2Proof.Machine
end

