-- ==== Sys2Proof/Machine/Startup.lean ====
section
/-! DEFINITION. The start-up sequence (R422). -/

namespace Sys2Proof.Machine

/-- Start-up states (R422). -/
def bsPower : Nat := 0
def bsTumbler : Nat := 1
def bsStraps : Nat := 2
def bsFirmware : Nat := 3
def bsSelftest : Nat := 4
def bsCalibrate : Nat := 5
def bsLinks : Nat := 6
def bsEnumerate : Nat := 7
def bsTime : Nat := 8
def bsImage : Nat := 9
def bsRun : Nat := 10

/-- A start-up state is entered. -/
def Dev.bootGo (s : Dev) (st : Nat) : Dev :=
  let a := (s.setF Reg.CLK_BOOT.state st).setF Reg.TMB_STATUS.start_state st
  { a with start := { a.start with at_ := a.now } }

/-- The work that a state begins with (R422): calibrations, link training, enumeration. -/
def Dev.bootEnter (s : Dev) (uid : BitVec 64) (st : Nat) : Dev :=
  let a := s.bootGo st
  if st = bsCalibrate then (List.range 62).foldl (fun d b => d.calStart b) a
  else if st = bsLinks then (if a.flag Reg.TMB_REPEATER.force then a else a.repeaterOff)
  else if st = bsEnumerate then
    if a.isRoot then a.enumStart uid false else a
  else a

/-- Are the enabled uplinks in RUN, and the enabled flank links in RUN or DOWN (R422)? -/
def Dev.linksSettled (s : Dev) : Bool :=
  [0, 1].all (fun u => !s.flag Reg.UPL_CTRL.enable u || s.uplinkUp u) &&
    [0, 1].all (fun l => !s.flkOn l || s.flkUp l || s.flkState l == fsDown)

/-- Is the exit condition of the present start-up state met (R422)? -/
def Dev.bootExit (s : Dev) : Bool :=
  let st := s.bootState
  if st = bsCalibrate then (List.range 62).all (fun b => s.calState b == csIdle && !s.flag Reg.CAL_BLK.pending b)
  else if st = bsLinks then s.linksSettled
  else if st = bsEnumerate then s.fld Reg.FLK_CHAIN.enum_state == esDone
  else if st = bsTime then s.fld Reg.TIME_STATUS.time_state == 2
  else if st = bsImage then s.img.fresh
  else false

/-- Start-up goes on while the exit condition of its state is met. -/
def Dev.bootCheck (s : Dev) (uid : BitVec 64) : Dev :=
  (List.range 6).foldl (fun d _ =>
    if d.start.hold = .free ∧ d.bootExit then d.bootEnter uid (d.bootState + 1) else d) s

/-- A command after whose effect start-up may go on. -/
def State.runBoot (s : State) (f : Dev → Dev) : Out := s.run (fun d => (f d).bootCheck s.fuses.uid)

end Sys2Proof.Machine
end

