-- ==== Sys2Proof/Machine/Uplink.lean ====
section
/-! DEFINITION. The Ethernet uplinks (chapter 11, R277–R280): link states, flow control, address resolution for the uplink's own
addresses. -/

namespace Sys2Proof.Machine

/-- The instance of an uplink in events (R475). -/
def uplInst (u : Nat) : Nat := 0x8000 + u

/-- The record of an uplink replaced by a function of it. -/
def Dev.modUpl (s : Dev) (u : Nat) (f : UplRec → UplRec) : Dev := s.setUpl u (f (s.upl u))

/-- Link states (R308). -/
def usDetect : Nat := 0
def usTrain : Nat := 1
def usAlign : Nat := 2
def usRun : Nat := 3

/-- The link state of an uplink. -/
def Dev.uplState (s : Dev) (u : Nat) : Nat := s.fld Reg.UPL_STATUS.state u

/-- An uplink enters a link state; a change raises notice 10 of P0 (R353). -/
def Dev.uplGo (s : Dev) (u st : Nat) : Dev :=
  let a := (s.setF Reg.UPL_STATUS.state st u).modUpl u (fun r => { r with since := s.now, waitUntil := none })
  if s.uplState u = st then a else a.notice 0 10 0

/-- UPLINK_SIGNAL_DETECT (R277, R279). -/
def execUplinkSignalDetect (u : Uplink) (s : State) : Out :=
  s.run (fun d => if d.flag Reg.UPL_CTRL.enable u.val && d.uplState u.val == usDetect then d.uplGo u.val usTrain else d)

/-- Is an uplink in a state, and not waiting after a timeout? -/
def Dev.uplIn (s : Dev) (u st : Nat) : Bool := s.uplState u == st && (s.upl u).waitUntil.isNone

/-- UPLINK_TRAINED (R279). -/
def execUplinkTrained (u : Uplink) (s : State) : Out :=
  s.run (fun d => if d.uplIn u.val usTrain then (d.setF Reg.UPL_STATUS.lanes_ok d.laneMask u.val).uplGo u.val usAlign else d)

/-- UPLINK_ALIGNED (R279, R422). -/
def execUplinkAligned (u : Uplink) (s : State) : Out :=
  s.runBoot (fun d => if d.uplIn u.val usAlign then d.uplGo u.val usRun else d)

/-- A training state times out (R279): DETECT after 1 s. -/
def Dev.uplTimeout (s : Dev) (u st limit : Nat) : Dev :=
  if s.uplIn u st then
    let a := (s.reach ((s.upl u).since + limit)).log 9 (uplInst u) 0
    a.modUpl u (fun r => { r with waitUntil := some (a.now + Config.secPs) })
  else s

/-- UPLINK_TRAIN_TIMEOUT (R279). -/
def execUplinkTrainTimeout (u : Uplink) (s : State) : Out := s.run (fun d => d.uplTimeout u.val usTrain (500 * Config.msPs))

/-- UPLINK_ALIGN_TIMEOUT (R279). -/
def execUplinkAlignTimeout (u : Uplink) (s : State) : Out := s.run (fun d => d.uplTimeout u.val usAlign (50 * Config.msPs))

/-- The wait after a timeout ends (R279). -/
def Dev.uplRedetect (s : Dev) (u : Nat) : Dev :=
  match (s.upl u).waitUntil with
  | none => s
  | some t => ((s.reach t).setF Reg.UPL_STATUS.lanes_ok 0 u).uplGo u usDetect

/-- UPLINK_REDETECT_WAIT_END (R279). -/
def execUplinkRedetectWaitEnd (u : Uplink) (s : State) : Out := s.run (fun d => d.uplRedetect u.val)

/-- An uplink starts over from DETECT: every pause is forgotten, with the frames that it held, and every channel loses its queue pair there
(R282, R286). -/
def Dev.uplRestart (s : Dev) (u : Nat) : Dev :=
  let a := ((s.setF Reg.UPL_STATUS.lanes_ok 0 u).setF Reg.UPL_STATUS.paused 0 u).uplGo u usDetect
  let b := a.modUpl u (fun r => { r with pausedAt := [], stuck := [], kmpHeld := [] })
  (b.chans.map (fun e => e.1)).foldl (fun d ch => d.loseQp ch u (some caLinkDown)) b

/-- An uplink leaves RUN (R279): an ALARM event and a drop. -/
def Dev.uplLeave (s : Dev) (u : Nat) : Dev :=
  if s.uplinkUp u then (s.countAnd Reg.UPL_STAT3.link_drops u 0 2 9 (uplInst u) 0 0 0).uplRestart u else s

/-- UPLINK_LEAVE_RUN (R279, R282, R283, R286). -/
def execUplinkLeaveRun (u : Uplink) (s : State) : Out := s.run (fun d => d.uplLeave u.val)

/-- The corrected and uncorrectable codewords of 1 ms (R279, R308): above fec_limit the uplink leaves RUN. -/
def Dev.fecWindow (s : Dev) (u n corrected : Nat) : Dev :=
  if s.uplinkUp u then
    let a := (s.bump Reg.UPL_STAT.fec_corrected u (n := corrected)).bump Reg.UPL_STAT.fec_uncorrectable u (n := n)
    if s.fld Reg.UPL_CTRL.fec_limit u < n then a.uplLeave u else a
  else s

/-- UPLINK_FEC_LIMIT (R279). -/
def execUplinkFecLimit (u : Uplink) (codewords : Nat) (s : State) (corrected : Nat := 0) : Out :=
  s.run (fun d => d.fecWindow u.val codewords corrected)

/-! ### Flow control and discarded frames (R277, R278, R280, R284) -/

/-- The KMP messages that a pause held back leave, in order (R280). -/
def Dev.kmpRelease (s : Dev) (u prio : Nat) : Dev :=
  if s.fld Reg.UPL_CTRL.kmp_prio u = prio then
    s.modUpl u (fun r => r.kmpHeld.foldl (fun x k => { x with kmpOut := some k.1, kmpHead := some k.2 }) { r with kmpHeld := [] })
  else s

/-- A PFC frame (R280): honoured for the priorities of pfc_rx_en. -/
def Dev.pfc (s : Dev) (u prio : Nat) (pause : Bool) : Dev :=
  if !s.uplinkUp u ∨ !(s.fld Reg.UPL_CTRL.pfc_rx_en u).testBit prio then s
  else
    let was := s.fld Reg.UPL_STATUS.paused u
    if pause then
      (s.setF Reg.UPL_STATUS.paused (was ||| 2 ^ prio) u).modUpl u (fun r =>
        if was.testBit prio then r else { r with pausedAt := Sparse.insert prio s.now r.pausedAt })
    else
      ((s.setF Reg.UPL_STATUS.paused (if was.testBit prio then was - 2 ^ prio else was) u).modUpl u (fun r =>
        { r with pausedAt := Sparse.erase prio r.pausedAt, stuck := r.stuck.filter (fun p => p != prio) })).kmpRelease u prio

/-- PFC_FRAME (R280). -/
def execPfcFrame (u : Uplink) (prio : Fin 8) (pause : Bool) (s : State) : Out := s.run (fun d => d.pfc u.val prio.val pause)

/-- A priority has been paused for pfc_watchdog ms (R280): once per episode. -/
def Dev.pfcStuck (s : Dev) (u prio : Nat) : Dev :=
  match Sparse.find prio (s.upl u).pausedAt with
  | none => s
  | some t =>
    if (s.upl u).stuck.contains prio then s
    else
      let a := s.reach (t + s.fld Reg.UPL_CTRL.pfc_watchdog u * Config.msPs)
      (a.modUpl u (fun r => { r with stuck := r.stuck ++ [prio] })).countAnd Reg.UPL_STAT3.pfc_stuck u 0 2 9 (uplInst u) 0 1 0

/-- PFC_WATCHDOG (R280). -/
def execPfcWatchdog (u : Uplink) (prio : Fin 8) (s : State) : Out := s.run (fun d => d.pfcStuck u.val prio.val)

/-- A counter of an uplink whose frames flow. -/
def Dev.uplCount (s : Dev) (u : Nat) (f : Reg.Fld) : Dev := if s.uplinkUp u then s.bump f u else s

/-- PAUSE_FRAME (R277). -/
def execPauseFrame (u : Uplink) (s : State) : Out := s.run (fun d => d.uplCount u.val Reg.UPL_STAT3.pause_ignored)

/-- FRAME_DISCARD (R277, R278, R284). -/
def execFrameDiscard (u : Uplink) (s : State) : Out := s.run (fun d => d.uplCount u.val Reg.UPL_STAT2.rx_discard)

/-! ### Address resolution (R277) -/

/-- An uplink answers for its own address. -/
def Dev.answerAddress (s : Dev) (u own target : Nat) (r : AddrReply) : Dev :=
  if s.uplinkUp u && own != 0 && target == own then s.modUpl u (fun x => { x with reply := some r }) else s

/-- ARP_REQUEST (R277). -/
def execArpRequest (u : Uplink) (target : BitVec 32) (senderMac : BitVec 48) (senderIp : BitVec 32) (s : State) : Out :=
  s.run (fun d => d.answerAddress u.val (d.fld Reg.UPL_IPV4.ipv4 u.val) target.toNat
    ⟨false, target.toNat, d.fld Reg.UPL_ADDR.mac u.val, senderMac.toNat, senderIp.toNat⟩)

/-- NEIGHBOUR_SOLICITATION (R277). -/
def execNeighbourSolicitation (u : Uplink) (target : BitVec 128) (senderMac : BitVec 48) (senderIp : BitVec 128) (s : State) : Out :=
  s.run (fun d => d.answerAddress u.val (d.fld Reg.UPL_IPV6_HI.ipv6 u.val * 2 ^ 64 + d.fld Reg.UPL_IPV6_LO.ipv6 u.val) target.toNat
    ⟨true, target.toNat, d.fld Reg.UPL_ADDR.mac u.val, senderMac.toNat, senderIp.toNat⟩)

end Sys2Proof.Machine
end

