-- ==== Sys2Proof/Machine/Commit.lean ====
section
/-! DEFINITION. What a change of the configuration does: image commits (R266–R269, R272–R275), and the same consequences of a
host's write of RWL fields before the first commit (R10). -/

namespace Sys2Proof.Machine

/-! ### Words of the configuration -/

/-- The bits of a field. -/
def fieldMask (f : Reg.Fld) : Nat := (2 ^ f.width - 1) <<< f.lo

/-- The bits of some fields of a register. -/
def maskOf (fs : List Reg.Fld) : Nat := fs.foldl (fun m f => m ||| fieldMask f) 0

/-- The RWL bits of a word. -/
def rwlMask (a : Nat) : Nat :=
  match Reg.findReg a with
  | none => 0
  | some h => maskOf (h.reg.fields.filter (fun f => f.acc == .rwl))

/-- The start-only fields of R268 that are register fields. -/
def startOnly : List Reg.Fld :=
  [Reg.SPORT_CTRL.phy, Reg.SPORT_CTRL.lanes, Reg.SPORT_CTRL.rate, Reg.MARN_CTRL.source, Reg.MARN_CTRL.primary, Reg.MARN_CTRL.reverse,
   Reg.MARN_CTRL.anchor, Reg.MARN_PITCH.pitch, Reg.FLK_CTRL.rate_max, Reg.FLK_CTRL.rate_min]

/-- The start-only bits of a word. -/
def startMask (a : Nat) : Nat :=
  match Reg.findReg a with
  | none => 0
  | some h => maskOf (h.reg.fields.filter (fun f => startOnly.contains f))

/-- A word with the bits of a mask taken from another. -/
def mergeWord (m : Nat) (old new : Word) : Word := (old &&& ~~~ (BitVec.ofNat 64 m)) ||| (new &&& BitVec.ofNat 64 m)

/-- A word in front of a register file, unless it is the reset word. -/
def consWord (a : Nat) (w : Word) (rest : RegFile) : RegFile := if w = Reg.resetWord a then rest else (a, w) :: rest

/-- Two register files joined word by word; a word that one of them does not list stands there at its reset value. -/
def mergeFiles (f : Nat → Word → Word → Word) : Nat → RegFile → RegFile → RegFile
  | 0, _, _ => []
  | _ + 1, [], [] => []
  | n + 1, (a, x) :: xs, [] => consWord a (f a x (Reg.resetWord a)) (mergeFiles f n xs [])
  | n + 1, [], (b, y) :: ys => consWord b (f b (Reg.resetWord b) y) (mergeFiles f n [] ys)
  | n + 1, (a, x) :: xs, (b, y) :: ys =>
    if a < b then consWord a (f a x (Reg.resetWord a)) (mergeFiles f n xs ((b, y) :: ys))
    else if b < a then consWord b (f b (Reg.resetWord b) y) (mergeFiles f n ((a, x) :: xs) ys)
    else consWord a (f a x y) (mergeFiles f n xs ys)

/-- Two register files joined. -/
def joinFiles (f : Nat → Word → Word → Word) (xs ys : RegFile) : RegFile := mergeFiles f (xs.length + ys.length + 1) xs ys

/-- Is a key a word of an active bank? -/
def isActiveBank (a : Nat) : Bool := decide (2 ^ 40 ≤ a) && decide (a < 17 * 2 ^ 40)

/-- The words of a register file that an image defines (R266): RWL fields and active banks. -/
def configWords (r : RegFile) : RegFile :=
  r.filterMap (fun aw =>
    if isActiveBank aw.1 then some aw
    else
      let w := mergeWord (rwlMask aw.1) (Reg.resetWord aw.1) aw.2
      if 2 ^ 40 ≤ aw.1 ∨ w = Reg.resetWord aw.1 then none else some (aw.1, w))

/-! ### Who is enabled, and owners (R348) -/

/-- The instances of a register whose enable field is set. -/
def enabledIn (r : RegFile) (d : Reg.RegDef) (f : Reg.Fld) : List Nat :=
  r.filterMap (fun aw => if fieldOf f aw.2 = 1 then (d.locate aw.1).map (fun h => h.i) else none)

/-- The kinds of unit that keep a working set up to a pilcrow (R272): kind of R475, first instance, instances apart, register, enable. -/
def unitKinds : List (Nat × Nat × Nat × Reg.RegDef × Reg.Fld) :=
  [(0, 0x8000, 1, Reg.QFAB_CONJ_CFG, Reg.QFAB_CONJ_CFG.enable), (1, 0, 1, Reg.SPORT_CTRL, Reg.SPORT_CTRL.enable),
   (3, 0, 1, Reg.TILE_CTRL, Reg.TILE_CTRL.enable), (4, 0, 1, Reg.KAL_CTRL, Reg.KAL_CTRL.enable),
   (5, 0, 4, Reg.PGR_CTRL, Reg.PGR_CTRL.enable), (6, 0, 1, Reg.JIG_CTRL, Reg.JIG_CTRL.enable),
   (6, 0x8000, 1, Reg.JIG_COL_CFG, Reg.JIG_COL_CFG.enable), (7, 0, 1, Reg.ABA_CTRL, Reg.ABA_CTRL.enable)]

/-- The enabled units of a configuration: kind and instance. -/
def unitsIn (r : RegFile) : List (Nat × Nat) :=
  unitKinds.flatMap (fun k => (enabledIn r k.2.2.2.1 k.2.2.2.2).map (fun i => (k.1, k.2.1 + k.2.2.1 * i)))

/-- The owner of a port in a configuration (R348). -/
def RegFile.portOwner (r : RegFile) (n : Nat) : Nat :=
  ((List.range 16).find? (fun p => (r.fld Reg.PART_PORTS.ports p).testBit n)).getD 0

/-- The owner of a unit in a configuration (R348). -/
def RegFile.unitOwner (r : RegFile) (kind inst : Nat) : Nat :=
  if kind = 0 then r.fld Reg.QFAB_CONJ_CFG.owner (inst % 0x8000)
  else if kind = 1 then r.portOwner inst
  else if kind = 3 then r.fld Reg.TILE_CTRL2.owner inst
  else if kind = 4 then r.fld Reg.KAL_CTRL.owner inst
  else if kind = 5 then r.fld Reg.PGR_CTRL.owner (inst / 4)
  else if kind = 6 then r.fld Reg.JIG_CTRL.owner (inst % 0x8000)
  else r.fld Reg.ABA_CTRL.owner inst

/-- The partition that a configuration assigns the resource of a word to; none for words of the whole device. -/
def RegFile.wordOwner (r : RegFile) (a : Nat) : Option Nat :=
  match Reg.findReg a with
  | none => none
  | some h =>
    match Reg.windowOf (a % 2 ^ 40) with
    | .wQD => some (r.fld Reg.QD_BASE.owner h.i)
    | .wQFAB => if h.reg.base < Reg.QFAB_CONJ_CFG.base then none else some (r.fld Reg.QFAB_CONJ_CFG.owner h.i)
    | .wSPORT => some (r.portOwner h.i)
    | .wTILE => if 256 ≤ h.i then none else some (r.fld Reg.TILE_CTRL2.owner h.i)
    | .wKAL => some (r.fld Reg.KAL_CTRL.owner h.i)
    | .wPGR => some (r.fld Reg.PGR_CTRL.owner h.i)
    | .wJIG => some (r.fld Reg.JIG_CTRL.owner h.i)
    | .wABA => some (r.fld Reg.ABA_CTRL.owner h.i)
    | .wCHK => some (r.fld Reg.CHK_CFG.owner h.i)
    | .wDMA => some (r.fld Reg.DMA_CH_CFG.owner h.i)
    | .wUPL => if Reg.UPL_FLOW_A.base ≤ h.reg.base ∧ h.reg.base < Reg.UPL_KMP.base then some (r.fld Reg.UPL_FLOW_A.owner h.i) else none
    | _ => none

/-- The owner of the resource of a word that a host's access reaches (R348, R350): with trigger output TRGn that of its port, and P0's units. -/
def RegFile.hostOwner (r : RegFile) (a : Nat) : Option Nat :=
  match Reg.windowOf (a % 2 ^ 40) with
  | .wMARN => (Reg.findReg a).map (fun h => if h.reg = Reg.MARN_HEAD ∨ h.reg = Reg.MARN_HEAD_MID then r.portOwner h.i else 0)
  | .wTIME | .wFLK | .wCLK | .wCAL => some 0
  | .wUPL => some ((r.wordOwner a).getD 0)
  | _ => r.wordOwner a

/-- The fields that name an owner. -/
def ownerFlds : List Reg.Fld :=
  [Reg.QD_BASE.owner, Reg.QFAB_CONJ_CFG.owner, Reg.TILE_CTRL2.owner, Reg.KAL_CTRL.owner, Reg.PGR_CTRL.owner, Reg.JIG_CTRL.owner,
   Reg.ABA_CTRL.owner, Reg.CHK_CFG.owner, Reg.DMA_CH_CFG.owner, Reg.UPL_FLOW_A.owner]

/-- The owner bits of a word. -/
def ownerMask (a : Nat) : Nat :=
  match Reg.findReg a with
  | none => 0
  | some h => maskOf (h.reg.fields.filter (fun f => ownerFlds.contains f))

/-- The unit whose active bank a key belongs to: kind and instance. -/
def bankUnit (a : Nat) : Option (Nat × Nat) :=
  (Reg.findReg a).map (fun h => if a % 2 ^ 40 < Reg.KAL_CTRL.base then (3, h.i) else if a % 2 ^ 40 < Reg.PGR_CTRL.base then (4, h.i)
    else (5, 4 * h.i))

/-- The enabled queues and table regions of a configuration. -/
def queuesIn (r : RegFile) : List Nat := enabledIn r Reg.QD_BASE Reg.QD_BASE.enable

/-! ### Consequences of a changed configuration -/

/-- Queue memory and stored errors without the slots of a queue or region. -/
def Dev.clearSlots (s : Dev) (q : Nat) : Dev :=
  let lo := s.fld Reg.QD_BASE.base q * 64
  let hi := lo + s.qSize q
  { s with mem := s.mem.filter (fun c => decide (c.1 < slotKey lo 0) || decide (slotKey hi 0 ≤ c.1))
           slotErrs := s.slotErrs.filter (fun e => decide (e.1 < lo) || decide (hi ≤ e.1)) }

/-- A queue starts anew, or a queue has become a region, or a region a queue (R54, R67): pointers 0, nothing held. -/
def Dev.zeroQueue (s : Dev) (q : Nat) : Dev :=
  let a := ((((((s.colonsGone q (fun _ => true)).setF Reg.QD_PROD.write_ptr 0 q).setF Reg.QD_PROD.commit_ptr 0 q).setF Reg.QD_CONS.read_ptr 0 q).setF
    Reg.QD_CONS.mark_ptr 0 q).setF Reg.QD_FILL.release_ptr 0 q).setF Reg.QD_FILL.paced_high 0 q
  a.setQueue q QRec.init

/-- A queue or region comes into use (R54, R266); a region's slots read zero. -/
def Dev.freshQueue (s : Dev) (q : Nat) : Dev :=
  let b := s.zeroQueue q
  if b.flag Reg.QD_BASE.table q then b.clearSlots q else b

/-- QFAB_USED (R74). -/
def Dev.countSlots (s : Dev) : Dev :=
  let qs := queuesIn s.regs
  (List.range 16).foldl (fun d p =>
    d.setF Reg.QFAB_USED.used ((qs.map (fun q => if s.queueOwner q = p then s.qSize q else 0)).sum) p) s

/-- PART_KEY_ID (R351). -/
def Dev.keyId (s : Dev) (p : Nat) : Dev :=
  let key := (List.range 4).flatMap (fun w => leBytes 8 (s.fld Reg.PART_KEY.key p w))
  let isSet := key.any (fun b => b != 0)
  (s.setF Reg.PART_KEY_ID.key_id (if isSet then ofBeBytes ((sha256 key).drop 28) else 0) p).setF Reg.PART_KEY_ID.key_set
    (if isSet then 1 else 0) p

/-- The key words of a partition. -/
def RegFile.keyWords (r : RegFile) (p : Nat) : List Nat := (List.range 4).map (fun w => r.fld Reg.PART_KEY.key p w)

/-- The first record of a partition's completion queue in a session (R374). -/
def Dev.sessionRecord (s : Dev) (p : Nat) : Dev :=
  if s.flag Reg.PART_CTRL.enable p && s.flag Reg.PART_CQ.cq_enable p && (s.part p).sessionDue then
    (s.setPart p { s.part p with sessionDue := false }).complete p
      ⟨none, cr0Of 5 stAborted caSession false false 0 0 (s.fld Reg.PART_SESSION.session), 0, 0, 0⟩
  else s

/-- The links whose enable bit has changed train, or stop (R279, R318). -/
def Dev.linksChanged (s : Dev) (old : Dev) : Dev :=
  let a := [0, 1].foldl (fun d u =>
    if old.flag Reg.UPL_CTRL.enable u && !s.flag Reg.UPL_CTRL.enable u then
      if d.uplinkUp u then d.uplLeave u else d.uplRestart u else d) s
  [0, 1].foldl (fun d l =>
    if s.flag Reg.TMB_REPEATER.active || old.flkOn l == s.flkOn l then d
    else if s.flkOn l then d.flkStart l else (d.flkLeave l).flkStart l) a

/-- Islands of the groups whose frequency has changed move to it, one at a time (R408). -/
def Dev.freqChanged (s : Dev) (old : Dev) : Dev :=
  let gs := (List.range 9).filter (fun g => old.fld Reg.CLK_FREQ.freq g != s.fld Reg.CLK_FREQ.freq g)
  let a := { s with start := { s.start with moving := s.start.moving ++ gs.flatMap groupIslands } }
  if s.start.moving.isEmpty then a.moveNext else a

/-- Streams and outputs that come into use begin at a grid index, with so many boundaries behind them (R134, R272). -/
def Dev.beginNew (s : Dev) (old : Dev) (idx done : Nat) : Dev :=
  let a := (enabledIn s.regs Reg.MARN_HEAD Reg.MARN_HEAD.enable).foldl (fun d h =>
    if old.flag Reg.MARN_HEAD.enable h then d else d.setHead h { d.head h with next := idx }) s
  let b := (enabledIn s.regs Reg.MARN_STB Reg.MARN_STB.enable).foldl (fun d t =>
    if old.flag Reg.MARN_STB.enable t then d else d.setStrobe t { d.strobe t with next := idx }) a
  (enabledIn s.regs Reg.SPORT_CTRL Reg.SPORT_CTRL.enable).foldl (fun d n =>
    (List.range 4).foldl (fun d st =>
      if s.flag Reg.SPORT_STREAM_A.enable n st && !(old.flag Reg.SPORT_CTRL.enable n && old.flag Reg.SPORT_STREAM_A.enable n st)
      then d.setStream (4 * n + st) { d.stream (4 * n + st) with boundsDone := done } else d) d) b

/-- Channels that the new configuration disables (R272, R307): their descriptor queue or partition is no longer in use. -/
def Dev.channelsChanged (s : Dev) : Dev :=
  (enabledIn s.regs Reg.DMA_CH_CTRL Reg.DMA_CH_CTRL.enable).foldl (fun d ch =>
    if s.flag Reg.PART_CTRL.enable (s.fld Reg.DMA_CH_CFG.owner ch) && s.qLive (s.fld Reg.DMA_CH_CFG.desc_q ch)
      && !s.img.retiring.contains (s.fld Reg.DMA_CH_CFG.desc_q ch)
    then d else d.chDisable ch caDisabled) s

/-- Is an encoder in use? -/
def Dev.encOn (s : Dev) (e : Nat) : Bool := s.flag Reg.MARN_ENC.enable e

/-- A count with the sense of travel (R113). -/
def Dev.sense (s : Dev) (c : Int) : Int := if s.flag Reg.MARN_CTRL.reverse then -c else c

/-- The cross-check compares these encoders, primary and secondary (R116): none where it is off. -/
def Dev.crossPair (s : Dev) : Option (Nat × Nat) :=
  if s.flag Reg.MARN_XCHK.enable && s.encOn (s.fld Reg.MARN_CTRL.primary) && s.encOn (s.fld Reg.MARN_XCHK.secondary) then
    some (s.fld Reg.MARN_CTRL.primary, s.fld Reg.MARN_XCHK.secondary) else none

/-- Both references of the cross-check start at the present counts (R116). -/
def Dev.crossStart (s : Dev) : Dev :=
  { s with marn := { s.marn with
    xRefP := s.sense (s.enc (s.fld Reg.MARN_CTRL.primary)).count, xRefS := s.sense (s.enc (s.fld Reg.MARN_XCHK.secondary)).count } }

/-- Encoders that come into use measure their stall timeout and their windows from now (R114), and a cross-check that comes into use its
first span (R116). DESIGN CHOICE (log entry 121): an encoder decodes on from the levels of A and B that it last accepted. -/
def Dev.encodersChanged (s : Dev) (old : Dev) : Dev :=
  let a := (List.range 4).foldl (fun d e =>
    if s.encOn e && !old.encOn e then
      d.setEnc e { d.enc e with stallFrom := s.now, winAt := s.now, winCount := (d.enc e).count, winPrev := none, edgesA := 0, edgesB := 0 } else d) s
  if s.crossPair.isSome && s.crossPair != old.crossPair then a.crossStart else a

/-- The running indication of running_src (R114, R137). -/
def Dev.runningLevel (s : Dev) : Bool :=
  let src := s.fld Reg.MARN_CTRL.running_src
  if src = 1 then s.marn.synA else if src = 2 then s.marn.synB else if src = 3 then s.flag Reg.MARN_CTRL.running else false

/-- The active encoder (R116). -/
def Dev.activeEnc (s : Dev) : Nat := if s.marn.secondary then s.fld Reg.MARN_XCHK.secondary else s.fld Reg.MARN_CTRL.primary

/-- The active encoder and the failed flags of both encoders as MARN_STATUS shows them (R115, R137). -/
def Dev.encShown (s : Dev) : Dev :=
  ((s.setF Reg.MARN_STATUS.active_enc s.activeEnc).setF Reg.MARN_STATUS.primary_failed (if (s.enc (s.fld Reg.MARN_CTRL.primary)).failed then 1 else 0)).setF
    Reg.MARN_STATUS.secondary_failed (if (s.enc (s.fld Reg.MARN_XCHK.secondary)).failed then 1 else 0)

/-- The instant of the indication's assertion follows its level. -/
def Dev.runningSync (s : Dev) : Dev :=
  { s with marn := { s.marn with runningAt := if s.runningLevel then some (s.marn.runningAt.getD s.now) else none } }

/-- What follows from the change of the configuration from that of `old`. -/
def Dev.configChanged (s : Dev) (old : Dev) (idx done : Nat) : Dev :=
  let fresh := (queuesIn s.regs).filter (fun q =>
    !s.img.retiring.contains q && (!old.flag Reg.QD_BASE.enable q || old.img.retiring.contains q))
  let turned := (queuesIn s.regs).filter (fun q => !fresh.contains q && old.flag Reg.QD_BASE.table q != s.flag Reg.QD_BASE.table q)
  let a := (turned.foldl (fun d q => d.zeroQueue q) (fresh.foldl (fun d q => d.freshQueue q) s)).countSlots
  let b := (List.range 16).foldl (fun d p => if old.regs.keyWords p = s.regs.keyWords p then d else d.keyId p) a
  let c := (((b.linksChanged old).freqChanged old).encodersChanged old).encShown.runningSync.beginNew old idx done
  let d := (List.range 62).foldl (fun d x => if s.calEnabled x && !old.calEnabled x then d.calStart x else d) c
  (List.range 16).foldl (fun d p => d.sessionRecord p) d

/-! ### Commits (R272–R274) -/

/-- Has an image been committed since the cold reset? -/
def Dev.committed (s : Dev) : Bool := s.flag Reg.IMG_STATUS.committed

/-- The configuration committed last, or as the host has written it before the first commit. -/
def Dev.liveConfig (s : Dev) : RegFile := (s.img.copies.headD .init).active

/-- What a staged image makes of the configuration (R266, R267): a partition image changes its partition's words only. -/
def Dev.stagedFile (s : Dev) (c : Staged) : RegFile :=
  match c.part with
  | none => c.cfg
  | some p => joinFiles (fun a live w => if c.cfg.wordOwner a = some p ∧ s.liveConfig.wordOwner a = some p then w else live) s.liveConfig c.cfg

/-- The whole configuration after the commit of a staged image (R266, R268): start-only fields stay after the first commit. -/
def Dev.committedFile (s : Dev) (c : Staged) : RegFile :=
  joinFiles (fun a old new =>
    if isActiveBank a then new
    else if 2 ^ 40 ≤ a then old
    else mergeWord (rwlMask a - (if s.committed then startMask a else 0)) old new) s.regs (s.stagedFile c)

/-- Does the commit change what a unit of this owner runs on (R267)? -/
def Staged.reaches (c : Staged) (owner : Nat) : Bool := c.part.isNone || c.part == some owner

/-- The units that keep their working set at a commit (R272): those in use, and channels amid a descriptor. -/
def Dev.keepers (s : Dev) (c : Staged) : List Nat :=
  ((unitsIn s.regs).filter (fun k => c.reaches (s.regs.unitOwner k.1 k.2))).map (fun k => unitKey k.1 k.2) ++
    (s.chans.filter (fun e => e.2.openRun.isSome && c.reaches (s.fld Reg.DMA_CH_CFG.owner e.1))).map (fun e => unitKey 9 e.1)

/-- The queues that the new configuration disables and that are still in use (R272). -/
def Dev.retiringWith (s : Dev) (new : RegFile) : List Nat := (queuesIn s.regs).filter (fun q => !new.flag Reg.QD_BASE.enable q)

/-- The words in force in the fc of the commit: units that keep their working set keep their banks, and queues that retire stay. -/
def Dev.wordsInForce (s : Dev) (c : Staged) (new : RegFile) : RegFile :=
  let retiring := s.retiringWith new
  joinFiles (fun a old w =>
    if isActiveBank a then
      match bankUnit a with
      | none => w
      | some k => if (Sparse.find (unitKey k.1 k.2) s.workSets).isSome || !c.reaches (s.regs.unitOwner k.1 k.2) then old else w
    else if [Reg.QD_BASE, Reg.QD_FILL].any (fun d => ((d.locate a).map (fun h => retiring.contains h.i)).getD false) then old
    else w) s.regs new

/-- The generation of a commit (R274). -/
def Dev.nextGeneration (s : Dev) : Nat := ((s.img.copies.map (fun c => c.generation)).foldl max 0 + 1) % 2 ^ 32

/-- Configurations that some unit has still to switch to. -/
def Dev.trimMade (s : Dev) : Dev :=
  { s with img := { s.img with made := s.img.made.filter (fun e => s.workSets.any (fun w => w.2.1 < e.1)) } }

/-- The three copies take the new configuration (R272). -/
def Dev.writeCopies (s : Dev) (words : RegFile) (g : Nat) : Dev :=
  let a := { s with img := { s.img with copies := s.img.copies.map (fun c => ⟨words, c.active, g, 1 - c.half, true⟩) } }
  (List.range 3).foldl (fun d c =>
    ((d.setF Reg.IMG_COPY.generation g c).setF Reg.IMG_COPY.intact 1 c).setF Reg.IMG_COPY.half
      ((a.img.copies.getD c .init).half) c) a

/-- The commit record (R274, R276). -/
def Dev.commitRecord (s : Dev) (c : Staged) (b : Option (Nat × Nat)) (words : RegFile) (g : Nat) : Dev :=
  let put := fun (d : Dev) (e : Reg.Fld × Nat) => d.setF e.1 e.2
  [(Reg.IMG_COMMIT_REC.generation, g), (Reg.IMG_COMMIT_REC.crc, (Config.configCrc words).toNat),
   (Reg.IMG_COMMIT_REC2.boundary, (b.map (fun x => x.1)).getD 0), (Reg.IMG_COMMIT_REC2.late, if s.img.late then 1 else 0),
   (Reg.IMG_COMMIT_REC2.idle, if b.isNone then 1 else 0), (Reg.IMG_COMMIT_REC2.partition, if c.part.isSome then 1 else 0),
   (Reg.IMG_COMMIT_REC2.part, c.part.getD 0), (Reg.IMG_COMMIT_REC3.block_number, (b.map (fun x => x.2)).getD 0),
   (Reg.IMG_COMMIT_REC3.image_generation, c.generation), (Reg.IMG_STATUS.state, 0), (Reg.IMG_STATUS.result, 0),
   (Reg.IMG_STATUS.committed, 1), (Reg.IMG_LOAD.received, 0), (Reg.IMG_LOAD.staged_generation, 0),
   (Reg.IMG_LOAD.staged_partition, 0), (Reg.IMG_LOAD.staged_is_partition, 0)].foldl put s

/-- Nothing is staged any more. -/
def Dev.clearStaged (s : Dev) : Dev :=
  { s with img := { s.img with boundary := none, staged := none, buffer := [], tagged := false, awaiting := none, late := false, called := none } }

/-- A stopped partition restarts (R372): its ports write from a block on. -/
def Dev.restartPart (s : Dev) (p : Nat) (block : Option Nat) : Dev :=
  let a := (s.setF Reg.PART_CTRL.state psRun p).setPart p { s.part p with restartAt := block, cause := 0 }
  let done := (a.marn.bounds.filter (fun b => b.epoch.isSome)).length
  (List.range 32).foldl (fun d n =>
    if a.portOwner n = p then (List.range 4).foldl (fun d st =>
      d.setStream (4 * n + st) { d.stream (4 * n + st) with boundsDone := done, opened := false }) d else d) a

/-- At the first commit the links whose start-only fields differ from those in force train again, with a LOG event (R268, R419). -/
def Dev.retrain (s : Dev) (old : Dev) (c : Staged) : Dev :=
  let a := { s with img := { s.img with upMode := c.upMode, upRate := c.upRate } }
  let b := if old.img.upMode = c.upMode ∧ old.img.upRate = c.upRate then a
    else [0, 1].foldl (fun d u => if a.flag Reg.UPL_CTRL.enable u then
        (if d.uplinkUp u then d.uplLeave u else d.uplRestart u).logAt Reg.UPL_STATUS.state u 0 9 (uplInst u) 0 else d) a
  [0, 1].foldl (fun d l =>
    if old.fld Reg.FLK_CTRL.rate_max l = a.fld Reg.FLK_CTRL.rate_max l ∧ old.fld Reg.FLK_CTRL.rate_min l = a.fld Reg.FLK_CTRL.rate_min l
    then d
    else if a.flkOn l && old.flkOn l && !a.flag Reg.TMB_REPEATER.active then
      (if d.flkUp l then d.flkLeave l else d.flkStart l).logAt Reg.FLK_STATUS.state l 0 10 l 0
    else d) b

/-- What a commit announces to its partitions, and the partitions that it restarts (R353, R372). -/
def Dev.afterCommit (s : Dev) (c : Staged) (b : Option (Nat × Nat)) : Dev :=
  let a := (List.range 16).foldl (fun d p =>
    if d.flag Reg.PART_CTRL.enable p && c.reaches p then d.notice p 5 0 else d) s
  let e := (List.range 16).foldl (fun d p =>
    if d.fld Reg.PART_CTRL.state p = psStopped then d.restartPart p (b.map (fun x => (x.2 + 1) % 2 ^ 32)) else d) a
  if e.bootState = bsImage then (e.setF Reg.CLK_BOOT.img_kmp 1).bootCheck 0 else e

/-- The armed commit of a unit that keeps no working set ends cancelled (R167, R272). -/
def Dev.cancelArm (s : Dev) (key : Nat) : Dev :=
  match winOf (key / 65536) with
  | none => s
  | some w => s.cancelBank w (key % 65536 / w.per)

/-- The commit of the staged image at a boundary (grid index, block), or an idle commit (R272, R273). -/
def Dev.commitNow (s : Dev) (b : Option (Nat × Nat)) : Dev :=
  match s.img.staged with
  | none => s
  | some c =>
    let g := s.nextGeneration
    let new := s.committedFile c
    let kept := (s.keepers c).foldl (fun ws k =>
      if (Sparse.find k ws).isSome then ws else Sparse.insert k ((g + 2 ^ 32 - 1) % 2 ^ 32, s.regs) ws) s.workSets
    let held : Dev := { s with workSets := kept }
    let z : Dev := { held with
      regs := held.wordsInForce c new
      img := { s.img with
        fresh := true
        before := b.map (fun x => (x.1, s.regs))
        retiring := s.retiringWith new
        made := (g, (b.map (fun x => x.2)).getD 0, new) :: s.img.made
        rollback := if c.part.isNone then some c.rollback else s.img.rollback
        tuned := s.img.tuned.filter (fun k => (Sparse.find k.1 kept).isSome || !c.reaches (s.regs.unitOwner (k.1 / 65536) (k.1 % 65536))) } }
    let a := (held.arms.filter (fun e => (Sparse.find e.1 kept).isNone && c.reaches (s.regs.unitOwner (e.1 / 65536) (e.1 % 65536)))).foldl
      (fun d e => d.cancelArm e.1) z
    let reached := (s.marn.bounds.filter (fun x => x.epoch.isSome)).length
    let e := ((a.trimMade).configChanged s ((b.map (fun x => x.1)).getD ((s.gridIndex + 1) % 2 ^ 48))
      (if b.isSome then reached - 1 else reached)).channelsChanged
    let f := c.tables.foldl (fun d t => d.writeSlot t.1 (t.2, 0)) e
    let h := if s.committed then f else f.retrain s c
    let words := configWords new
    let i := (((h.writeCopies words g).commitRecord c b words g).bump Reg.IMG_STAT.commits).clearStaged
    let j := match c.part with
      | none => i.setF Reg.IMG_STATUS.frozen 0
      | some p => (i.setF Reg.IMG_PART_GEN.image_generation c.generation p).setF Reg.IMG_PART_GEN.valid 1 p
    j.afterCommit c b

/-- The boundary at which others commit passes while this device waits for an announcement (R272): MISSED. -/
def Dev.missCommit (s : Dev) : Dev :=
  ((s.setF Reg.IMG_STATUS.state (if s.img.staged.isSome then 3 else 0)).setF Reg.IMG_STATUS.result 18).alarmAt
    Reg.IMG_STATUS.result 0 0 8 2 0 0 |> fun d =>
    { d with img := { d.img with awaiting := none, boundary := none, called := none } }

/-- Does the commit at the boundary of a block pass this device by (R272)? The announcement that named it said whether the device takes
part; where none came, a device that has sent its ready message still does. -/
def Dev.missesAt (s : Dev) (block : Nat) : Bool :=
  match s.img.called with
  | some (k, mine) => if k = block then mine else s.img.awaiting.isSome
  | none => s.img.awaiting.isSome

/-- A boundary is reached (R270–R272): the commit named for it takes place, or has been missed; the root's request ends. -/
def Dev.commitAt (s : Dev) (b : Bound) : Dev :=
  let a := if (s.img.boundary.map (fun x => x.2)) = some b.block then s.commitNow (some (b.index, b.block))
    else if b.cause = 3 ∧ s.missesAt b.block then s.missCommit else s
  if 3 ≤ b.cause ∧ s.img.request.isSome ∧ s.fld Reg.IMG_CHAIN_CFG.chain_status = 2 then
    { (a.setF Reg.IMG_CHAIN_CFG.chain_status 0) with img := { a.img with request := none, readies := [], late := false } }
  else a

/-! ### Queues that a commit disables (R272) -/

/-- Does a word of a configuration name a queue in a producer's or consumer's field? -/
def namesQueue (r : RegFile) (q : Nat) : Bool :=
  r.any (fun aw => (producerFlds ++ consumerFlds).any (fun rf => (rf.1.locate aw.1).isSome && fieldOf rf.2.1 aw.2 == q))
    || (enabledIn r Reg.QFAB_CONJ_CFG Reg.QFAB_CONJ_CFG.enable).any (fun c =>
      r.fld Reg.QFAB_CONJ_CFG.out_q c == q || (conjInputs r c).contains q)

/-- Does a unit that has not switched use a queue? -/
def Dev.stillUsed (s : Dev) (q : Nat) : Bool :=
  s.workSets.any (fun w => namesQueue w.2.2 q) || s.chans.any (fun e => e.2.srcQ == some q)

/-- Does a queue hold a committed end of block that has not been released? -/
def Dev.blockEndHeld (s : Dev) (q : Nat) : Bool :=
  (List.range (s.ptrDiff q (s.cp q) (s.lp q))).any (fun i => codeOf (s.slotCell (s.slotAt q (s.lp q + i))).2 == cStop)

/-- A queue that a commit disabled is retired (R272): its words become those of the configuration. -/
def Dev.retireQueue (s : Dev) (q : Nat) : Dev :=
  if !s.img.retiring.contains q ∨ s.stillUsed q ∨ s.blockEndHeld q then s
  else
    let cfg := (s.img.copies.headD .init).active
    let put := fun (d : Dev) (r : Reg.Fld) =>
      { d with regs := d.regs.setWord (r.addr q 0 0) (mergeWord (rwlMask (r.addr q 0 0)) (d.regs.word (r.addr q 0 0)) (cfg.word (r.addr q 0 0))) }
    let a := put (put s Reg.QD_BASE.base) Reg.QD_FILL.low_mark
    (({ a with img := { a.img with retiring := a.img.retiring.filter (fun x => x != q) } }).setQueue q QRec.init).countSlots

/-- QUEUE_DISABLE_SWITCH (R272). -/
def execQueueDisableSwitch (q : QId) (s : State) : Out := s.run (fun d => d.retireQueue q.val)

end Sys2Proof.Machine
end

