-- ==== Sys2Proof/Machine/KmpCore.lean ====
section
/-! DEFINITION. KMP messages as the device makes and checks them: the header (R291), keys and tags (R293, R351), sequence numbers (R294). -/

namespace Sys2Proof.Machine

/-- Opcodes (R292). -/
def koHello : Nat := 0x00
def koRead32 : Nat := 0x01
def koRead64 : Nat := 0x02
def koWrite32 : Nat := 0x03
def koWrite64 : Nat := 0x04
def koImage : Nat := 0x10
def koSync : Nat := 0x20
def koNotice : Nat := 0x30
def koNoticeAck : Nat := 0x31
def koTwin : Nat := 0x40
def koEvent : Nat := 0x50

/-- The KMP port (R291). -/
def kmpPort : Nat := 47232

/-- The 24 bytes of a message's header (R291). -/
def kmpHeader (m : KmpMsg) : List Byte :=
  [0x4D, 0x4B, 0x01, m.opcode, m.part, m.destination, m.source, m.flags] ++ leBytes 8 m.sequence.toNat ++ leBytes 2 m.length.toNat ++
    [m.status] ++ List.replicate 5 0

/-- The key of a partition (R351): that of the last commit that set one; for P0 until then the boot key. -/
def Dev.kmpKey (s : Dev) (p : Nat) : Option (List Byte) :=
  let key := (List.range 4).flatMap (fun w => leBytes 8 (s.fld Reg.PART_KEY.key p w))
  if decide (16 ≤ p) || !s.flag Reg.PART_CTRL.enable p then none
  else if key.any (fun b => b != 0) then some key
  else if p = 0 then s.boot.key.map (fun k => leBytes 32 k.toNat) else none

/-- The session nonce of a partition (R293): 8 bytes of the random source, drawn anew at each reset. -/
def Dev.kmpNonce (s : Dev) (p : Nat) : List Byte := leBytes 8 (Config.random (s.kmp.nonceBase + p)).toNat

/-- The tag of a message under a key (R293). -/
def Dev.kmpTag (s : Dev) (key : List Byte) (m : KmpMsg) : List Byte :=
  hmac256 key (s.kmpNonce m.part.toNat ++ kmpHeader m ++ m.payload)

/-- Is a message's tag right, under a key that its partition has? -/
def Dev.kmpAuthentic (s : Dev) (m : KmpMsg) : Bool :=
  decide (m.part.toNat < 16) && ((s.kmpKey m.part.toNat).map (fun k => s.kmpTag k m == m.tag)).getD false

/-- Bytes that the spec leaves open. -/
def Dev.drawBytes (s : Dev) : Nat → List Byte × Dev
  | 0 => ([], s)
  | n + 1 =>
    let x := s.drawFree 64
    let rest := x.2.drawBytes n
    (leBytes 8 x.1.toNat ++ rest.1, rest.2)

/-- A message with its tag; without a key of its partition the tag is open. -/
def Dev.kmpSign (s : Dev) (m : KmpMsg) : KmpMsg × Dev :=
  match s.kmpKey m.part.toNat with
  | some k => ({ m with tag := s.kmpTag k m }, s)
  | none =>
    let x := s.drawBytes 4
    ({ m with tag := x.1 }, x.2)

/-- A message leaves by an uplink, in a frame with these headers; while its priority is paused it waits (R280). -/
def Dev.kmpPut (s : Dev) (u : Nat) (m : KmpMsg) (h : FrameHead) : Dev :=
  if (s.fld Reg.UPL_STATUS.paused u).testBit (s.fld Reg.UPL_CTRL.kmp_prio u) then s.modUpl u (fun r => { r with kmpHeld := r.kmpHeld ++ [(m, h)] })
  else s.modUpl u (fun r => { r with kmpOut := some m, kmpHead := some h })

/-- A message of a flow leaves by an uplink (R278, R291), at the priority of KMP (R308). -/
def Dev.kmpFlow (s : Dev) (u flow : Nat) (m : KmpMsg) : Dev :=
  s.kmpPut u m (s.flowHead u flow (s.fld Reg.UPL_CTRL.kmp_prio u) 0 kmpPort m.peerPort.toNat)

/-- The enabled flow that sends to an address. -/
def Dev.flowTo (s : Dev) (ip : BitVec 128) : Option Nat :=
  (List.range 64).find? (fun f => s.flag Reg.UPL_FLOW_A.enable f && s.flowIp f == ip)

/-- A response leaves by an uplink (R291), to an address of the request's IP version: it belongs to the flow whose address the request came
from; where there is none, the spec names no destination MAC address and no DSCP for it: free values (log entry 107). -/
def Dev.kmpSend (s : Dev) (u : Nat) (m : KmpMsg) : Dev :=
  match s.flowTo m.peerIp with
  | some f => s.kmpFlow u f m
  | none =>
    let x := s.drawFree 72
    x.2.kmpPut u m (s.frameHead u (s.fld Reg.UPL_CTRL.kmp_prio u) (bits x.1 47 0) m.peerIp.toNat (2 ^ 32 ≤ m.peerIp.toNat) (bits x.1 53 48) 0
      kmpPort m.peerPort.toNat)

/-- The uplinks in RUN. -/
def Dev.liveUplinks (s : Dev) : List Nat := [0, 1].filter (fun u => s.uplinkUp u)

/-- A sequence number of a partition's window (R294): is it new? -/
def Dev.seqFresh (s : Dev) (p n : Nat) : Bool :=
  let h := (Sparse.find p s.kmp.high).getD 0
  decide (h < n) || (decide (h < n + 64) && !((Sparse.find p s.kmp.seen).getD 0).testBit (h - n))

/-- A sequence number is marked. -/
def Dev.seqMark (s : Dev) (p n : Nat) : Dev :=
  let h := (Sparse.find p s.kmp.high).getD 0
  let w := (Sparse.find p s.kmp.seen).getD 0
  let w1 := if h < n then (w * 2 ^ min 64 (n - h) + 1) % 2 ^ 64 else w ||| 2 ^ (h - n)
  { s with kmp := { s.kmp with high := Sparse.insert p (max h n) s.kmp.high, seen := Sparse.insert p w1 s.kmp.seen } }

/-- The next sequence number that the device itself uses for a partition (R294: from 1 in each session), taken. -/
def Dev.nextSeq (s : Dev) (p : Nat) : Nat × Dev :=
  let n := (Sparse.find p s.kmp.sent).getD 0 + 1
  (n, { s with kmp := { s.kmp with sent := Sparse.insert p n s.kmp.sent } })

/-- A message that the device originates under a partition's key, to a flow (R291, R294). -/
def Dev.kmpMake (s : Dev) (p op flow : Nat) (payload : List Byte) : KmpMsg × Dev :=
  let n := s.nextSeq p
  n.2.kmpSign
    { opcode := BitVec.ofNat 8 op, part := BitVec.ofNat 8 p, destination := 0xFF, source := BitVec.ofNat 8 s.chainAddr, flags := 0
      sequence := BitVec.ofNat 64 n.1, length := BitVec.ofNat 16 payload.length, status := 0, payload := payload, tag := []
      peerIp := s.flowIp flow, peerPort := BitVec.ofNat 16 kmpPort }

/-- A message of the device's own goes out on every uplink in RUN. -/
def Dev.kmpEmit (s : Dev) (p op flow : Nat) (payload : List Byte) : Dev :=
  let m := s.kmpMake p op flow payload
  s.liveUplinks.foldl (fun d u => d.kmpFlow u flow m.1) m.2

/-- The response to a request (R291): its opcode, partition and sequence, back to the address that it came from. -/
def Dev.kmpResponse (s : Dev) (m : KmpMsg) (status : Nat) (payload : List Byte) : KmpMsg × Dev :=
  s.kmpSign { m with flags := m.flags ||| 1, source := BitVec.ofNat 8 s.chainAddr, status := BitVec.ofNat 8 status, payload := payload
                     length := BitVec.ofNat 16 payload.length, tag := [] }

/-- A response leaves by the uplink that received its request. -/
def Dev.kmpReply (s : Dev) (u : Nat) (m : KmpMsg) (status : Nat) (payload : List Byte) : Dev :=
  let r := s.kmpResponse m status payload
  r.2.kmpSend u r.1

/-- Event records as the payload of an EVENT message: a header with their count, then 36 bytes each (R393, R398). -/
def eventPayload (recs : List (List Grain)) : List Byte :=
  leBytes 2 recs.length ++ List.replicate 6 0 ++ recs.flatMap (fun r => r.flatMap grainBytes)

/-- A record of another device with its relayed flag set (R323, R393). -/
def relayedRecord (r : List Grain) : List Grain := r.mapIdx (fun i g => if i = 2 then g ||| 1 else g)

end Sys2Proof.Machine
end

