-- ==== Sys2Proof/Machine/Time.lean ====
section
/-! DEFINITION. IEEE 1588 messages, time along the chain, source selection, the servo and its steps (chapter 13). -/

namespace Sys2Proof.Machine

/-- The servo record replaced by a function of it. -/
def Dev.modTime (s : Dev) (f : TimeRec → TimeRec) : Dev := { s with time := f s.time }

/-- Values of time_state (R347). -/
def tsFree : Nat := 0
def tsAcquire : Nat := 1
def tsLocked : Nat := 2
def tsHoldover : Nat := 3

/-- The state of the servo. -/
def Dev.timeState (s : Dev) : Nat := s.fld Reg.TIME_STATUS.time_state

/-- The number of a PTP port: U0, U1, chain. -/
def ptpNum : PtpPort → Nat
  | .u0 => 0
  | .u1 => 1
  | .chain => 2

/-- The timebase in 2^-16 ns, to nearest (R6). -/
def Dev.tbStamp (s : Dev) : Int := rshiftRound s.tbNow 16

/-- t_ingress at port k (R336): 0 U0, 1 U1, 2 FL, 3 FR. -/
def Dev.tIngress (s : Dev) (k : Nat) : Int := s.tbStamp - s.sfld Reg.TIME_ASYM.rx_delay k

/-- t_egress at port k (R336). -/
def Dev.tEgress (s : Dev) (k : Nat) : Int := s.tbStamp + s.sfld Reg.TIME_ASYM.tx_delay k

/-! ### States of the servo (R341–R345) -/

/-- A change of time_state raises notice 11 of P0 (R353). -/
def Dev.timeGo (s : Dev) (st : Nat) : Dev :=
  if s.timeState = st then s else (s.setF Reg.TIME_STATUS.time_state st).notice 0 11 0

/-- HOLDOVER is entered (R341, R344): the rate stays, and the statistics restart. -/
def Dev.holdover (s : Dev) : Dev :=
  if s.timeState = tsHoldover then s
  else ((s.timeGo tsHoldover).countAnd Reg.TIME_STAT.holdovers 0 0 2 11 0 0 0 0).modTime (fun r => { r with
    est := none, residuals := [], run := [], good := 0, jumped := false, anew := true })

/-- A jump (R344): one in LOCKED enters HOLDOVER; one in HOLDOVER counts once until the next exit or re-step (DEDUCED, log entry 109:
the jump that entered HOLDOVER is not one in it). -/
def Dev.jump (s : Dev) : Dev :=
  if s.timeState = tsLocked then s.holdover.countAnd Reg.TIME_STAT.jumps 0 0 2 11 0 0 1 0
  else if s.timeState = tsHoldover ∧ !s.time.jumped then
    (s.countAnd Reg.TIME_STAT.jumps 0 0 2 11 0 0 1 0).modTime (fun r => { r with jumped := true, run := [] })
  else s

/-- The servo rate limits: ±100 ppm in 2^-8 ppb (R342, R343). -/
def clampRate (x : Int) : Int := clampI (-25600000) 25600000 x

/-- The rate is set; the timebase counts on from here (R331). -/
def Dev.setRate (s : Dev) (x : Int) : Dev := s.rebase.setF Reg.TIME_RATE.rate (ofSigned 32 (clampRate x))

/-- The timebase moves by −offset in one instant (R342, R345); the old scale stays for lines below boundary b. The samples follow (R345, step
4): the applied one moves by the step, and of those not yet applied the ones taken before it are discarded. -/
def Dev.stepBy (s : Dev) (offset : Int) (b : Option Nat) : Dev :=
  let a := s.rebase
  let shift : Int := -(offset * 2 ^ 16)
  let moved := fun (t : Nat) => ((t : Int) + shift).toNat
  let earlier := if s.tb.stepAt = s.now ∧ s.tb.oldBelow = b then s.tb.oldShift else 0
  { a with
    tb := { a.tb with value := moved a.tb.value, stepAt := s.now, oldBelow := b, oldShift := shift + earlier }
    marn := { s.marn with
      model := s.marn.model.map (fun m => { m with tk := moved m.tk })
      past := (s.marn.model.map (fun m => (max s.marn.appliedAt s.tb.stepAt, m))).toList ++ s.marn.past
      takenAt := s.marn.takenAt.map moved
      waiting := s.marn.waiting.filter (fun p =>
        decide (s.tbNow % (2 ^ 32 * tbSecond) ≤ p.seconds.toNat * tbSecond + p.nanos.toNat * 2 ^ 32)) } }

/-- The epoch after a step (R333). -/
def Dev.epochUp (s : Dev) : Dev := s.setF Reg.TIME_EPOCH.epoch ((s.epoch + 1) % 2 ^ 32)

/-- The first step (R342), at a boundary while the grid runs (R345): offset and frequency estimate, and LOCKED. -/
def Dev.firstStep (s : Dev) (offset freq : Int) (bound : Option Nat) : Dev :=
  let a := (s.stepBy offset bound).setRate freq
  let b := if s.tb.issued then a.epochUp else a
  ((b.setF Reg.TIME_STATUS.stepped 1).modTime (fun r => { r with
    est := some (0, b.now), residuals := [], acq := [], integral := 0, run := [], first := none, firstAt := none })).timeGo tsLocked

/-- A re-step at this instant (R345): by the offset estimate, with the old scale kept for lines below boundary b. -/
def Dev.restep (s : Dev) (b : Option Nat) : Dev :=
  let clear := fun (d : Dev) (result : Nat) =>
    ((d.setF Reg.TIME_STATUS.restep_pending 0).setF Reg.TIME_STATUS.restep_result result).modTime (fun r => { r with claim := none })
  match s.time.est with
  | none => (clear s 2).alarmAt Reg.TIME_STATUS.restep_result 0 0 11 2 0 0
  | some (offset, _) =>
    let c := (s.stepBy offset b).epochUp
    let d := (clear c 1).modTime (fun r => { r with est := some (0, c.now), run := [], good := 0, jumped := false })
    (if d.timeState = tsHoldover then d.timeGo tsLocked else d).countAnd Reg.TIME_STAT.resteps 0 0 1 11 0 0 0 0

/-! ### Measurements (R340, R343, R344) -/

/-- Is a residual accepted against those kept (R340)? With none kept there is no σ to judge by, and it is. -/
def acceptResidual (rs : List Int) (sigmaMin r : Int) : Bool :=
  rs.isEmpty || decide ((r.natAbs : Int) ≤ sigmaMin) ||
    decide (r * r * (rs.length : Int) ≤ 9 * (rs.map (fun x => x * x)).sum)

/-- The mean of a run of 16 exceeds step_threshold in magnitude (R344). -/
def Dev.runJumps (s : Dev) (run : List Int) : Bool :=
  decide ((s.fld Reg.TIME_SERVO.step_threshold : Int) * 2 ^ 16 * 16 < (run.sum.natAbs : Int))

/-- The rate after an accepted measurement in LOCKED (R343), rounded once (R6): rates in 2^-8 ppb, offsets in 2^-16 ns, the move from
one rate to the next in 2^-16 ppb × 10^-12. -/
def Dev.servoRate (s : Dev) (offset integral : Int) (since : Nat) : Int :=
  let target := -(offset / 2 ^ s.fld Reg.TIME_SERVO.kp_shift) - integral / 2 ^ s.fld Reg.TIME_SERVO.ki_shift
  let lim := ((s.now - since : Nat) : Int) * 655360
  let move := clampI (-lim) lim ((target - s.rate * 256) * Config.secPs)
  clampRate (divRound (s.rate * 256 * Config.secPs + move) (256 * Config.secPs))

/-- TIME_OFFSET shows an accepted offset, saturated (R6, R347). -/
def Dev.showOffset (s : Dev) (offset : Int) : Dev := s.setF Reg.TIME_OFFSET.offset (ofSigned 64 (satS 64 offset))

/-- An accepted offset is kept (R340). -/
def Dev.keepOffset (s : Dev) (offset r : Int) : Dev :=
  (s.showOffset offset).modTime (fun t => { t with
    est := some (offset, s.now), residuals := (r :: t.residuals).take 64, acceptedAt := s.now })

/-- A measurement in LOCKED (R340, R343, R344). -/
def Dev.measureLocked (s : Dev) (offset : Int) : Dev :=
  let e := s.time.est.getD (0, s.now)
  let r := offset - Config.offsetPredicted e.1 s.rate (s.now - e.2)
  if acceptResidual s.time.residuals ((s.fld Reg.TIME_SERVO.sigma_min : Int) * 2 ^ 16) r then
    let integral := s.time.integral + offset
    ((s.keepOffset offset r).modTime (fun t => { t with integral := integral, run := [] })).setRate (s.servoRate offset integral s.time.acceptedAt)
  else
    let run := s.time.run ++ [offset]
    let a := (s.bump Reg.TIME_STAT.outliers).modTime (fun t => { t with run := run })
    if run.length < 16 then a
    else if s.runJumps run then a.jump
    else (a.modTime (fun t => { t with run := [], residuals := [] })).log 11 0 0

/-- A measurement in HOLDOVER (R344): the first after entry or a change of source sets the estimate. DEDUCED (log entry 109): the 16
accepted measurements that end HOLDOVER are consecutive among the accepted ones. -/
def Dev.measureHoldover (s : Dev) (offset : Int) : Dev :=
  let thr := (s.fld Reg.TIME_SERVO.step_threshold : Int) * 2 ^ 16
  let small := decide ((offset.natAbs : Int) ≤ thr)
  let accept := fun (d : Dev) (r : Int) =>
    (d.keepOffset offset r).modTime (fun t => { t with good := if small then t.good + 1 else 0 })
  let a := match s.time.est.filter (fun _ => !s.time.anew) with
    | none => (accept s 0).modTime (fun t => { t with residuals := [], anew := false })
    | some e =>
      let r := offset - Config.offsetPredicted e.1 s.rate (s.now - e.2)
      if acceptResidual s.time.residuals ((s.fld Reg.TIME_SERVO.sigma_min : Int) * 2 ^ 16) r then accept s r
      else s.bump Reg.TIME_STAT.outliers
  let b := a.modTime (fun t => { t with run := (t.run ++ [offset]).drop ((t.run.length + 1) - 16) })
  if 16 ≤ b.time.good then ((b.timeGo tsLocked).modTime (fun t => { t with run := [], good := 0 })).logAt Reg.TIME_STATUS.time_state 0 0 11 0 0
  else if 16 ≤ b.time.run.length ∧ s.runJumps b.time.run then b.jump
  else b

/-- The first step is due (R341, R342): at once, or at the next boundary while the grid runs (R345). -/
def Dev.acquired (s : Dev) (ms : List (Int × Nat)) : Dev :=
  let offset := Config.acquireOffset ms
  let freq := Config.acquireRate ms
  match s.nextBound.filter (fun _ => s.marn.gridOn) with
  | some b => s.modTime (fun t => { t with acq := ms, first := some (offset, freq), firstAt := some b.index })
  | none => s.firstStep offset freq none

/-- A measurement of offset and path delay by state (R340–R344). -/
def Dev.measure (s : Dev) (offset path : Int) : Dev :=
  let a := (s.setF Reg.TIME_PATH.path (satU 64 path).toNat).modTime (fun t => { t with path := some path })
  let st := a.timeState
  if st = tsAcquire then
    let ms := a.time.acq ++ [(offset, a.now)]
    if a.time.first.isSome then a
    else if ms.length < a.fld Reg.TIME_SERVO.lock_count then
      (a.showOffset offset).modTime (fun t => { t with acq := ms, est := some (offset, a.now), acceptedAt := a.now })
    else ((a.showOffset offset).modTime (fun t => { t with acceptedAt := a.now })).acquired ms
  else if st = tsLocked then a.measureLocked offset
  else if st = tsHoldover then a.measureHoldover offset
  else a

/-! ### Messages (R334–R338) -/

/-- Does the device support the message (R334)? -/
def Dev.ptpOk (s : Dev) (m : PtpMsg) : Bool :=
  m.majorVersion == 2 && decide (m.minorVersion ≤ 1) && m.sdoId == 0 && m.domain.toNat == s.fld Reg.TIME_CTRL.domain

/-- Does an uplink take the message: PTP on it, and its transport in use? -/
def Dev.ptpUplink (s : Dev) (u : Nat) (m : PtpMsg) : Bool :=
  s.flag (if u = 0 then Reg.TIME_CTRL.u0_en else Reg.TIME_CTRL.u1_en) &&
    (s.fld Reg.TIME_CTRL.transports).testBit m.transport.val

/-- The source in TIME_STATUS of a PTP port. -/
def sourceOf (port : Nat) : Nat := port + 1

/-- The master that a port listens to: an uplink's own; the chain's is the root's. -/
def Dev.fromMaster (s : Dev) (port : Nat) (m : PtpMsg) : Bool :=
  port == 2 || ((Sparse.find port s.time.masters).map (fun x => x.clock == m.master)).getD false

/-- An origin timestamp of the current source below that master's previous one is a backward jump (R344). -/
def Dev.checkOrigin (s : Dev) (port : Nat) (waits : Bool) (t1 : Int) (prev : Option Int) : Dev :=
  match prev with
  | none => s
  | some p =>
    if !waits ∧ t1 < p ∧ s.fld Reg.TIME_STATUS.source = sourceOf port then (s.modTime (fun t => { t with good := 0 })).jump else s

/-- The instants of the Syncs taken in the last second. -/
def Dev.recentSyncs (s : Dev) : List (Nat × Nat) := s.time.rateAt.filter (fun e => decide (s.now < e.2 + Config.secPs))

/-- Is a Sync of a port beyond 128 in a second (R334)? -/
def Dev.syncTooFast (s : Dev) (port : Nat) : Bool := decide (128 ≤ (s.recentSyncs.filter (fun e => e.1 == port)).length)

/-- A Sync is taken (R340, R344): a backward origin of the source is a jump. -/
def Dev.takeSync (s : Dev) (port k : Nat) (m : PtpMsg) : Dev :=
  let prevT1 := match Sparse.find port s.time.syncs with
    | none => none
    | some p => if p.master = m.master then (if p.waits then p.prevT1 else some p.t1) else none
  (s.modTime (fun t => { t with
    rateAt := s.recentSyncs ++ [(port, s.now)]
    syncs := Sparse.insert port ⟨m.master, m.sequence.toNat, m.origin, s.tIngress k, m.correction, m.twoStep, false, prevT1⟩
      t.syncs })).checkOrigin port m.twoStep m.origin prevT1

/-- A Sync beyond 128 in a second is discarded and counted (R334); any other has its effect. -/
def Dev.syncUnder (s : Dev) (port : Nat) (f : Dev → Dev) : Dev :=
  if s.syncTooFast port then s.bump Reg.TIME_STAT2.rx_discard else f s

/-- A Follow_Up completes its Sync (R340). -/
def Dev.takeFollowUp (s : Dev) (port : Nat) (m : PtpMsg) : Dev :=
  match Sparse.find port s.time.syncs with
  | none => s
  | some p =>
    if p.waits ∧ p.master = m.master ∧ p.seq = m.sequence.toNat then
      (s.modTime (fun t => { t with
        syncs := Sparse.insert port { p with t1 := m.origin, corr := p.corr + m.correction, waits := false } t.syncs })).checkOrigin
          port false m.origin p.prevT1
    else s

/-- A Delay_Resp to this device's request completes a measurement on the current source (R340). -/
def Dev.takeDelayResp (s : Dev) (port : Nat) (m : PtpMsg) : Dev :=
  match s.time.req, Sparse.find port s.time.syncs with
  | some q, some y =>
    match q.t3 with
    | none => s
    | some t3 =>
      if q.port = port ∧ q.seq = m.sequence.toNat ∧ s.fld Reg.TIME_STATUS.source = sourceOf port then
        let a := s.modTime (fun t => { t with req := none, delayLog := Sparse.insert port m.logInterval t.delayLog })
        if y.waits ∨ y.used then a
        else
          let fwd := y.t2 - y.t1 - y.corr
          let d := divRound (fwd + (m.origin - t3 - m.correction)) 2
          let path := match s.time.path with
            | none => d
            | some p => p + divRound (d - p) 16
          (a.modTime (fun t => { t with syncs := Sparse.insert port { y with used := true } t.syncs })).measure (fwd - path) path
      else s
  | _, _ => s

/-- A time-channel message of this device enters a flank link (R337). -/
def Dev.timeQueue (s : Dev) (l : Nat) (towards : Bool) (hops : Nat) (k : PtpKind) (m : PtpMsg) (ingress : Option Int) : Dev :=
  s.flkQueue l (.time ⟨towards, BitVec.ofNat 6 hops, k, m, none⟩ ingress)

/-- The root relays a message of an uplink on both flank links (R337): one of the master only from its selected uplink. -/
def Dev.rootRelay (s : Dev) (u : Nat) (k : PtpKind) (m : PtpMsg) : Dev :=
  if s.isRoot && s.flag Reg.TIME_CTRL.chain_en && (s.fld Reg.TIME_STATUS.source == sourceOf u || k == .delayResp) then
    let t := some (s.tIngress u)
    (s.timeQueue 0 false 0 k m t).timeQueue 1 false 0 k m t
  else s

/-- An uplink message that the device does not support is counted and ignored (R334). -/
def Dev.onUplink (s : Dev) (port : PtpPort) (m : PtpMsg) (f : Nat → Dev) : Dev :=
  match port with
  | .chain => s
  | _ => if s.ptpOk m && s.ptpUplink (ptpNum port) m then f (ptpNum port) else s.bump Reg.TIME_STAT2.rx_discard

/-- PTP_SYNC (R334, R336, R340, R344). -/
def execPtpSync (port : PtpPort) (msg : PtpMsg) (s : State) : Out :=
  s.run (fun d => d.onUplink port msg (fun u =>
    if d.fromMaster u msg then d.syncUnder u (fun e => (e.takeSync u u msg).rootRelay u .sync msg) else d))

/-- PTP_FOLLOW_UP (R334, R340). -/
def execPtpFollowUp (port : PtpPort) (msg : PtpMsg) (s : State) : Out :=
  s.run (fun d => d.onUplink port msg (fun u =>
    if d.fromMaster u msg then (d.takeFollowUp u msg).rootRelay u .followUp msg else d))

/-- A Delay_Resp on an uplink (R337, R340): for this device's uplink port, or for port 3 of a device of the row, which the root knows by its
Delay_Req (DEDUCED, log entry 126). -/
def Dev.uplinkDelayResp (s : Dev) (u : Nat) (uid : BitVec 64) (m : PtpMsg) : Dev :=
  if m.requester = uid ∧ m.requesterPort.toNat = u + 1 then s.takeDelayResp u m
  else if m.requesterPort = 3 ∧ s.time.askers.contains m.requester then s.rootRelay u .delayResp m
  else s

/-- PTP_DELAY_RESP (R337, R340–R344, R346). -/
def execPtpDelayResp (port : PtpPort) (msg : PtpMsg) (s : State) : Out :=
  s.runBoot (fun d => d.onUplink port msg (fun u => d.uplinkDelayResp u s.fuses.uid msg))

/-- The order of the best-master algorithm (R335): is a better than b? PRESUMED (log entry 127): as IEEE 1588 compares data sets, two of one
grandmaster by the steps removed and then by the sender. -/
def betterMaster (a b : Master) : Bool :=
  let key := fun (q : GmQuality) =>
    (((((q.priority1.toNat * 256 + q.clockClass.toNat) * 256 + q.accuracy.toNat) * 65536 + q.variance.toNat) * 256
      + q.priority2.toNat) * 2 ^ 64 + q.identity.toNat)
  if a.quality.identity = b.quality.identity then
    decide (a.quality.stepsRemoved.toNat * 2 ^ 64 + a.clock.toNat < b.quality.stepsRemoved.toNat * 2 ^ 64 + b.clock.toNat)
  else decide (key a.quality < key b.quality)

/-- An Announce interval in ps (R334). -/
def intervalPs (log : Int) : Nat :=
  if 0 ≤ log then Config.secPs * 2 ^ log.toNat else Config.secPs / 2 ^ (-log).toNat

/-- TIME_GM shows the grandmaster of the source in use (R347), where its Announce is known. -/
def Dev.showGm (s : Dev) : Dev :=
  match s.fld Reg.TIME_STATUS.source with
  | 0 => s
  | n + 1 => match Sparse.find n s.time.masters with
    | some m => s.setF Reg.TIME_GM.gm_identity m.quality.identity.toNat
    | none => s

/-- Is a master heard twice within four of its Announce intervals, and still (IEEE 1588; PRESUMED, log entry 127)? -/
def Dev.qualified (s : Dev) (m : Master) : Bool :=
  m.before.any (fun t => decide (m.heardAt ≤ t + 4 * m.interval)) && decide (s.now ≤ m.heardAt + 4 * m.interval)

/-- The master of an uplink (R335): the best of the qualified ones heard on it and the one it has. -/
def Dev.chooseMaster (s : Dev) (port : Nat) : Dev :=
  let now := Sparse.find port s.time.masters
  let cands := (s.time.heard.filter (fun e => e.1 == port && (s.qualified e.2 || now.any (fun x => x.clock == e.2.clock)))).map (fun e => e.2)
  let best := cands.foldl (fun b m => match b with
    | none => some m
    | some x => if betterMaster m x then some m else some x) (none : Option Master)
  (s.modTime (fun t => { t with masters := match best with
    | some m => Sparse.insert port m t.masters
    | none => Sparse.erase port t.masters })).showGm

/-- What is heard of a sender on a port. -/
def Dev.heardOf (s : Dev) (port : Nat) (clock : BitVec 64) : Option Master :=
  (s.time.heard.find? (fun e => e.1 == port && e.2.clock == clock)).map (fun e => e.2)

/-- A sender heard on a port, or no longer. -/
def Dev.setHeard (s : Dev) (port : Nat) (clock : BitVec 64) (m : Option Master) : Dev :=
  s.modTime (fun t => { t with heard := t.heard.filter (fun e => !(e.1 == port && e.2.clock == clock)) ++ (m.map (fun x => (port, x))).toList })

/-- An Announce (R335): its sender is heard, unless it is 255 steps away, and the port's master chosen anew. The chain brings the Announce of the
root's master only. -/
def Dev.takeAnnounce (s : Dev) (port : Nat) (m : PtpMsg) : Dev :=
  let new : Master := ⟨m.quality, m.master, s.now, intervalPs m.logInterval, m.transport, (s.heardOf port m.master).map (fun x => x.heardAt)⟩
  if port = 2 then (s.modTime (fun t => { t with masters := Sparse.insert 2 new t.masters })).showGm
  else if 255 ≤ m.quality.stepsRemoved.toNat then s
  else (s.setHeard port m.master (some new)).chooseMaster port

/-- PTP_ANNOUNCE (R334, R335, R337): the root relays those of the master. -/
def execPtpAnnounce (port : PtpPort) (msg : PtpMsg) (s : State) : Out :=
  s.run (fun d => d.onUplink port msg (fun u =>
    let a := d.takeAnnounce u msg
    if a.fromMaster u msg then a.rootRelay u .announce msg else a))

/-- PTP_DISCARD (R334). -/
def execPtpDiscard (_port : PtpPort) (s : State) : Out := s.run (fun d => d.bump Reg.TIME_STAT2.rx_discard)

/-! ### Time along the chain (R337, R338) -/

/-- The lowest hop count of the direction-0 Syncs that a link in RUN has brought over the last 1 s. -/
def Dev.lowHops (s : Dev) (l : Nat) : Option Nat :=
  if s.flkUp l then
    (s.time.hops.filter (fun e => e.1 == l && decide (s.now ≤ e.2.2 + Config.secPs))).foldl
      (fun m e => some (min (m.getD e.2.1) e.2.1)) none
  else none

/-- The time port (R338). -/
def Dev.timePort (s : Dev) : Nat :=
  match s.lowHops 0, s.lowHops 1 with
  | some a, some b => if b < a then 1 else 0
  | some _, none => 0
  | none, some _ => 1
  | none, none => if s.flkUp 0 then 0 else 1

/-- The residence of a message leaving a link (R338): added to a one-step Sync or a Delay_Req, and to the Follow_Up of a
two-step Sync. A Delay_Req of this device gets its t3 (R336). -/
def Dev.timeEgress (s : Dev) (l : Nat) (f : TimeFrame) (ingress : Option Int) : Dev × TimeFrame :=
  let out := s.tEgress (2 + l)
  match ingress with
  | none =>
    (s.modTime (fun t => { t with req := t.req.map (fun q =>
      if q.port = 2 ∧ q.seq = f.msg.sequence.toNat ∧ f.kind = .delayReq then { q with t3 := some out } else q) }), f)
  | some t =>
    let add := fun (x : Int) => { f with msg := { f.msg with correction := f.msg.correction + x } }
    match f.kind with
    | .sync =>
      if f.msg.twoStep then
        (s.modTime (fun r => { r with residence :=
          ((l, f.msg.master, f.msg.sequence.toNat, out - t) :: r.residence.filter (fun e => e.1 != l || e.2.1 != f.msg.master)) }), f)
      else (s, add (out - t))
    | .delayReq => (s, add (out - t))
    | .followUp =>
      match s.time.residence.find? (fun e => e.1 == l && e.2.1 == f.msg.master && e.2.2.1 == f.msg.sequence.toNat) with
      | some e => (s, add e.2.2.2)
      | none => (s, f)
    | _ => (s, f)

/-- A follower acts on a direction-0 message of its time port. -/
def Dev.chainMessage (s : Dev) (l : Nat) (uid : BitVec 64) (f : TimeFrame) : Dev :=
  if !s.ptpOk f.msg then s.bump Reg.TIME_STAT2.rx_discard
  else match f.kind with
    | .sync => s.syncUnder 2 (fun d => d.takeSync 2 (2 + l) f.msg)
    | .followUp => s.takeFollowUp 2 f.msg
    | .delayResp => if f.msg.requester = uid ∧ f.msg.requesterPort = 3 then s.takeDelayResp 2 f.msg else s
    | .announce => s.takeAnnounce 2 f.msg
    | .delayReq => s

/-- A time-channel frame at a follower (R337, R338). -/
def Dev.timeFollow (s : Dev) (l : Nat) (uid : BitVec 64) (f : TimeFrame) : Dev :=
  if f.towardsRoot then
    if s.flag Reg.TIME_CTRL.chain_en then
      s.timeQueue s.timePort true (f.hops.toNat + 1) f.kind f.msg (some (s.tIngress (2 + l)))
    else s
  else
    let a := if f.kind = .sync then s.modTime (fun t => { t with
        hops := t.hops.filter (fun e => decide (s.now ≤ e.2.2 + Config.secPs)) ++ [(l, f.hops.toNat, s.now)] }) else s
    if l ≠ a.timePort ∨ a.fld Reg.TIME_CTRL.chain_en = 0 then a
    else
      let b := if f.hops.toNat + 1 ≤ 63 then
          a.timeQueue (1 - l) false (f.hops.toNat + 1) f.kind f.msg (some (a.tIngress (2 + l))) else a
      b.chainMessage l uid f

/-- A PTP message leaves by an uplink, on the transport that its master uses there (R334). -/
def Dev.ptpPut (s : Dev) (u : Nat) (k : PtpKind) (m : PtpMsg) : Dev :=
  s.modUpl u (fun r => { r with ptpOut := some (k, { m with transport := ((Sparse.find u s.time.masters).map (fun x => x.transport)).getD m.transport }) })

/-- Add a clock to a list without repeating. -/
def addOnce64 (x : BitVec 64) (xs : List (BitVec 64)) : List (BitVec 64) := if xs.contains x then xs else xs ++ [x]

/-- The root discards a direction-0 message, and sends a Delay_Req of the row out of its selected uplink, with its own residence (R337,
R338). -/
def Dev.timeRoot (s : Dev) (l : Nat) (f : TimeFrame) : Dev :=
  match s.fld Reg.TIME_STATUS.source with
  | n + 1 =>
    if f.towardsRoot ∧ f.kind = .delayReq ∧ n < 2 ∧ s.flag Reg.TIME_CTRL.chain_en then
      (s.modTime (fun t => { t with askers := addOnce64 f.msg.master t.askers })).ptpPut n .delayReq
        { f.msg with correction := f.msg.correction + (s.tEgress n - s.tIngress (2 + l)) }
    else s
  | 0 => s

/-- A time-channel frame arrives (R337). -/
def Dev.timeArrive (s : Dev) (l : Nat) (uid : BitVec 64) (f : TimeFrame) : Dev :=
  s.dataFrame l f.frame (fun d => if d.isRoot then d.timeRoot l f else d.timeFollow l uid f)

/-- TIME_FRAME (R337, R338, R340). -/
def execTimeFrame (link : Link) (frame : TimeFrame) (s : State) : Out :=
  s.runBoot (fun d => d.timeArrive link.val s.fuses.uid frame)

/-- The bytes of a Delay_Req (PRESUMED, log entry 128: the layout of IEEE 1588, of which the spec gives only the version). -/
def delayReqBytes (uid : BitVec 64) (port seq domain : Nat) : List Byte :=
  let be := fun (n v : Nat) => (leBytes n v).reverse
  [0x01, 0x12] ++ be 2 44 ++ be 1 domain ++ be 15 0 ++ be 8 uid.toNat ++ be 2 port ++ be 2 seq ++ [0x01, 0x7F] ++ be 10 0

/-- A Delay_Req of this device's port (R334, R335). -/
def Dev.delayMsg (s : Dev) (uid : BitVec 64) (port seq : Nat) : PtpMsg :=
  { majorVersion := 2, minorVersion := 1, sdoId := 0, domain := BitVec.ofNat 8 (s.fld Reg.TIME_CTRL.domain), transport := 0
    master := uid, sequence := BitVec.ofNat 16 seq, twoStep := false, correction := 0, origin := 0, requester := uid
    requesterPort := BitVec.ofNat 16 port, logInterval := 0, quality := ⟨0, 0, 0, 0, 0, 0, 0⟩
    bytes := delayReqBytes uid port seq (s.fld Reg.TIME_CTRL.domain) }

/-- The instant from which a port may send its next Delay_Req: at the interval that its master's Delay_Resp asks for (R334). -/
def Dev.delayDue (s : Dev) (port : Nat) : Nat :=
  match s.time.reqAt.filter (fun q => q.1 == port), Sparse.find port s.time.delayLog with
  | some q, some log => q.2 + intervalPs log
  | _, _ => 0

/-- A Delay_Req leaves on the port of the current source (R334, R336, R338). -/
def Dev.delayReq (s0 : Dev) (uid : BitVec 64) : Dev :=
  let src := s0.fld Reg.TIME_STATUS.source
  if src = 0 then s0
  else
    let s := s0.reach (s0.delayDue (src - 1))
    let seq := s.time.reqSeq % 65536
    let a := s.modTime (fun t => { t with
      reqSeq := t.reqSeq + 1, reqAt := some (src - 1, s.now)
      req := some ⟨src - 1, seq, if src = 3 then none else some (s.tEgress (src - 1))⟩ })
    if src = 3 then a.timeQueue a.timePort true 0 .delayReq (s.delayMsg uid 3 seq) none
    else a.ptpPut (src - 1) .delayReq (s.delayMsg uid src seq)

/-- DELAY_REQ_SEND (R334, R338, R340). -/
def execDelayReqSend (s : State) : Out := s.run (fun d => d.delayReq s.fuses.uid)

/-! ### Sources (R335, R339) -/

/-- The best of the uplinks with a master (R335, R339). -/
def Dev.bestUplink (s : Dev) : Option Nat :=
  let cand := fun (u : Nat) =>
    if s.flag (if u = 0 then Reg.TIME_CTRL.u0_en else Reg.TIME_CTRL.u1_en) then Sparse.find u s.time.masters else none
  match cand 0, cand 1 with
  | some a, some b => if betterMaster b a then some 1 else some 0
  | some _, none => some 0
  | none, some _ => some 1
  | none, none => none

/-- Does the chain deliver Syncs to a follower? -/
def Dev.chainCandidate (s : Dev) : Bool :=
  !s.isRoot && s.flag Reg.TIME_CTRL.chain_en && (s.lowHops s.timePort).isSome

/-- The source of R339. -/
def Dev.pickSource (s : Dev) : Nat :=
  let up := (s.bestUplink.map sourceOf)
  if s.flag Reg.TIME_CTRL.src_order && s.chainCandidate then 3
  else match up with
    | some x => x
    | none => if s.chainCandidate then 3 else 0

/-- The source is chosen (R339, R341): a change raises a LOG event; none leaves LOCKED. DEDUCED (log entry 109): the path delay belongs
to the port it was measured on, so the first measurement of a new source sets it again. -/
def Dev.selectSource (s : Dev) : Dev :=
  let src := s.pickSource
  if src = s.fld Reg.TIME_STATUS.source then s
  else
    let b := (((s.setF Reg.TIME_STATUS.source src).showGm).logAt Reg.TIME_STATUS.source 0 0 11 0 0).modTime (fun t => { t with req := none, path := none, anew := true })
    if src = 0 then (if b.timeState = tsLocked then b.holdover else b)
    else if b.timeState = tsFree then b.timeGo tsAcquire else b

/-- TIME_SOURCE_SELECT (R339, R341). -/
def execTimeSourceSelect (s : State) : Out := s.run (fun d => d.selectSource)

/-- An uplink loses its master (R335, R341). -/
def Dev.announceTimeout (s : Dev) (u : Nat) : Dev :=
  match Sparse.find u s.time.masters with
  | none => s
  | some m =>
    let a := s.reach (m.heardAt + s.fld Reg.TIME_CFG.announce_timeout * m.interval)
    ((((a.bump Reg.TIME_STAT2.announce_timeouts).setHeard u m.clock none).modTime (fun t => { t with
      masters := Sparse.erase u t.masters })).chooseMaster u).selectSource

/-- ANNOUNCE_TIMEOUT (R335, R341). -/
def execAnnounceTimeout (u : Uplink) (s : State) : Out := s.run (fun d => d.announceTimeout u.val)

/-- 1 s has passed since the last Sync of the time port (R338): its hop counts no longer hold. -/
def Dev.timePortTimeout (s : Dev) : Dev :=
  let l := s.timePort
  match (s.time.hops.filter (fun e => e.1 == l)).getLast? with
  | none => s
  | some e =>
    let a := s.reach (e.2.2 + Config.secPs)
    a.modTime (fun t => { t with hops := t.hops.filter (fun x => x.1 != l) })

/-- TIME_PORT_TIMEOUT (R338, R339). -/
def execTimePortTimeout (s : State) : Out := s.run (fun d => d.timePortTimeout)

/-- time_wait passes in the TIME state without LOCKED (R346). -/
def Dev.timeWait (s : Dev) (uid : BitVec 64) : Dev :=
  if s.bootState = bsTime ∧ s.timeState ≠ tsLocked then
    ((s.reach (s.start.at_ + s.fld Reg.TIME_CFG.time_wait * Config.msPs)).alarm 11 3 0 0).bootEnter uid bsImage
  else s

/-- TIME_WAIT_TIMEOUT (R346). -/
def execTimeWaitTimeout (s : State) : Out := s.runBoot (fun d => d.timeWait s.fuses.uid)

/-- A re-step announcement (R345): the boundary is claimed; without a running grid the device steps at once. -/
def Dev.restepAnnounced (s : Dev) (idle : Bool) (b : Nat) : Dev :=
  if idle then s.restep none
  else (s.setF Reg.TIME_STATUS.restep_pending 1).modTime (fun t => { t with claim := some b })

/-- RESTEP_ANNOUNCEMENT (R345). -/
def execRestepAnnouncement (link : Link) (msg : RingMsg) (s : State) : Out :=
  s.run (fun d => d.ringIn link.val msg (fun e =>
    match msg.body with
    | .restepAnnounce idle b => e.restepAnnounced idle b.toNat
    | _ => e))

end Sys2Proof.Machine
end

