-- ==== Sys2Proof/Machine/Flank.lean ====
section
/-! DEFINITION. The commands of the flank links and of the chain (chapter 12, R310–R329). -/

namespace Sys2Proof.Machine

/-! ### Training (R318–R321) -/

/-- Does a link train: enabled, and not in repeater mode? -/
def Dev.flkTrains (s : Dev) (l : Nat) : Bool := s.flkOn l && !s.flag Reg.TMB_REPEATER.active

/-- Headers of the partner on all four lanes, with the rates it allows (R318, R320, R321, R433). -/
def Dev.headersSeen (s : Dev) (l partner : Nat) (rates : Option (Nat × Nat)) : Dev :=
  if !s.flkTrains l ∨ (s.assigned ∧ partner = s.chainAddr) then s
  else if s.flkState l = fsDetect ∨ s.flkState l = fsDown then
    ((s.setF Reg.FLK_STATUS.partner partner l).modFlank l (fun r => { r with partner := rates })).flkGo l fsPolarity
  else s.flkLeave l

/-- FLANK_HEADERS_SEEN (R318, R433). -/
def execFlankHeadersSeen (l : Link) (partner : BitVec 7) (s : State) (rates : Option (Fin 3 × Fin 3) := none) : Out :=
  s.runBoot (fun d => d.headersSeen l.val partner.toNat (rates.map (fun r => (r.1.val, r.2.val))))

/-- Every lane's polarity is settled (R318). -/
def Dev.polaritySettled (s : Dev) (l inverted : Nat) : Dev :=
  if s.flkTrains l ∧ s.flkState l = fsPolarity then
    (s.modFlank l (fun r => { r with inverted := inverted })).flkGo l fsOrder
  else s

/-- FLANK_POLARITY_SETTLED (R318). -/
def execFlankPolaritySettled (l : Link) (inverted : BitVec 4) (s : State) : Out :=
  s.run (fun d => d.polaritySettled l.val inverted.toNat)

/-- Do the four logical IDs name four distinct lanes (R319)? -/
def distinctLanes (m : Nat) : Bool := ((List.range 4).map (fun i => m / 4 ^ i % 4)).eraseDups.length == 4

/-- The highest and the lowest rate that both partners allow, as far as the partner's headers have told its own (R310, R318). -/
def Dev.commonRates (s : Dev) (l : Nat) (partner : Option (Nat × Nat)) : Nat × Nat :=
  let hi := s.fld Reg.FLK_CTRL.rate_max l
  let lo := s.fld Reg.FLK_CTRL.rate_min l
  ((partner.map (fun p => max hi p.1)).getD hi, (partner.map (fun p => min lo p.2)).getD lo)

/-- Four distinct logical IDs are found (R318, R319): equalisation begins at the highest common rate. -/
def Dev.orderFound (s : Dev) (l laneMap : Nat) : Dev :=
  if s.flkTrains l ∧ s.flkState l = fsOrder ∧ distinctLanes laneMap then
    (s.modFlank l (fun r => { r with
      laneMap := laneMap, rate := (s.commonRates l r.partner).1, lowest := (s.commonRates l r.partner).2 })).flkGo l fsEqualise
  else s

/-- FLANK_LANE_ORDER_FOUND (R318, R319). -/
def execFlankLaneOrderFound (l : Link) (laneMap : BitVec 8) (s : State) : Out :=
  s.run (fun d => d.orderFound l.val laneMap.toNat)

/-- The margin is not met at a rate (R318): the next lower common rate, or the attempt fails. -/
def Dev.nextRate (s : Dev) (l : Nat) : Dev :=
  let r := s.flank l
  if r.rate < r.lowest then (s.modFlank l (fun r => { r with rate := r.rate + 1 })).flkGo l fsEqualise else s.flkFail l

/-- An equalisation ends at the rate in trial, the partner's rates being known (R310, R318). -/
def Dev.equalised (s : Dev) (l : Nat) (met : Bool) (pmax pmin : Nat) : Dev :=
  if s.flkTrains l ∧ s.flkState l = fsEqualise then
    let a := s.modFlank l (fun r => { r with rate := max r.rate pmax, lowest := (s.commonRates l (some (pmax, pmin))).2 })
    if (a.flank l).lowest < (a.flank l).rate then a.flkFail l
    else if met then a.flkGo l fsAlign else a.nextRate l
  else s

/-- FLANK_EQUALISE_RESULT (R310, R318, R320). -/
def execFlankEqualiseResult (l : Link) (marginMet : Bool) (partnerMax partnerMin : Fin 3) (s : State) : Out :=
  s.runBoot (fun d => d.equalised l.val marginMet partnerMax.val partnerMin.val)

/-- The link is aligned and enters RUN (R318–R320): sequences at 0, the training's result reported, the backoff cleared. -/
def Dev.flkAligned (s : Dev) (l : Nat) : Dev :=
  if s.flkTrains l ∧ s.flkState l = fsAlign then
    let r := s.flank l
    let a := (((s.flkClear l).setF Reg.FLK_LANES.inverted r.inverted l).setF Reg.FLK_LANES.lane_map r.laneMap l).setF
      Reg.FLK_LANES.reversed (if r.laneMap = 27 then 1 else 0) l
    (((a.setF Reg.FLK_LANES.rate r.rate l).setF Reg.FLK_STATUS.attempts 0 l).setF Reg.FLK_STATUS.backoff 0 l).flkGo l fsRun
  else s

/-- FLANK_ALIGNED (R318, R320). -/
def execFlankAligned (l : Link) (s : State) : Out := s.runBoot (fun d => d.flkAligned l.val)

/-- The time limit of a training state (R318). -/
def trainLimit (st : Nat) : Nat := if st = fsDetect then Config.secPs else if st = fsEqualise then 50 * Config.msPs else 10 * Config.msPs

/-- A training state passes its limit (R318): the next lower rate, or the attempt fails. -/
def Dev.flkTimeout (s : Dev) (l : Nat) : Dev :=
  let st := s.flkState l
  if s.flkTrains l ∧ st < fsRun then
    let a := s.reach ((s.flank l).since + trainLimit st)
    if st = fsEqualise then a.nextRate l else a.flkFail l
  else s

/-- FLANK_STATE_TIMEOUT (R318, R320). -/
def execFlankStateTimeout (l : Link) (s : State) : Out := s.runBoot (fun d => d.flkTimeout l.val)

/-- The wait of a DOWN link ends (R320). -/
def Dev.backoffEnd (s : Dev) (l : Nat) : Dev :=
  match (s.flank l).waitUntil with
  | none => s
  | some t => if s.flkState l = fsDown then (s.reach t).flkGo l fsDetect else s

/-- FLANK_BACKOFF_END (R320). -/
def execFlankBackoffEnd (l : Link) (s : State) : Out := s.run (fun d => d.backoffEnd l.val)

/-- FLANK_LEAVE_RUN (R321). -/
def execFlankLeaveRun (l : Link) (s : State) : Out := s.runBoot (fun d => d.flkLeave l.val)

/-! ### Frames (R311, R312, R317) -/

/-- The priority of a load: its channel's place in the table of R313. -/
def FlkLoad.priority : FlkLoad → Nat
  | .ring m => m.channel.val
  | .time _ _ => 0
  | .seam _ _ => 6
  | .lost => 7

/-- The first of the highest-priority loads, and what waits behind it. -/
def pickLoad (xs : List FlkLoad) : Option (FlkLoad × List FlkLoad) :=
  let p := xs.foldl (fun m x => min m x.priority) 8
  (xs.find? (fun x => x.priority == p)).map (fun x => (x, xs.eraseP (fun y => y.priority == p)))

/-- The cells of an item as a seam copy. -/
def seamCells : Item → List Cell
  | .line colon bracket data => colon :: bracket :: data
  | .ell c => [c]
  | .pil c _ => [c]
  | .stop => [bareStop]
  | _ => []

/-- Read the next whole item of a seam stream's tx_q and make its frames (R317). -/
def Dev.seamRead (s : Dev) (l : Nat) : Dev :=
  match (List.range 16).findSome? (fun k =>
    if s.flag Reg.FLK_SEAM.tx_en l k then (s.peekItem (s.fld Reg.FLK_SEAM.tx_q l k) none).map (fun sc => (k, sc)) else none) with
  | none => s
  | some (k, sc) =>
    let q := s.fld Reg.FLK_SEAM.tx_q l k
    let cells := seamCells sc.item
    (chunks 256 cells.length cells).foldl (fun d cs => d.flkQueue l (.seam k cs)) ((s.takeScan q sc).releaseItem q sc.item)

/-- Send one data frame (R312): it takes the next sequence number and carries the acknowledgement due; a time-channel
message takes its residence time as it leaves (R338). -/
def Dev.sendLoad (s : Dev) (l : Nat) (y : FlkLoad) (rest : List FlkLoad) : Dev :=
  let (s, x) := match y with
    | .time f t => ((s.timeEgress l f t).1, FlkLoad.time (s.timeEgress l f t).2 t)
    | z => (s, z)
  (s.flkEmit l 0 (s.flank l).txSeq x).modFlank l (fun r => { r with
    waiting := rest, unacked := r.unacked ++ [(r.txSeq, x)], txSeq := (r.txSeq + 1) % 256
    sentAt := if r.unacked.isEmpty then s.now else r.sentAt })

/-- A frame boundary of the sender (R311–R313, R317): the highest-priority frame waiting, or an acknowledgement alone. -/
def Dev.frameSend (s : Dev) (l : Nat) : Dev :=
  if s.flkUp l then
    let a := if (s.flank l).waiting.isEmpty then s.seamRead l else s
    match pickLoad (a.flank l).waiting, decide ((a.flank l).unacked.length < 64) with
    | some (x, rest), true => a.sendLoad l x rest
    | _, _ => a.flkEmit l 1 0 .lost
  else s

/-- FLANK_FRAME_SEND (R311–R313, R317). -/
def execFlankFrameSend (l : Link) (s : State) : Out := s.run (fun d => d.frameSend l.val)

/-- A frame as it is sent again: a time-channel message is lost (R337). -/
def FlkLoad.again : FlkLoad → FlkLoad
  | .time _ _ => .lost
  | x => x

/-- Go back N (R312): every unacknowledged frame leaves again from the oldest onward; at retry_limit the link leaves RUN. -/
def Dev.retransmit (s : Dev) (l : Nat) : Dev :=
  let r := s.flank l
  if r.unacked.isEmpty then s
  else if s.fld Reg.FLK_CTRL.retry_limit l ≤ r.retries then s.flkLeave l
  else
    let again := r.unacked.map (fun f => (f.1, f.2.again))
    again.foldl (fun d f => d.flkEmit l 0 f.1 f.2) ((s.bump Reg.FLK_STAT.retransmits l).modFlank l (fun r => { r with
      retries := r.retries + 1, sentAt := s.now, unacked := again }))

/-- FLANK_ACK_FRAME (R312). -/
def execFlankAckFrame (l : Link) (ackSeq : BitVec 8) (s : State) : Out :=
  s.run (fun d => if d.flkUp l.val then d.acked l.val ackSeq.toNat else d)

/-- FLANK_NAK_FRAME (R312, R321). -/
def execFlankNakFrame (l : Link) (ackSeq : BitVec 8) (s : State) : Out :=
  s.runBoot (fun d => if d.flkUp l.val then (d.acked l.val ackSeq.toNat).retransmit l.val else d)

/-- No acknowledgement for ack_timeout ns (R312, R321). -/
def Dev.ackTimeout (s : Dev) (l : Nat) : Dev :=
  if s.flkUp l ∧ !(s.flank l).unacked.isEmpty then
    (s.reach ((s.flank l).sentAt + s.fld Reg.FLK_CTRL.ack_timeout l * Config.nsPs)).retransmit l
  else s

/-- FLANK_ACK_TIMEOUT (R312, R321). -/
def execFlankAckTimeout (l : Link) (s : State) : Out := s.runBoot (fun d => d.ackTimeout l.val)

/-- A frame is discarded (R311, R312, R321). -/
def Dev.frameDiscard (s : Dev) (l : Nat) (why : FrameFault) : Dev :=
  if !s.flkUp l then s
  else match why with
    | .outOfSequence => s.sendNak l
    | .reserved => s.bump Reg.FLK_STAT.crc_fail l
    | .crc =>
      let a := ((s.bump Reg.FLK_STAT.crc_fail l).sendNak l).modFlank l (fun r => { r with
        fails := s.now :: r.fails.filter (fun t => decide (s.now < t + Config.msPs)) })
      if 1024 < (a.flank l).fails.length then a.flkLeave l else a

/-- FLANK_FRAME_DISCARD (R311, R312, R321). -/
def execFlankFrameDiscard (l : Link) (reason : FrameFault) (s : State) : Out := s.runBoot (fun d => d.frameDiscard l.val reason)

/-- Does a frame go on with a copy that an earlier frame began (R317)? Its first grain then opens no line, ellipsis, pilcrow or block end. -/
def continues (cells : List Cell) : Bool := cells.head?.any (fun c => codeOf c.2 == cNoun || codeOf c.2 == cComma)

/-- Does a copy go on in the next frame: does this one end inside a line (R51)? -/
def goesOn (cells : List Cell) : Bool :=
  cells.getLast?.any (fun c => codeOf c.2 == cColon || codeOf c.2 == cBracket || codeOf c.2 == cNoun)

/-- The streams whose copy in arrival is dropped, once a frame of a dropped copy of stream k has come. -/
def Dev.seamDrops (s : Dev) (l k : Nat) (cells : List Cell) : Dev :=
  s.modFlank l (fun r => { r with dropped := if goesOn cells then addOnce k r.dropped else r.dropped.filter (fun x => x != k) })

/-- A seam copy arrives (R317): it is written to rx_q, or dropped whole and counted once: what earlier frames wrote of it is discarded,
and the frames that go on with a dropped copy go with it. -/
def Dev.seamReceive (s : Dev) (l k : Nat) (cells : List Cell) : Dev :=
  let q := s.fld Reg.FLK_SEAM.rx_q l k
  if s.fld Reg.FLK_SEAM.rx_en l k = 0 then s
  else if (s.flank l).dropped.contains k then s.seamDrops l k cells
  else if continues cells && (s.queue q).openTag.isNone then s.seamDrops l k cells
  else if s.qLive q && !s.qWaits 64 q && decide (s.occ q + cells.length ≤ s.qSize q) then s.qWriteAll q cells
  else ((s.qDiscard 64 q).bump Reg.FLK_STAT2.seam_rx_drops l).seamDrops l k cells

/-- SEAM_COPY_RECEIVE (R225, R312, R317). -/
def execSeamCopyReceive (l : Link) (k : Fin 16) (cells : List Cell) (s : State) (frame : Option FrameSeq := none) : Out :=
  s.run (fun d => d.dataFrame l.val frame (fun e => e.seamReceive l.val k.val cells))

/-! ### Enumeration (R325, R326, R328) -/

/-- A follower takes a position on a map: its sticky one if free, else the lowest that is free and not reserved for another device (R325,
step 2; R327). -/
def Dev.choosePosition (s : Dev) (m reserved : BitVec 64) : Option Nat :=
  match s.chain.sticky with
  | some p => if m.getLsbD p then freePosition (m ||| reserved) else some p
  | none => freePosition (m ||| reserved)

/-- Has the device taken its position in the enumeration that a map belongs to: is it marked there (R325, step 4)? -/
def Dev.tookIn (s : Dev) (m : BitVec 64) : Bool := s.chain.took && s.chain.sticky.any m.getLsbD

/-- Pass an enumerate message on beyond link l, or turn it back where the other link is not in RUN (R325, steps 3 and 4). -/
def Dev.enumPass (s : Dev) (l : Nat) (m : RingMsg) (row : Bool) (uid map : BitVec 64) (onFl returning forced : Bool)
    (reserved : BitVec 64) : Dev :=
  if s.flkUp (1 - l) then s.flkQueue (1 - l) (.ring { m with body := .enumerate row uid map onFl returning forced reserved, frame := none })
  else if returning then s
  else s.flkQueue l (.ring { m with body := .enumerate row uid map onFl true forced reserved, frame := none })

/-- A follower meets an enumerate message (R325, R326). -/
def Dev.enumFollow (s : Dev) (l : Nat) (m : RingMsg) (row : Bool) (uid map : BitVec 64) (onFl returning forced : Bool)
    (reserved : BitVec 64) : Dev :=
  if returning then s.enumPass l m row uid map onFl true forced reserved
  else if row ≠ (s.fld Reg.FLK_CHAIN.row == 1) then (s.enumFail esRowMismatch).enumPass l m row uid map onFl false forced reserved
  else if onFl ∧ s.tookIn map then s.enumPass l m row uid map onFl false forced reserved
  else
    let a := if forced then { s with chain := { s.chain with sticky := none } } else s
    match a.choosePosition map reserved with
    | none => (a.enumFail esFull).enumPass l m row uid map onFl false forced reserved
    | some p =>
      ((a.holdPosition p).setF Reg.FLK_CHAIN.enum_state esRunning).enumPass l m row uid (mapWith map p) onFl false forced reserved

/-- The root meets an enumerate message (R325, R326). -/
def Dev.enumRoot (s : Dev) (l : Nat) (own : BitVec 64) (m : RingMsg) (row : Bool) (uid map : BitVec 64)
    (onFl returning forced : Bool) (reserved : BitVec 64) : Dev :=
  if s.fld Reg.FLK_CHAIN.enum_state = esDualRoot then s
  else if uid ≠ own then s.enumFail esDualRoot
  else if row ≠ (s.fld Reg.FLK_CHAIN.row == 1) then (s.enumFail esRowMismatch).enumPass l m row uid map onFl returning forced reserved
  else if s.fld Reg.FLK_CHAIN.enum_state ≠ esRunning then s
  else if onFl then s.enumFinish map false
  else if returning then s.enumLeft uid map forced
  else s.enumFinish map true

/-- An enumerate message arrives on a link. -/
def Dev.enumArrive (s : Dev) (l : Nat) (own : BitVec 64) (m : RingMsg) : Dev :=
  s.dataFrame l m.frame (fun d => match m.body with
    | .enumerate row uid map onFl returning forced reserved =>
      if d.isRoot then d.enumRoot l own m row uid map onFl returning forced reserved
      else d.enumFollow l m row uid map onFl returning forced reserved
    | _ => d)

/-- ENUMERATE_MESSAGE (R325, R326). -/
def execEnumerateMessage (link : Link) (msg : RingMsg) (s : State) : Out :=
  s.runBoot (fun d => d.enumArrive link.val s.fuses.uid msg)

/-- A chain-done message (R325, step 5): a device that failed keeps its enum_state (R326). -/
def Dev.chainDone (s : Dev) (count : Nat) (map : BitVec 64) (closed : Bool) : Dev :=
  let st := s.fld Reg.FLK_CHAIN.enum_state
  let a := s.enumRecord count map closed
  if s.assigned then a else a.setF Reg.FLK_CHAIN.enum_state st

/-- CHAIN_DONE_MESSAGE (R325). -/
def execChainDoneMessage (link : Link) (msg : RingMsg) (s : State) : Out :=
  s.runBoot (fun d => d.ringIn link.val msg (fun e =>
    match msg.body with
    | .chainDone count map closed => e.chainDone count.toNat map closed
    | _ => e))

/-- No enumerate message within enum_timeout of both links being settled (R326). -/
def Dev.enumTimeout (s : Dev) : Dev :=
  match s.chain.settledAt with
  | none => s
  | some t =>
    if !s.isRoot ∧ s.bootState = bsEnumerate ∧ s.fld Reg.FLK_CHAIN.enum_state = esIdle then
      (s.reach (t + s.fld Reg.FLK_CHAIN.enum_timeout * Config.msPs)).enumFail esNoRoot
    else s

/-- ENUM_TIMEOUT (R326). -/
def execEnumTimeout (s : State) : Out := s.run (fun d => d.enumTimeout)

/-- The root begins an enumeration that a register write asks for: its bit reads 1 until the enumeration ends (R10). -/
def Dev.enumAsked (s : Dev) (uid : BitVec 64) (forced : Bool) : Dev :=
  { s with chain := { s.chain with asked := some forced } }.enumStart uid forced

/-- RENUMBER (R325): the root enumerates again; sticky positions stay. -/
def execRenumber (s : State) : Out := s.runBoot (fun d => if d.isRoot then d.enumAsked s.fuses.uid false else d)

/-- A forced renumber (R328): refused with a LOG event while run is set. -/
def Dev.forceRenumber (s : Dev) (uid : BitVec 64) : Dev :=
  if !s.isRoot then s
  else if s.flag Reg.MARN_CTRL.run then s.log 10 2 0 (Reg.FLK_CHAIN.force_renumber.addr 0 0 0)
  else s.enumAsked uid true

/-- FORCE_RENUMBER (R328). -/
def execForceRenumber (s : State) : Out := s.runBoot (fun d => d.forceRenumber s.fuses.uid)

/-! ### Presence and joining (R316, R327) -/

/-- t_hop of a rate code in ns (R316). -/
def tHop (code : Nat) : Nat := if code = 0 then 150 else if code = 1 then 250 else 450

/-- The slowest rate_min of the enabled links. -/
def Dev.slowest (s : Dev) : Nat :=
  [0, 1].foldl (fun m l => if s.flkOn l then max m (s.fld Reg.FLK_CTRL.rate_min l) else m) 0

/-- Does a row of n devices outlast apply_delay (R316)? -/
def Dev.rowTooLong (s : Dev) (n : Nat) : Bool :=
  decide ((s.fld Reg.MARN_BCAST.apply_delay + 1) * 1000 ≤ (n - 1) * tHop s.slowest) && decide (1 < n)

/-- The count of present devices has changed (R316): an ALARM as it passes the bound. -/
def Dev.checkLength (s : Dev) : Dev :=
  let long := s.rowTooLong (mapCount (BitVec.ofNat 64 (s.fld Reg.FLK_CHAIN_MAP.present)))
  let a := { s with chain := { s.chain with tooLong := long } }
  if long && !s.chain.tooLong then a.alarm 10 4 2 0 else a

/-- A position (minus 1) is heard. -/
def Dev.hear (s : Dev) (p : Nat) : Dev :=
  let a := s.setF Reg.FLK_CHAIN_MAP.present (s.fld Reg.FLK_CHAIN_MAP.present ||| 2 ^ p)
  ({ a with chain := { a.chain with heard := Sparse.insert p a.now a.chain.heard } }).checkLength

/-- The presence message of this device, once every 1 ms (R327); it hears itself. -/
def Dev.presenceSend (s : Dev) : Dev :=
  if s.assigned then
    let a := s.reach (s.chain.presenceAt + Config.msPs)
    (({ a with chain := { a.chain with presenceAt := a.now } }).ringSend chEnum none .presence).hear (a.fld Reg.FLK_CHAIN.position)
  else s

/-- PRESENCE_SEND (R327). -/
def execPresenceSend (s : State) : Out := s.run (fun d => d.presenceSend)

/-- PRESENCE_MESSAGE (R327, R316). -/
def execPresenceMessage (link : Link) (msg : RingMsg) (s : State) : Out :=
  s.run (fun d => d.ringIn link.val msg (fun e => e.hear (msg.origin.toNat % 64)))

/-- A device has not been heard for 10 ms (R327). -/
def Dev.absent (s : Dev) (p : Nat) : Dev :=
  match Sparse.find p s.chain.heard with
  | none => s
  | some t =>
    let a := s.reach (t + 10 * Config.msPs)
    let b := a.setF Reg.FLK_CHAIN_MAP.present (a.fld Reg.FLK_CHAIN_MAP.present &&& (2 ^ 64 - 1 - 2 ^ p))
    ({ b with chain := { b.chain with heard := Sparse.erase p b.chain.heard } }).checkLength

/-- DEVICE_ABSENT (R327). -/
def execDeviceAbsent (position : Fin 64) (s : State) : Out := s.run (fun d => d.absent position.val)

/-- The join message of a device without a position, every 100 ms (R327). -/
def Dev.joinSend (s : Dev) : Dev :=
  if !s.assigned ∧ (s.flkUp 0 ∨ s.flkUp 1) then
    let a := s.reach (s.chain.joinAt + 100 * Config.msPs)
    ({ a with chain := { a.chain with joinAt := a.now } }).ringSend chEnum none .join
  else s

/-- JOIN_SEND (R327). -/
def execJoinSend (s : State) : Out := s.run (fun d => d.joinSend)

/-- JOIN_MESSAGE (R327): the root enumerates on the first join it receives. -/
def execJoinMessage (link : Link) (msg : RingMsg) (s : State) : Out :=
  s.runBoot (fun d => d.ringIn link.val msg (fun e =>
    if e.isRoot ∧ e.fld Reg.FLK_CHAIN.enum_state ≠ esRunning then e.enumStart s.fuses.uid false else e))

/-! ### Twins (R329, R103) -/

/-- Values of twin_state. -/
def twUnknown : Nat := 0
def twLive : Nat := 1
def twLost : Nat := 2

/-- The chain address of the twin (R329). -/
def Dev.twinAddr (s : Dev) : Nat := (s.chainAddr + 64) % 128

/-- Twin traffic arrives from the twin (R329). -/
def Dev.twinHeard (s : Dev) : Dev :=
  let st := s.fld Reg.FLK_TWIN.twin_state
  let a := { s with twin := { s.twin with heardAt := s.now } }
  if st = twLive then a
  else
    let b := (a.setF Reg.FLK_TWIN.twin_state twLive).notice 0 12 0
    if st = twLost then b.logAt Reg.FLK_TWIN.twin_state 0 0 10 2 0 else b

/-- The twin is lost (R329): an ALARM, and the loss makes the CCI listeners wait for an idle bus (R103). -/
def Dev.twinLost (s : Dev) : Dev :=
  if s.flag Reg.FLK_TWIN.twin_en ∧ s.fld Reg.FLK_TWIN.twin_state ≠ twLost then
    let a := s.reach (s.twin.heardAt + s.fld Reg.FLK_TWIN.twin_timeout * Config.msPs)
    let b := ((a.setF Reg.FLK_TWIN.twin_state twLost).alarmAt Reg.FLK_TWIN.twin_state 0 0 10 6 2 0).notice 0 12 0
    (List.range 32).foldl (fun d n => if d.cciActive n then d else d.modCci n (fun r => { r with activeWait := some d.now })) b
  else s

/-- TWIN_LOST (R329, R103). -/
def execTwinLost (s : State) : Out := s.run (fun d => d.twinLost)

/-- A position's pairing in FLK_TWIN_MAP. -/
def Dev.twinMapSet (s : Dev) (p : Nat) (live : Bool) : Dev :=
  let m := s.fld Reg.FLK_TWIN_MAP.twin_live
  s.setF Reg.FLK_TWIN_MAP.twin_live (if live then m ||| 2 ^ p else m &&& (2 ^ 64 - 1 - 2 ^ p))

/-- The twin state goes round the row once every 1 ms (R329). -/
def Dev.beaconSend (s : Dev) : Dev :=
  if s.assigned then
    let a := s.reach (s.chain.beaconAt + Config.msPs)
    let live := a.fld Reg.FLK_TWIN.twin_state == twLive
    (({ a with chain := { a.chain with beaconAt := a.now } }).ringSend chTwin none (.twinBeacon live)).twinMapSet
      (a.fld Reg.FLK_CHAIN.position) live
  else s

/-- TWIN_BEACON_SEND (R329). -/
def execTwinBeaconSend (s : State) : Out := s.run (fun d => d.beaconSend)

/-- TWIN_BEACON (R329). -/
def execTwinBeacon (link : Link) (msg : RingMsg) (s : State) : Out :=
  s.run (fun d => d.ringIn link.val msg (fun e =>
    match msg.body with
    | .twinBeacon live => e.twinMapSet (msg.origin.toNat % 64) live
    | _ => e))

/-! ### Relay (R323) -/

/-- The content of a relayed message leaves by this device's own uplinks, and is counted (R323). -/
def Dev.relaySend (s : Dev) (b : RingBody) : Dev :=
  let a := s.bump Reg.FLK_DUP.relay_events
  match b with
  | .event p r => a.kmpEmit p.val koEvent (a.fld Reg.INTG_EVT_RING.evt_flow p.val) (eventPayload [relayedRecord r])
  | .twinTraffic m => a.liveUplinks.foldl (fun d u => d.kmpSend u m) a
  | _ => a

/-- A message for the host or a twin arrives from a device without an uplink (R323): the first device with an uplink in RUN
takes it and sends it from there; any other passes it on. -/
def Dev.relayArrive (s : Dev) (l : Nat) (m : RingMsg) : Dev :=
  if (s.uplinkUp 0 || s.uplinkUp 1) && !s.isOrigin m then s.dataFrame l m.frame (fun d => d.copyIn m (fun e => e.relaySend m.body))
  else s.ringIn l m (fun e => e)

/-- EVENT_RELAY_MESSAGE (R323). -/
def execEventRelayMessage (link : Link) (msg : RingMsg) (s : State) : Out := s.run (fun d => d.relayArrive link.val msg)

end Sys2Proof.Machine
end

