-- ==== Sys2Proof/Machine/Marn.lean ====
section
/-! DEFINITION. Marionette (chapter 04, R112–R136, R477, R478): encoders, samples, the model, the grid, triggers, strobes,
blocks. Positions are in 2^-32 counts, speeds in s8.24 counts per µs, timebase instants in 2^-32 ns. -/

namespace Sys2Proof.Machine

/-- The record replaced by a function of it. -/
def Dev.modMarn (s : Dev) (f : MarnRec → MarnRec) : Dev := { s with marn := f s.marn }

/-! ### The model (R119, R120, R123) -/

/-- An exact position narrowed to 2^-32 counts (R6). -/
def narrowPos (x : Int) : Int := divRound x speedUnit.toNat

/-- The model at a timebase instant narrowed to 2^-32 counts (R6), as a register, a record or a message carries it. -/
def Model.narrow (m : Model) (t : Int) : Int := narrowPos (m.exact t)

/-- The instant from which the applied model is in force on the present time scale: its application, or a step since (R345). -/
def Dev.modelFrom (s : Dev) : Nat := max s.marn.appliedAt s.tb.stepAt

/-- The model in force at an instant: the last one applied by then. -/
def Dev.modelAt (s : Dev) (t : Nat) : Option Model :=
  if s.modelFrom ≤ t then s.marn.model else ((s.marn.past.find? (fun x => x.1 ≤ t)).map (fun x => x.2)).orElse (fun _ => s.marn.model)

/-- The exact model position at an instant (R119, R132). -/
def Dev.exactAt (s : Dev) (t : Nat) : Int := ((s.modelAt t).map (fun m => m.exact (s.tbAt t))).getD 0

/-- The model position at an instant, narrowed (R128). -/
def Dev.posAt (s : Dev) (t : Nat) : Int := narrowPos (s.exactAt t)

/-- The first instant (ps) at which a timebase that counts from a reference, before its narrowing, has reached a value. -/
def psFrom (ref value : Nat) (rate t : Int) : Int :=
  let d : Int := 2 ^ 32 * (256000000000 + rate)
  (ref : Int) + (((t - value) * 256000000000000 + d - 1) / d)

/-- The first instant (ps) at which the timebase has reached a value, as it counts now. -/
def Dev.psAt (s : Dev) (t : Int) : Int := psFrom s.tb.ref s.tb.value s.rate t

/-- The first instant at which a timebase with this history of references, oldest first, has reached a value. -/
def psIn (t : Int) : List (Nat × Nat × Int) → Option Int
  | [] => none
  | [g] => some (psFrom g.1 g.2.1 g.2.2 t)
  | g :: h :: rest =>
    let x := psFrom g.1 g.2.1 g.2.2 t
    if x < h.1 then some x else psIn t (h :: rest)

/-- The references of the timebase from an instant on, oldest first. -/
def Dev.tbSince (s : Dev) (at_ : Nat) : List (Nat × Nat × Int) :=
  let all := s.tb.past.reverse ++ [(s.tb.ref, s.tb.value, s.rate)]
  all.drop ((all.filter (fun g => decide (g.1 ≤ at_))).length - 1)

/-- The instant at which the applied model crosses a position on its line, forward (R120). -/
def Dev.crossing (s : Dev) (x : Int) : Option Int :=
  match s.marn.model with
  | none => none
  | some m =>
    if 0 < m.v then some (s.psAt ((m.tk : Int) + ((x - m.p) * speedUnit + m.v - 1) / m.v))
    else if x ≤ s.posNow then some s.now else none

/-- The instant at which a model in force from one instant on reaches a position on its line (R120): at once where it stands there already. -/
def Dev.modelReaches (s : Dev) (from_ : Nat) (m : Model) (x : Int) : Option Nat :=
  if x * speedUnit ≤ m.exact (s.tbAt from_) then some from_
  else if 0 < m.v then
    (psIn ((m.tk : Int) + ((x - m.p) * speedUnit + m.v - 1) / m.v) (s.tbSince from_)).map (fun t => max from_ t.toNat)
  else none

/-- The first of some models, each in force from its instant until the next, that reaches a position, and when. -/
def Dev.reachedIn (s : Dev) (x : Int) : List (Nat × Model) → Option Nat
  | [] => none
  | [a] => s.modelReaches a.1 a.2 x
  | a :: b :: rest =>
    match (s.modelReaches a.1 a.2 x).filter (fun t => decide (t < b.1)) with
    | some t => some t
    | none => s.reachedIn x (b :: rest)

/-- The first instant of this run of the grid at which the model has reached, or as it moves now will reach, a position (R231). -/
def Dev.reachedAt (s : Dev) (x : Int) : Option Nat :=
  let all := s.marn.past.reverse ++ (s.marn.model.map (fun m => (s.modelFrom, m))).toList
  let before := (all.filter (fun a => decide (a.1 ≤ s.marn.runSince))).length
  s.reachedIn x ((all.drop (before - 1)).map (fun a => (max a.1 s.marn.runSince, a.2)))

/-- The origin is fixed: the grid's, and what MARN_ORIGIN shows of it (R123, R137). -/
def Dev.setOrigin (s : Dev) (a : Int) : Dev :=
  (s.modMarn (fun r => { r with origin := a })).setF Reg.MARN_ORIGIN.origin (ofSigned 64 a)

/-- A grid index as a number of lines from the origin: the one nearest to the model position (R125, where the index wraps). -/
def Dev.unwrap48 (s : Dev) (n : Nat) : Int := s.rawIndex + (((n : Int) - s.rawIndex + 2 ^ 47) % 2 ^ 48 - 2 ^ 47)

/-- pos(n) (R123). -/
def Dev.linePos (s : Dev) (n : Nat) : Int := s.origin * 2 ^ 32 + s.unwrap48 n * s.fld Reg.MARN_PITCH.pitch

/-- The smallest integer count at or above an exact position. -/
def ceilCount (x : Int) : Int := (x + 2 ^ 32 * speedUnit - 1) / (2 ^ 32 * speedUnit)

/-! ### Blocks and boundaries (R131, R133, R134) -/

/-- The next boundary shows in MARN_NEXT_BOUND. -/
def Dev.showBound (s : Dev) : Dev :=
  match s.nextBound with
  | none => s
  | some b => ((s.setF Reg.MARN_NEXT_BOUND.boundary b.index).setF Reg.MARN_NEXT_BOUND.cause b.cause).setF Reg.MARN_NEXT_BOUND.moved
      (if b.moved then 1 else 0)

/-- Does the root itself take part in the commit it has been asked for (R270)? -/
def Dev.rootTakesPart (s : Dev) : Bool :=
  (s.img.request.map (fun r => r.mask.testBit (s.fld Reg.FLK_CHAIN.position))).getD false

/-- This device commits at a boundary (R270, R272): its copies take the staged configuration into their inactive halves. -/
def Dev.nameBound (s : Dev) (idx block : Nat) : Dev :=
  let words := (s.img.staged.map (fun c => configWords (s.committedFile c))).getD []
  { (s.setF Reg.IMG_STATUS.state 5) with img := { s.img with
      boundary := some (idx, block), copies := s.img.copies.map (fun c => { c with other := words }) } }

/-- A commit that waits for a boundary claims the one announced now (R131, R270). -/
def Dev.claimCommit (s : Dev) (b : Bound) : Dev :=
  if s.marn.claimCommit ∧ !before48 b.index ((s.img.request.map (fun r => r.minIndex)).getD 0) then
    let a := { s with marn := { s.marn with
      claimCommit := false
      bounds := s.marn.bounds.map (fun (x : Bound) => if x.block = b.block ∧ x.epoch.isNone then { x with cause := max x.cause 3 } else x) } }
    ((if s.rootTakesPart then a.nameBound b.index b.block else a).setF Reg.IMG_CHAIN_CFG.chain_status 2).ringSend
      chEnum none (.commitAnnounce false (BitVec.ofNat 48 b.index) (BitVec.ofNat 32 b.block)
        (BitVec.ofNat 32 ((s.img.request.map (fun r => r.tag)).getD 0)) (BitVec.ofNat 64 ((s.img.request.map (fun r => r.mask)).getD 0)))
  else s

/-- A re-step that waits for a boundary claims the one announced now (R345). -/
def Dev.claimRestep (s : Dev) (b : Bound) : Dev :=
  if s.marn.claimRestep then
    ({ s with marn := { s.marn with claimRestep := false }, time := { s.time with claim := some b.index } }).ringSend chEnum none
      (.restepAnnounce false (BitVec.ofNat 48 b.index))
  else s

/-- The nominal boundary where none waits (R131). -/
def Dev.placeNominal (s : Dev) : Dev :=
  match s.nextBound, s.marn.bounds.getLast? with
  | none, some b => s.modMarn (fun r => { r with bounds := r.bounds ++ [s.boundAfter b] })
  | _, _ => s

/-- The nominal boundary is placed where none waits (R131): a block has L lines in every device, and a follower that extrapolates goes
on by it until a sample announces another (R121). The root begins to announce it. -/
def Dev.announceNext (s : Dev) : Dev :=
  let a := s.placeNominal
  if !s.isRoot then a
  else
    match a.nextBound with
    | none => a
    | some b => (a.claimCommit b).claimRestep b

/-- The steps that wait for a boundary are taken there (R342, R345): a first step, with which the TIME state of start-up ends (R346), and a
re-step. -/
def Dev.stepAtBound (s : Dev) (b : Nat) : Dev :=
  let a := match s.time.first.filter (fun _ => s.time.firstAt == some b) with
    | some (offset, freq) =>
      let c := s.firstStep offset freq (some b)
      if c.bootState = bsTime then c.bootCheck 0 else c
    | none => s
  if a.time.claim = some b then a.restep (some b) else a

/-- The steps that wait when the grid stops before their boundary are taken at the stop. DESIGN CHOICE (log entry 122): the rules say only
what a device does at the boundary, and what it does without a grid. -/
def Dev.stepAtStop (s : Dev) : Dev :=
  let a := match s.time.firstAt with
    | some b => s.stepAtBound b
    | none => s
  match a.time.claim with
  | some b => a.stepAtBound b
  | none => a

/-- What waits for a boundary moves with it. -/
def Dev.moveClaims (s : Dev) (old new : Nat) : Dev :=
  let moved := fun (c : Option Nat) => if c = some old then some new else c
  { s with time := { s.time with claim := moved s.time.claim, firstAt := moved s.time.firstAt } }

/-- A boundary is reached: a step that waits for it, its epoch, the commit at it, the block in force, and the next boundary (R131, R272, R333). -/
def Dev.reachBound (s : Dev) (b : Bound) : Dev :=
  let a := s.stepAtBound b.index
  let e := a.modMarn (fun r => { r with
    bounds := r.bounds.map (fun x => if x.block = b.block ∧ x.epoch.isNone then { x with epoch := some a.epoch } else x)
    startsAt := if r.startsAt = some b.index then none else r.startsAt })
  let c := e.commitAt b
  ((c.setF Reg.MARN_BLOCK_STAT.block_number b.block).setF Reg.MARN_BLOCK_STAT.cause b.cause).announceNext

/-- Every boundary at or below the grid index is reached. -/
def Dev.reachBounds (s : Dev) (idx : Nat) : Nat → Dev
  | 0 => s
  | n + 1 =>
    match s.nextBound with
    | none => s
    | some b => if before48 idx b.index then s else (s.reachBound b).reachBounds idx n

/-- The root advances origin by 2^48 × pitch where the index passes 2^48 − 1 (R125). -/
def Dev.wrapOrigin (s : Dev) (raw : Int) : Dev :=
  if s.isRoot ∧ 2 ^ 48 ≤ raw then
    s.setOrigin (s.origin + 2 ^ 16 * (s.fld Reg.MARN_PITCH.pitch : Int))
  else s

/-- Marionette's registers follow the model: position, speed, grid index, block and next boundary (R124, R137). In a device that has
stopped triggering under R121 the grid stands until it resumes (R135). -/
def Dev.marnSync (s : Dev) : Dev :=
  match s.marn.model with
  | none => s
  | some m =>
    let x := m.narrow s.tbNow
    let a := ((s.setF Reg.MARN_POS.position (ofSigned 64 (x / 2 ^ 32))).setF Reg.MARN_POS_FRAC.fraction (x % 2 ^ 32).toNat).setF
      Reg.MARN_POS_FRAC.speed (ofSigned 32 m.v)
    let raw := s.rawIndex
    if a.marn.gridOn ∧ a.marn.stopped.isNone ∧ 0 ≤ raw then
      let idx := (raw % 2 ^ 48).toNat
      let b := if !a.marn.seen ∨ before48 a.gridIndex idx then
          (a.setF Reg.MARN_STATUS.grid_index idx).modMarn (fun r => { r with seen := true }) else a
      ((b.wrapOrigin raw).reachBounds b.gridIndex 64).showBound
    else a.showBound

/-! ### Starting and stopping (R121, R125, R135, R477, R478) -/

/-- Does head h trigger, and does strobe t fire, in a configuration? -/
def headOn (c : RegFile) (h : Nat) : Bool := c.flag Reg.MARN_HEAD.enable h

/-- The first grid index at or above another whose entry masks head h. -/
def Dev.headLine (s : Dev) (h n : Nat) : Nat := s.firstTrigFrom h n

/-- The first untriggered grid index (R135): the lowest next trigger of the enabled heads, else the next line. -/
def Dev.untriggered48 (s : Dev) : Nat :=
  (((List.range 32).filter (headOn s.regs)).map (fun h => s.headLine h (s.head h).next)).foldl
    (fun m n => some (match m with
      | none => n
      | some x => if before48 n x then n else x)) (none : Option Nat) |>.getD ((s.gridIndex + 1) % 2 ^ 48)

/-- The device stops triggering: by a fault (R121, R135, ALARM) or because the grid stops (R478, LOG). -/
def Dev.stopTriggers (s : Dev) (byFault : Bool) : Dev :=
  let idx := s.untriggered48
  let a := s.modMarn (fun r => { r with
    triggering := false
    stopped := if byFault then some (idx, s.fld Reg.MARN_BLOCK_STAT.block_number) else r.stopped
    halts := ((s.fld Reg.MARN_BLOCK_STAT.block_number, idx, s.now) :: r.halts).take 64 })
  let b := (List.range 32).foldl (fun d n =>
    if (d.streamsOn n).isEmpty || d.fld Reg.PART_CTRL.state (d.portOwner n) != psRun then d
    else d.setPort n { d.port n with stopPending := true }) a
  if byFault then (b.setF Reg.MARN_STATUS.pos_state 3).countAnd Reg.MARN_STAT2.stops 0 0 2 2 0 0 6 idx
  else (b.setF Reg.MARN_STATUS.pos_state 0).countAnd Reg.MARN_STAT2.stops 0 0 1 2 0 0 0 idx

/-- Triggers begin at a boundary (R477): what was not reached before is dropped, and every head, strobe and stream begins there. -/
def Dev.beginAt (s : Dev) (b : Bound) : Dev :=
  let reached := s.marn.bounds.filter (fun x => x.epoch.isSome)
  let ahead := if s.isRoot then s.marn.bounds.filter (fun x => x.epoch.isNone) else [b]
  let a := s.modMarn (fun r => { r with bounds := reached ++ ahead, triggering := true, stopped := none, startsAt := some b.index })
  let c := (List.range 32).foldl (fun d h => d.setHead h { d.head h with next := b.index }) a
  let d0 := (List.range 16).foldl (fun d t => d.setStrobe t { d.strobe t with next := b.index }) c
  let d := (List.range 16).foldl (fun d p =>
    if (d.part p).restartAt.isSome then d.setPart p { d.part p with restartAt := none } else d) d0
  ((List.range 128).foldl (fun d i => d.setStream i { d.stream i with boundsDone := reached.length }) d).setF
    Reg.MARN_STATUS.pos_state 1

/-- The boundary at which triggers are to begin moves before it is reached (R477): no head or strobe begins below it. -/
def Dev.startMoved (s : Dev) (old new : Nat) : Dev :=
  if s.marn.startsAt ≠ some old then s
  else
    let nextOf := fun (n : Nat) => if n = old ∨ before48 n new then new else n
    let a := (List.range 32).foldl (fun d h => d.setHead h { d.head h with next := nextOf (d.head h).next })
      (s.modMarn (fun r => { r with startsAt := some new }))
    (List.range 16).foldl (fun d t => d.setStrobe t { d.strobe t with next := nextOf (d.strobe t).next }) a

/-- Trigger records still open from the run before keep the time scale of their brackets (R345). -/
def Dev.keepScales (s : Dev) : Dev :=
  match s.tb.oldBelow with
  | none => s
  | some b =>
    let a := (List.range 128).foldl (fun d i => if (d.stream i).recs.isEmpty then d else d.setStream i { d.stream i with
      recs := (d.stream i).recs.map (fun r => { r with oldScale := some (r.oldScale.getD (before48 r.index b)) }) }) s
    { a with tb := { a.tb with oldBelow := none } }

/-- A new run of the grid: the boundaries reached before it are those of earlier runs (R478), lines of it never lie before a commit of
an earlier one (R272), no trigger of it has fired (R106), its index starts anew (R125), and a stop of before is cleared (R478). -/
def Dev.newRun (s : Dev) : Dev :=
  let a := (List.range 32).foldl (fun d h => if (d.cci h).lastTrig.isSome then d.modCci h (fun r => { r with lastTrig := none }) else d)
    s.keepScales
  let b := { (a.setF Reg.MARN_STATUS.grid_index 0) with
    marn := { a.marn with
      runFrom := (a.marn.bounds.filter (fun x => x.epoch.isSome)).length, startsAt := none, stopped := none, seen := false, runSince := a.now }
    img := { a.img with before := none } }
  if s.marn.stopped.isSome then b.setF Reg.MARN_STATUS.pos_state 0 else b

/-- At a start by run every midpoint offset that waits takes effect (R128). -/
def Dev.freshGrid (s : Dev) : Dev :=
  (List.range 32).foldl (fun d h =>
    if d.flag Reg.MARN_HEAD_MID.pending h then
      (d.setF Reg.MARN_HEAD_MID.mid_offset (d.fld Reg.MARN_HEAD_MID.mid_offset_next h) h).setF Reg.MARN_HEAD_MID.pending 0 h
    else d) s

/-- The boundary that a sample announces (R118). -/
def PosBound (p : PosSample) : Bound := ⟨p.nextBoundary.toNat, p.block.toNat, p.cause.toNat, false, none⟩

/-- Has the model of this device already reached the block of a boundary in this run of the grid? -/
def Dev.blockBegun (s : Dev) (b : Bound) : Bool :=
  (s.marn.bounds.drop s.marn.runFrom).any (fun x : Bound => x.epoch.isSome && x.block == b.block)

/-- A follower takes the boundary announced: for the one it knows, moved perhaps, or for a new one; that of a block which it has begun
in this run is past. -/
def Dev.followBound (s : Dev) (b : Bound) : Dev :=
  if s.isRoot ∨ s.blockBegun b then s
  else match s.nextBound with
    | none => s.modMarn (fun r => { r with bounds := r.bounds ++ [b] })
    | some old =>
      ((s.modMarn (fun r => { r with bounds := r.bounds.map (fun (x : Bound) => if x.epoch.isNone ∧ x = old then b else x) })).moveClaims
        old.index b.index).startMoved old.index b.index

/-- The alarm of a resumption names the gap (R135, R476). -/
def Dev.gapAlarm (s : Dev) (b : Bound) : Dev :=
  match s.marn.stopped with
  | none => s
  | some (idx, blk) => s.alarm 2 7 0 0 (idx + min 0xFFFFFF ((b.block + 2 ^ 32 - blk - 1) % 2 ^ 32) * 2 ^ 48)

/-- A running sample is applied by a device that does not trigger (R477): it begins at a start, or at the boundary that the sample
announces, if its model has not reached that. -/
def Dev.tryBegin (s : Dev) (fresh : Bool) (b : Bound) : Dev :=
  if s.isRoot ∨ s.blockBegun b then s
  else if fresh ∧ b.index = 0 ∧ b.cause = 4 ∧ b.block = 0 then (s.freshGrid).beginAt b
  else if s.posNow < s.linePos b.index then
    (if s.marn.stopped.isSome then s.gapAlarm b else s.log 2 0 0 b.index).beginAt b
  else s

/-! ### Anchoring (R123, R135) -/

/-- The root's grid starts at an origin, and the root triggers from there on (R118, R123, R125). -/
def Dev.startGrid (s : Dev) (a : Int) : Dev :=
  let b : Bound := ⟨0, 0, 4, false, none⟩
  ((((s.setOrigin a).newRun.modMarn (fun r => { r with
    anchoring := false, anchored := none, announced := false, reanchor := false, rootGrid := true, gridOn := true
    bounds := r.bounds.filter (fun x => x.epoch.isSome) ++ [b] })).freshGrid).beginAt b).marnSync

/-- A resumption after an encoder failure (R135): the numbering goes on at the nominal boundary of the next block, cause 4. -/
def Dev.resumeGrid (s : Dev) (a : Int) : Dev :=
  let reached := s.marn.bounds.filter (fun x => x.epoch.isSome)
  match reached.getLast? with
  | none => s.startGrid a
  | some l =>
    let b := { s.boundAfter l with cause := 4 }
    (((s.setOrigin (a - (b.index * s.fld Reg.MARN_PITCH.pitch / 2 ^ 32 : Nat))).modMarn (fun r => { r with
      reanchor := false, bounds := reached ++ [b] })).beginAt b).marnSync

/-- An anchor is found at a count (R123). Where the grid of the run before still stands, the origin is fixed now, and the grid starts
once a sample with status [5] clear has ended that one (R478). -/
def Dev.anchorAt (s : Dev) (mode : Nat) (a : Int) : Dev :=
  if !s.isRoot ∨ s.fld Reg.MARN_CTRL.anchor ≠ mode then s
  else if s.marn.anchoring then
    (if s.marn.gridOn then s.modMarn (fun r => { r with anchored := some (r.anchored.getD a) }) else s.startGrid a)
  else if s.marn.reanchor then s.resumeGrid a
  else s

/-- The grid of the run before has ended: the root starts at the anchor found meanwhile (R478). -/
def Dev.anchorHeld (s : Dev) : Dev :=
  match s.marn.anchored with
  | some a => if s.isRoot ∧ s.marn.anchoring then s.startGrid a else s
  | none => s

/-- The grid has ended: no boundary ahead of a follower stands (R478). -/
def Dev.gridEnds (s : Dev) : Dev :=
  s.modMarn (fun r => { r with gridOn := false, bounds := if s.isRoot then r.bounds else r.bounds.filter (fun x => x.epoch.isSome) })

/-- The triggers stop with the grid (R478), and what waits for one of its boundaries takes place. -/
def Dev.stopWithGrid (s : Dev) : Dev := (if s.marn.triggering then s.stopTriggers false else s).stepAtStop

/-- Does a running sample belong to another run than the one this follower takes part in, whose end it has not seen: has the origin changed,
while the boundary announced is one of a block that the device has gone past (DEDUCED, log entry 123)? -/
def Dev.otherRun (s : Dev) (p : PosSample) : Bool :=
  let last := ((s.marn.bounds.drop s.marn.runFrom).filter (fun x : Bound => x.epoch.isSome)).getLast?
  !s.isRoot && p.status.getLsbD 5 && s.marn.gridOn && p.origin.toInt != s.origin && s.blockBegun (PosBound p) &&
    (p.block == 0 || last.map (fun x => x.block) != some p.block.toNat)

/-- The status bits of a sample act on triggering (R121, R477, R478). At the root, which has stopped by itself before it
sends status [1], a sample taken before the anchor is no sample of a stopped grid. -/
def Dev.sampleStatus (s : Dev) (p : PosSample) : Dev :=
  let off := !p.status.getLsbD 5 && !(s.isRoot && s.marn.rootGrid)
  let s := if off then s.gridEnds else s
  if p.status.getLsbD 1 && !s.isRoot then
    let a := if s.marn.triggering then s.stopTriggers true else s
    if off then a.stepAtStop else a
  else if off then s.stopWithGrid.anchorHeld
  else if !p.status.getLsbD 5 then s
  else
    let fresh := !s.marn.gridOn
    let a := ((if fresh ∧ !s.isRoot then s.newRun else s).modMarn (fun r => { r with gridOn := true })).followBound (PosBound p)
    if a.marn.triggering then a else a.tryBegin fresh (PosBound p)

/-- RUN_SET (R123, R478): the root anchors, and a stop or holdover of before is cleared; ignored in a follower. -/
def Dev.runSet (s : Dev) : Dev :=
  if !s.isRoot ∨ s.flag Reg.MARN_CTRL.run then s
  else (s.setF Reg.MARN_CTRL.run 1).modMarn (fun r => { r with
    anchoring := true, anchored := none, reanchor := false, selfHold := false, holdOver := false, holdAt := none, stopped := none
    restartWaits := false })

def execRunSet (s : State) : Out := s.run (fun d => d.runSet)

/-- RUN_CLEAR (R478): status [5] is clear from the next sample on. -/
def Dev.runClear (s : Dev) : Dev :=
  if !s.isRoot then s
  else (s.setF Reg.MARN_CTRL.run 0).modMarn (fun r => { r with
    anchoring := false, anchored := none, reanchor := false, rootGrid := false })

def execRunClear (s : State) : Out := s.run (fun d => d.runClear)

/-! ### Encoders (R112–R117) -/

/-- Is the rate generator the source (R136)? -/
def Dev.rateMode (s : Dev) : Bool := s.flag Reg.MARN_CTRL.source

/-- The speed of an encoder over the last speed_window, s8.24 counts per µs (R117). -/
def Dev.encSpeed (s : Dev) (e : Nat) : Int :=
  let r := s.enc e
  let w := s.fld Reg.MARN_BCAST.speed_window + 1
  let before := ((r.history.filter (fun h => h.1 + w * Config.usPs ≤ s.now)).getLast?.map (fun h => h.2)).getD 0
  satS 32 (divRound (s.sense (r.count - before) * 2 ^ 24) w)

/-- The position estimate from an encoder (R117). -/
def Dev.encPos (s : Dev) (e : Nat) : Int :=
  let r := s.enc e
  let span : Int := (s.tbNow : Int) - s.tbAt r.forwardAt
  s.sense r.forwardCount * 2 ^ 32 + min (divRound (s.encSpeed e * span) speedUnit.toNat) (2 ^ 32 - 1)

/-- A secondary value in primary counts (R116). -/
def Dev.scaled (s : Dev) (x : Int) : Int := divRound (x * s.fld Reg.MARN_XRATIO.ratio) (2 ^ 32)

/-- The exact count of the rate generator now (R136). DESIGN CHOICE (log entry 124): it integrates over the crystal's time. -/
def Dev.genNow (s : Dev) : Int := s.marn.genNum + s.marn.genRate * ((s.now - s.marn.genAt : Nat) : Int)

/-- The timebase of a sample's t_k: its 32-bit seconds are the nearest to the present ones. -/
def Dev.sampleTk (s : Dev) (p : PosSample) : Nat :=
  let cur := s.tbNow / tbSecond
  let low := cur % 2 ^ 32
  let sec := if p.seconds.toNat + 2 ^ 31 < low then cur - low + p.seconds.toNat + 2 ^ 32
    else if low + 2 ^ 31 < p.seconds.toNat then cur - low + p.seconds.toNat - 2 ^ 32 else cur - low + p.seconds.toNat
  sec * tbSecond + p.nanos.toNat * 2 ^ 32

/-- The model of a sample. -/
def Dev.modelOf (s : Dev) (p : PosSample) : Model :=
  ⟨p.pos.toInt * 2 ^ 32 + p.frac.toNat, p.speed.toInt, s.sampleTk p, p.seq.toNat⟩

/-- The root's estimate of position and speed (R117, R121, R136). -/
def Dev.rootEstimate (s : Dev) : Int × Int :=
  if s.rateMode then (divRound (s.genNow * 256) 1000000, satS 32 s.marn.genRate)
  else if s.marn.selfHold then
    match (s.marn.waiting.getLast?.map s.modelOf).orElse (fun _ => s.marn.model) with
    | some m => (m.narrow s.tbNow, m.v)
    | none => (0, 0)
  else if s.marn.secondary then
    (s.scaled (s.encPos s.activeEnc) + s.marn.secOffset, satS 32 (s.scaled (s.encSpeed s.activeEnc)))
  else (s.encPos s.activeEnc, s.encSpeed s.activeEnc)

/-- Holdover is entered (R121); a device that is stopped stays so. -/
def Dev.enterHold (s : Dev) : Dev :=
  ((if s.marn.stopped.isSome then s else s.setF Reg.MARN_STATUS.pos_state 2).bump Reg.MARN_STAT2.holdovers).modMarn (fun r => { r with holdAt := some s.now })

/-- The active encoder has failed (R115, R116): at the root the secondary takes over, or holdover begins. -/
def Dev.activeFailed (s : Dev) : Dev :=
  let sec := s.fld Reg.MARN_XCHK.secondary
  if !s.isRoot then s
  else if !s.marn.secondary ∧ s.flag Reg.MARN_XCHK.failover ∧ s.encOn sec ∧ !(s.enc sec).failed then
    ((s.modMarn (fun r => { r with secondary := true, secOffset := (s.rootEstimate).1 - s.scaled (s.encPos sec) })).encShown).alarmAt
      Reg.MARN_STATUS.active_enc 0 0 2 5 0 0
  else if !s.marn.selfHold then (s.enterHold).modMarn (fun r => { r with selfHold := true })
  else s

/-- The root does not run on a failed encoder (R115): one that a reset, a start or a commit leaves active is failed over, or held over. -/
def Dev.holdIfFailed (s : Dev) : Dev :=
  if s.isRoot ∧ !s.rateMode ∧ !s.marn.selfHold ∧ s.encOn s.activeEnc ∧ (s.enc s.activeEnc).failed then s.activeFailed else s

/-- A fault of R114 that fails its encoder. -/
def Dev.encFail (s : Dev) (e cond : Nat) : Dev :=
  let was := (s.enc e).failed
  let a := ((s.setEnc e { s.enc e with failed := true }).countAnd Reg.MARN_STAT.enc_faults 0 0 2 2 0 0 cond 0).encShown
  if !was ∧ e = s.activeEnc ∧ !s.rateMode then a.activeFailed else a

/-- The place of levels (A, B) in the forward sequence (R113). -/
def quadrature (a b : Bool) : Nat := if a then (if b then 2 else 1) else (if b then 3 else 0)

/-- The duration of so many samples of Marionette's pins, at 800 MHz (R112, R132). -/
def samplesPs (n : Nat) : Nat := n * 1250

/-- The glitch filter (R112): an encoder's new levels have been seen for so many samples. -/
def Dev.glitchPassed (s : Dev) (e held : Nat) : Bool := decide (s.fld Reg.MARN_ENC.glitch e ≤ held)

/-- New levels of A and B that passed the filter; the edge has the time of the first sample at them (R112–R114). -/
def Dev.encoderEdge (s : Dev) (e : Nat) (a0 b0 : Bool) (held : Nat) : Dev :=
  if !s.encOn e ∨ !s.glitchPassed e held then s
  else
    let swap := s.flag Reg.MARN_ENC.swap_ab e
    let a := if swap then b0 else a0
    let b := if swap then a0 else b0
    let r := s.enc e
    let d := (quadrature a b + 4 - quadrature r.a r.b) % 4
    if d = 0 then s
    else if d = 2 then (s.setEnc e { r with a := a, b := b, edgesA := min 64 (r.edgesA + 1), edgesB := min 64 (r.edgesB + 1) }).encFail e 0
    else
      let step : Int := if d = 1 then 1 else -1
      let c := r.count + step
      let at_ := s.now - samplesPs held
      let cut := at_ - (s.fld Reg.MARN_BCAST.speed_window + 1) * Config.usPs
      let old := (r.history.filter (fun h => h.1 ≤ cut)).drop ((r.history.filter (fun h => h.1 ≤ cut)).length - 1)
      let fwd := decide (0 < s.sense step)
      s.setEnc e { r with
        a := a, b := b, count := c, edgeAt := at_
        edgesA := if a = r.a then r.edgesA else min 64 (r.edgesA + 1)
        edgesB := if b = r.b then r.edgesB else min 64 (r.edgesB + 1)
        forwardAt := if fwd then at_ else r.forwardAt
        forwardCount := if fwd then c else r.forwardCount
        history := old ++ r.history.filter (fun h => cut < h.1) ++ [(at_, c)] }

/-- ENCODER_EDGE (R112–R114). -/
def execEncoderEdge (e : Fin 4) (a b : Bool) (s : State) (held : BitVec 16 := 0) : Out :=
  s.run (fun d => (d.encoderEdge e.val a b held.toNat).marnSync)

/-- The whole count of an encoder in the counts of the root's estimate: with the sense of travel, and after a failover scaled, offset
and rounded up to a whole count (R113, R116, R123). -/
def Dev.anchorCount (s : Dev) (e : Nat) : Int :=
  let c := s.sense (s.enc e).count
  if s.marn.secondary then ceilCount (s.scaled (c * 2 ^ 32) + s.marn.secOffset) else c

/-- A Z rising edge that passed the filter (R112, R114, R123). -/
def Dev.zEdge (s : Dev) (e held : Nat) : Dev :=
  if !s.encOn e ∨ !s.glitchPassed e held then s
  else
    let r := s.enc e
    let a := s.setEnc e { r with zCount := some r.count }
    let dist : Nat := (r.zCount.map (fun z => (r.count - z).natAbs)).getD (s.fld Reg.MARN_ZCHK.z_nominal)
    let nom := s.fld Reg.MARN_ZCHK.z_nominal
    let tol := s.fld Reg.MARN_ZCHK.z_tol
    let b := if s.flag Reg.MARN_ENC.z_check e ∧ (dist + tol < nom ∨ nom + tol < dist) then
        a.countAnd Reg.MARN_STAT.enc_faults 0 0 2 2 0 0 2 0 else a
    if e = s.activeEnc then b.anchorAt 1 (s.anchorCount e) else b

/-- Z_EDGE (R112, R114, R123). -/
def execZEdge (e : Fin 4) (s : State) (held : BitVec 16 := 0) : Out := s.run (fun d => d.zEdge e.val held.toNat)

/-- An accel_window ends (R114). -/
def Dev.accelWindow (s : Dev) (e : Nat) : Dev :=
  if !s.encOn e ∨ s.rateMode then s
  else
    let r := s.enc e
    let a := s.reach (r.winAt + s.fld Reg.MARN_ENC_CHK.accel_window * Config.usPs)
    let n := r.count - r.winCount
    let b := a.setEnc e { r with winAt := a.now, winCount := r.count, winPrev := some n }
    match r.winPrev with
    | none => b
    | some p => if s.fld Reg.MARN_ENC_CHK.accel_limit + 1 < (n - p).natAbs then b.encFail e 1 else b

/-- ACCEL_WINDOW_END (R114). -/
def execAccelWindowEnd (e : Fin 4) (s : State) : Out := s.run (fun d => (d.accelWindow e.val).marnSync)

/-- edge_timeout without an edge while the line moves (R114): one fault for each latest instant that it is measured from. -/
def Dev.encStall (s : Dev) (e : Nat) : Dev :=
  match s.marn.runningAt with
  | none => s
  | some t =>
    let r := s.enc e
    let base := max (max t r.edgeAt) r.stallFrom
    if !s.encOn e ∨ s.rateMode ∨ r.stalledFrom = some base then s
    else ((s.reach (base + s.fld Reg.MARN_ENC_CHK.edge_timeout * Config.usPs)).setEnc e { r with stalledFrom := some base }).encFail e 3

/-- ENC_STALL (R114). -/
def execEncStall (e : Fin 4) (s : State) : Out := s.run (fun d => (d.encStall e.val).marnSync)

/-- RUNNING_WRITE (R114). -/
def execRunningWrite (v : Bool) (s : State) : Out :=
  s.run (fun d => (d.setF Reg.MARN_CTRL.running (if v then 1 else 0)).runningSync)

/-- RUNNING_PIN_CHANGE (R114): pin 0 is SYNA, 1 SYNB. -/
def execRunningPinChange (pin : Fin 2) (level : Bool) (s : State) : Out :=
  s.run (fun d => (d.modMarn (fun r => if pin = 0 then { r with synA := level } else { r with synB := level })).runningSync)

/-- A span of the cross-check ends (R116): both references start again. -/
def Dev.xcheckEnd (s : Dev) : Dev :=
  let p := s.sense (s.enc (s.fld Reg.MARN_CTRL.primary)).count
  let q := s.sense (s.enc (s.fld Reg.MARN_XCHK.secondary)).count
  if s.isRoot ∧ s.flag Reg.MARN_XCHK.enable ∧ s.fld Reg.MARN_XCHK.span ≤ (p - s.marn.xRefP).natAbs then
    let a := s.modMarn (fun r => { r with xRefP := p, xRefS := q })
    let dev := ((p - s.marn.xRefP) * 2 ^ 32 - s.fld Reg.MARN_XRATIO.ratio * (q - s.marn.xRefS)).natAbs
    if s.fld Reg.MARN_XCHK.tol * 2 ^ 32 < dev then
      (a.bump Reg.MARN_STAT2.xcheck_mismatch).countAnd Reg.MARN_STAT.enc_faults 0 0 2 2 0 0 4 0
    else a
  else s

/-- XCHECK_SPAN_END (R116). -/
def execXcheckSpanEnd (s : State) : Out := s.run (fun d => d.xcheckEnd)

/-- The stopped root begins again: it anchors under R123 (R135); where run has been cleared it leaves its holdover, and a stop stands until
the next start (R478). -/
def Dev.restartGrid (s : Dev) : Dev :=
  let a := s.modMarn (fun r => { r with selfHold := false, holdOver := false, holdAt := none, restartWaits := false })
  if s.marn.rootGrid then a.modMarn (fun r => { r with reanchor := true })
  else if s.marn.stopped.isSome then a
  else a.setF Reg.MARN_STATUS.pos_state 0

/-- restart (R115, R135): the failed flags clear at once; a root in holdover restarts at its stop. -/
def Dev.encoderRestart (s : Dev) : Dev :=
  let a := ((List.range 4).foldl (fun d e =>
    d.setEnc e { d.enc e with failed := false, stallFrom := s.now, winPrev := none }) s).encShown
  if !s.marn.selfHold then a
  else if s.marn.triggering then a.modMarn (fun r => { r with restartWaits := true })
  else a.restartGrid

/-- ENCODER_RESTART (R115, R135). -/
def execEncoderRestart (s : State) : Out := s.run (fun d => d.encoderRestart)

/-! ### Samples (R118–R121) -/

/-- The timebase instant t_k + apply_delay of a sample (R119). -/
def Dev.applyTk (s : Dev) (p : PosSample) : Nat := s.sampleTk p + (s.fld Reg.MARN_BCAST.apply_delay + 1) * 1000 * 2 ^ 32

/-- The apply instant of a sample in ps (R119). -/
def Dev.applyAt (s : Dev) (p : PosSample) : Int := s.psAt (s.applyTk p)

/-- The next instant t_k: a multiple of 1,000 ns (R118). -/
def Dev.nextTk (s : Dev) : Nat :=
  let us := 1000 * 2 ^ 32
  let t := (s.tbNow + us - 1) / us * us
  match s.marn.takenAt with
  | none => t
  | some k => if t ≤ k then k + us else t

/-- The last rate written before a sample instant is in force from it on (R136). -/
def Dev.genStep (s : Dev) : Dev :=
  match (s.marn.rateNext.filter (fun w => decide (w.2 < s.now))).getLast? with
  | none => s
  | some w => s.modMarn (fun m => { m with
      genNum := s.genNow, genAt := s.now, genRate := w.1, rateNext := m.rateNext.filter (fun x => decide (s.now ≤ x.2)) })

/-- The sample of the root at this instant (R118); the first one of a running grid announces boundary 0. -/
def Dev.sampleNow (s : Dev) (tk : Nat) : PosSample :=
  let e := s.rootEstimate
  let on := s.marn.rootGrid
  let b : Bound := if !on then ⟨0, 0, 0, false, none⟩ else if !s.marn.announced then ⟨0, 0, 4, false, none⟩
    else s.nextBound.getD ⟨0, 0, 0, false, none⟩
  let bit := fun (c : Bool) (n : Nat) => if c then 2 ^ n else 0
  { seq := BitVec.ofNat 8 s.marn.seq
    pos := BitVec.ofInt 64 (e.1 / 2 ^ 32), frac := BitVec.ofInt 32 (e.1 % 2 ^ 32), speed := BitVec.ofInt 32 e.2
    status := BitVec.ofNat 8 (bit s.marn.selfHold 0 + bit (s.marn.stopped.isSome || s.marn.holdOver) 1 + bit s.marn.secondary 2 + bit s.rateMode 3
      + bit ((List.range 4).any (fun i => (s.enc i).failed)) 4 + bit on 5)
    seconds := BitVec.ofNat 32 (tbSeconds tk), nanos := BitVec.ofNat 32 (tbNanos tk)
    nextBoundary := BitVec.ofNat 48 b.index, cause := BitVec.ofNat 4 b.cause, block := BitVec.ofNat 32 b.block
    origin := if on then BitVec.ofInt 64 s.origin else 0 }

/-- The root takes a sample and sends it on both links (R118). -/
def Dev.sampleTake (s : Dev) : Dev :=
  if !s.isRoot then s
  else
    let tk := s.nextTk
    let a := (((s.reach (s.psAt tk).toNat).marnSync).genStep).holdIfFailed
    let p := a.sampleNow tk
    ((a.modMarn (fun r => { r with
      seq := (r.seq + 1) % 256, takenAt := some tk, waiting := r.waiting ++ [p], announced := r.announced || r.rootGrid })).stamped).ringSend chPosition none (.sample p)

/-- POSITION_SAMPLE_TAKE (R117, R118). -/
def execPositionSampleTake (s : State) : Out := s.run (fun d => d.sampleTake)

/-- A follower receives a sample (R119): late ones are discarded. -/
def Dev.sampleReceive (s : Dev) (p : PosSample) : Dev :=
  if s.isRoot then s
  else if s.applyAt p < s.now then s.bump Reg.MARN_STAT.late_samples
  else s.modMarn (fun r => { r with waiting := r.waiting ++ [p] })

/-- POSITION_SAMPLE_RECEIVE (R118, R119, R314, R315). -/
def execPositionSampleReceive (link : Link) (msg : RingMsg) (s : State) : Out :=
  s.run (fun d => d.ringIn link.val msg (fun e =>
    match msg.body with
    | .sample p => e.sampleReceive p
    | _ => e))

/-- A sample is applied (R119, R121), and the models of the last 131,072 are kept (log entry 125): a fresh sample ends a follower's holdover; its status acts on the triggers; the root may
find its anchor. -/
def Dev.sampleApply (s : Dev) : Dev :=
  match s.marn.waiting with
  | [] => s
  | p :: rest =>
    let a0 := (s.reach (s.applyAt p).toNat).marnSync
    let a := if a0.otherRun p then a0.gridEnds.stopWithGrid else a0
    let b := a.modMarn (fun r => { r with
      waiting := rest, model := some (a.modelOf p), appliedAt := a.now
      past := ((r.model.map (fun m => (a.modelFrom, m))).toList ++ r.past).take 131072
      holdAt := if r.selfHold then r.holdAt else none })
    let c := if !b.isRoot ∧ s.marn.holdAt.isSome ∧ b.marn.stopped.isNone then b.setF Reg.MARN_STATUS.pos_state 1 else b
    let d := if c.isRoot then c
      else (if p.status.getLsbD 5 then c.setOrigin p.origin.toInt else c).setF Reg.MARN_ORIGIN.origin p.origin.toNat
    ((d.sampleStatus p).marnSync).anchorAt 0 (ceilCount ((a.modelOf p).exact (s.applyTk p)))

/-- POSITION_SAMPLE_APPLY (R119–R121, R123, R477, R478). -/
def execPositionSampleApply (s : State) : Out := s.run (fun d => d.sampleApply)

/-- Ten sample instants without an application (R121). -/
def Dev.positionHoldover (s : Dev) : Dev :=
  if s.marn.model.isSome ∧ s.marn.holdAt.isNone ∧ !s.isRoot then
    let a := (s.reach (s.marn.appliedAt + 10 * Config.usPs)).marnSync
    (a.enterHold).logAt Reg.MARN_STAT2.holdovers 0 0 2 0 0
  else s

/-- POSITION_HOLDOVER (R121). -/
def execPositionHoldover (s : State) : Out := s.run (fun d => d.positionHoldover)

/-- 100 µs of holdover without a fresh sample (R121, R135, R115): from here on a root in holdover sends status [1]. A restart that waits is
spent where the active encoder has failed anew. -/
def Dev.triggerStop (s : Dev) : Dev :=
  match s.marn.holdAt.filter (fun _ => s.marn.selfHold || s.marn.waiting.isEmpty) with
  | none => s
  | some t =>
    let b := (s.reach (t + 100 * Config.usPs)).marnSync
    let c := if b.marn.selfHold then b.modMarn (fun r => { r with holdOver := true }) else b
    if !s.marn.triggering then c
    else
      let a := c.stopTriggers true
      if !a.marn.restartWaits then a
      else if (a.enc a.activeEnc).failed then a.modMarn (fun r => { r with restartWaits := false })
      else a.restartGrid

/-- TRIGGER_STOP (R121, R135). -/
def execTriggerStop (s : State) : Out := s.run (fun d => d.triggerStop)

/-! ### Triggers (R126–R129) -/

/-- The instant at which head h fires for grid line n (R126). -/
def Dev.fireAt (s : Dev) (h n : Nat) : Option Int :=
  let c := s.lineCfg n
  let lead := c.fld Reg.MARN_HEAD.lead h
  if c.flag Reg.MARN_HEAD.lead_mode h then (s.crossing (s.linePos n)).map (fun t => t - lead * Config.nsPs)
  else s.crossing (s.linePos n - lead * 2 ^ 16)

/-- A midpoint offset that waits takes effect with a new exposure generation (R128). -/
def Dev.midUpdate (s : Dev) (h gen : Nat) : Dev :=
  if s.flag Reg.MARN_HEAD_MID.pending h ∧ (s.head h).lastGen.any (fun g => g != gen) then
    (s.setF Reg.MARN_HEAD_MID.mid_offset (s.fld Reg.MARN_HEAD_MID.mid_offset_next h) h).setF Reg.MARN_HEAD_MID.pending 0 h
  else s

/-- Does the port of a head take trigger records: its partition runs, and has reached the boundary of its restart (R369, R372)? -/
def Dev.portTakes (s : Dev) (h n : Nat) : Bool :=
  let p := s.portOwner h
  s.fld Reg.PART_CTRL.state p == psRun && ((s.part p).restartAt.map (fun k =>
    s.marn.bounds.any (fun x => atOrBefore32 k x.block && !before48 n x.index))).getD true

/-- A trigger is skipped for min_period (R127). -/
def Dev.skipFire (s : Dev) (h n : Nat) : Dev :=
  let c := s.lineCfg n
  let a := if s.portTakes h n then s.skipTrig h n (ctxOfIndex c n) (s.portGen h) s.now else s
  a.countAnd Reg.MARN_STAT.skipped 0 0 1 2 0 0 0 n

/-- A trigger fires (R94, R107, R126, R128): the exposure sets, the pulse, the midpoint and the trigger records. -/
def Dev.fire (s : Dev) (h n : Nat) : Dev :=
  let c := s.lineCfg n
  let pinAt := s.now + c.fld Reg.MARN_HEAD.trim h * 100
  let a := s.cciTrigger h n pinAt
  let gen := a.portGen h
  let b := a.midUpdate h gen
  let midAt := pinAt + b.fld Reg.MARN_HEAD_MID.mid_offset h * Config.nsPs
  let d := b.setHead h { b.head h with
    pulseAt := some s.now, pulseEnd := some (pinAt + c.fld Reg.MARN_HEAD_MID.trg_width h * Config.nsPs)
    midDue := (b.head h).midDue ++ [(n, midAt)], lastGen := some gen }
  (if s.portTakes h n then d.openTrig h n (ctxOfIndex c n) gen pinAt midAt else d).genTick h

/-- The next trigger of a head is due (R120, R126, R127, R129). -/
def Dev.triggerFire (s : Dev) (h : Nat) : Dev :=
  if !s.marn.triggering then s
  else
    let n := s.headLine h (s.head h).next
    let c := s.lineCfg n
    if !headOn c h ∨ !(c.fld Reg.MARN_SEQ.head_mask (seqEntry c n)).testBit h then s
    else match s.fireAt h n with
      | none => s
      | some t =>
        let a := (s.reach t.toNat).marnSync
        let b := a.setHead h { a.head h with next := (n + 1) % 2 ^ 48 }
        match (a.head h).pulseAt with
        | none => b.fire h n
        | some p => if a.now < p + c.fld Reg.MARN_HEAD.min_period h * Config.nsPs then b.skipFire h n else b.fire h n

/-- TRIGGER_FIRE (R94, R120, R126–R129). -/
def execTriggerFire (head : Port) (s : State) : Out := s.run (fun d => d.triggerFire head.val)

/-- The level of an output with a polarity, 0 = active high (R126, R130, R137). -/
def pinLevel (active polarity : Bool) : Bool := active != polarity

/-- The level at pin TRGh (R126): active for trg_width from the instant at which the trigger reaches the pin. -/
def Dev.trgPin (s : Dev) (h : Nat) : Bool :=
  pinLevel ((s.head h).pulseEnd.any (fun e => decide (e ≤ s.now + s.fld Reg.MARN_HEAD_MID.trg_width h * Config.nsPs ∧ s.now < e)))
    (s.flag Reg.MARN_HEAD.polarity h)

/-- The level at pin STBs (R130). -/
def Dev.stbPin (s : Dev) (t : Nat) : Bool :=
  pinLevel ((s.strobe t).activeUntil.any (fun e => decide (s.now < e))) (s.flag Reg.MARN_STB.polarity t)

/-- The pulse of a head ends (R126). -/
def Dev.pulseEnds (s : Dev) (h : Nat) : Dev :=
  match (s.head h).pulseEnd with
  | none => s
  | some t => (s.reach t).setHead h { s.head h with pulseEnd := none }

/-- TRIGGER_PULSE_END (R126). -/
def execTriggerPulseEnd (head : Port) (s : State) : Out := s.run (fun d => d.pulseEnds head.val)

/-- The model position at a midpoint is captured as u32.32 counts (R128). -/
def Dev.midCapture (s : Dev) (h : Nat) : Dev :=
  match (s.head h).midDue with
  | [] => s
  | (n, t) :: rest =>
    let a := (s.reach t).marnSync
    let x := (a.posAt t % 2 ^ 64).toNat
    a.setHead h { a.head h with midDue := rest, mids := ((n, x) :: (a.head h).mids).take 1024 }

/-- MIDPOINT_CAPTURE (R128). -/
def execMidpointCapture (head : Port) (s : State) : Out := s.run (fun d => d.midCapture head.val)

/-- MID_OFFSET_NEXT_WRITE (R128). -/
def execMidOffsetNextWrite (head : Port) (v : BitVec 20) (s : State) : Out :=
  s.run (fun d => (d.setF Reg.MARN_HEAD_MID.mid_offset_next v.toNat head.val).setF Reg.MARN_HEAD_MID.pending 1 head.val)

/-! ### Strobes (R130) -/

/-- The first grid index at or above another whose entry masks a strobe. -/
def Dev.strobeLine (s : Dev) (t n : Nat) : Option Nat :=
  ((List.range 16).find? (fun k =>
    let m := (n + k) % 2 ^ 48
    ((s.lineCfg m).fld Reg.MARN_SEQ.strobe_mask (seqEntry (s.lineCfg m) m)).testBit t)).map (fun k => (n + k) % 2 ^ 48)

/-- The next activation of a strobe begins, or lengthens the pulse that it meets (R130). -/
def Dev.strobeStart (s : Dev) (t : Nat) : Dev :=
  match s.marn.triggering, s.strobeLine t (s.strobe t).next with
  | true, some n =>
    let c := s.lineCfg n
    if !c.flag Reg.MARN_STB.enable t then s
    else match s.crossing (s.linePos n) with
      | none => s
      | some x =>
        let at_ := x + c.sfld Reg.MARN_STB.start t * Config.nsPs + c.fld Reg.MARN_STB.trim t * 100
        let a := (s.reach at_.toNat).marnSync
        let stop := a.now + c.fld Reg.MARN_STB.width t * Config.nsPs
        a.setStrobe t { next := (n + 1) % 2 ^ 48, activeUntil := some (max stop ((s.strobe t).activeUntil.getD 0)) }
  | _, _ => s

/-- STROBE_START (R120, R130). -/
def execStrobeStart (strobe : Fin 16) (s : State) : Out := s.run (fun d => d.strobeStart strobe.val)

/-- The pulse of a strobe ends (R130). -/
def Dev.strobeEnd (s : Dev) (t : Nat) : Dev :=
  match (s.strobe t).activeUntil with
  | none => s
  | some x => (s.reach x).setStrobe t { s.strobe t with activeUntil := none }

/-- STROBE_END (R130). -/
def execStrobeEnd (strobe : Fin 16) (s : State) : Out := s.run (fun d => d.strobeEnd strobe.val)

/-! ### SYNC (R132, R133) -/

/-- Boundaries are placed ahead until one lies beyond an index. -/
def Dev.boundsBeyond (s : Dev) (lim : Nat) : Nat → Dev
  | 0 => s
  | n + 1 =>
    match s.marn.bounds.getLast? with
    | none => s
    | some b =>
      if b.epoch.isNone ∧ before48 lim b.index then s
      else (s.modMarn (fun r => { r with bounds := r.bounds ++ [s.boundAfter b] })).boundsBeyond lim n

/-- The boundary b moves to another index (R133); claims of it, and triggers that begin at it, move along. -/
def Dev.moveBound (s : Dev) (b : Bound) (c : Int) (cause : Nat) : Dev :=
  let n := (c % 2 ^ 48).toNat
  (((s.modMarn (fun r => { r with bounds := r.bounds.map (fun x =>
    if x = b then { x with index := n, cause := max x.cause cause, moved := true } else x) })).moveClaims b.index n).startMoved b.index n).bump
    Reg.MARN_STAT2.sync_moves

/-- An edge at an exact position acts on the next boundary at the root (R133); indices count from the origin, so that they may pass the
wrap. -/
def Dev.syncAct (s : Dev) (pin : Nat) (x : Int) : Dev :=
  if !s.marn.rootGrid then s
  else
    let soon := (s.gridIndex + s.fld Reg.MARN_BLOCK.announce) % 2 ^ 48
    let pitch : Nat := max 1 (s.fld Reg.MARN_PITCH.pitch)
    let unit : Int := pitch * speedUnit
    let c : Int := (x - s.origin * 2 ^ 32 * speedUnit + unit - 1) / unit + s.sfld Reg.MARN_BLOCK.sync_offset
    let a := s.boundsBeyond soon 4096
    match a.marn.bounds.find? (fun b => b.epoch.isNone && before48 soon b.index) with
    | none => s
    | some b =>
      let at_ := s.unwrap48 b.index
      let least := s.unwrap48 soon
      let inside := decide (at_ - s.fld Reg.MARN_BLOCK.w_before ≤ c) && decide (c ≤ at_ + s.fld Reg.MARN_BLOCK.w_after)
      if !b.moved ∧ inside ∧ least ≤ c then (a.moveBound b c 1).showBound
      else if !b.moved ∧ s.flag Reg.MARN_SYNC.force pin then (a.moveBound b (max c least) 2).showBound
      else s.countAnd Reg.MARN_STAT.sync_ignored 0 0 1 2 0 0 0 0

/-- An accepted edge at an exact position: the root's anchor or boundary, or a SYNC message from a follower (R123, R132), which carries it
narrowed (R6). -/
def Dev.syncAt (s : Dev) (pin : Nat) (x : Int) : Dev :=
  if s.isRoot then
    if (s.marn.anchoring ∨ s.marn.reanchor) ∧ s.fld Reg.MARN_CTRL.anchor = 2 then s.anchorAt 2 (ceilCount x) else s.syncAct pin x
  else s.ringSend chPosition (some (s.fld Reg.FLK_CHAIN.row * 64)) (.sync (Fin.ofNat 2 pin) (narrowPos x))

/-- Is a new level of a SYNC pin, seen for so many samples, an edge that the pin accepts (R132): enabled, of its polarity, held for min_width? -/
def Dev.syncAccepts (s : Dev) (pin : Nat) (level : Option Bool) (held : Nat) : Bool :=
  s.flag Reg.MARN_SYNC.enable pin && level == some (!s.flag Reg.MARN_SYNC.polarity pin) && decide (s.fld Reg.MARN_SYNC.min_width pin ≤ held)

/-- New levels of SYNA and SYNB, each held for so many samples (R132): an edge's position is that of the model at the first sample of its
level, and where both pins accept an edge now SYNA is taken. -/
def Dev.syncEdge (s : Dev) (synA synB : Option Bool) (heldA heldB : Nat) : Dev :=
  let a := s.marnSync
  let x := fun (held : Nat) => a.exactAt (a.now - samplesPs held)
  if a.syncAccepts 0 synA heldA then (if a.syncAccepts 1 synB heldB then a.log 2 0 0 else a).syncAt 0 (x heldA)
  else if a.syncAccepts 1 synB heldB then a.syncAt 1 (x heldB) else a

/-- SYNC_EDGE (R123, R132, R133): SYNB's level has been held as long as SYNA's where its own time is not given. -/
def execSyncEdge (syna synb : Option Bool) (s : State) (held : BitVec 16 := 0) (heldB : Option (BitVec 16) := none) : Out :=
  s.run (fun d => d.syncEdge syna synb held.toNat (heldB.getD held).toNat)

/-- SYNC_MESSAGE (R132, R133): at the root. -/
def execSyncMessage (link : Link) (msg : RingMsg) (s : State) : Out :=
  s.run (fun d => d.ringIn link.val msg (fun e =>
    match msg.body with
    | .sync pin x => if e.isRoot then (e.marnSync).syncAt pin.val (x * speedUnit) else e
    | _ => e))

/-- RATE_WRITE (R136): in force at the first sample instant after the write. -/
def execRateWrite (rate : BitVec 32) (s : State) : Out :=
  s.run (fun d => (d.setF Reg.MARN_RATE.rate rate.toNat).modMarn (fun r => { r with rateNext := r.rateNext ++ [(rate.toNat, d.now)] }))

/-! ### Re-steps (R345) -/

/-- restep at the root (R345): it claims the next boundary announced, or steps at once without a grid. -/
def Dev.restepRequest (s : Dev) : Dev :=
  if !s.isRoot ∨ s.flag Reg.TIME_STATUS.restep_pending then s.log 11 0 0 (Reg.TIME_CTRL.restep.addr 0 0 0)
  else
    let a := s.setF Reg.TIME_STATUS.restep_pending 1
    if s.marn.rootGrid then (a.modMarn (fun r => { r with claimRestep := true })).announceNext
    else (a.ringSend chEnum none (.restepAnnounce true 0)).restep none

/-- RESTEP_REQUEST (R345). -/
def execRestepRequest (s : State) : Out := s.run (fun d => d.restepRequest)

/-- The model reaches the boundary claimed for a step (R342, R345). -/
def Dev.restepApply (s : Dev) : Dev :=
  match s.time.firstAt.orElse (fun _ => s.time.claim) with
  | none => s
  | some b =>
    match s.crossing (s.linePos b) with
    | none => s
    | some t => ((s.reach t.toNat).marnSync).stepAtBound b

/-- RESTEP_APPLY (R345). -/
def execRestepApply (s : State) : Out := s.run (fun d => d.restepApply)

end Sys2Proof.Machine
end

