-- ==== Sys2Proof/Machine/Pgr.lean ====
section
/-! DEFINITION. The position-grid resamplers (R193–R213). -/

namespace Sys2Proof.Machine

/-- Stream s of resampler u as one number (R475). -/
def pgrInst (u st : Nat) : Nat := 4 * u + st

/-- The record of a stream replaced by a function of it. -/
def Dev.modPgr (s : Dev) (u st : Nat) (f : PgrRec → PgrRec) : Dev := s.setPgr (pgrInst u st) (f (s.pgr (pgrInst u st)))

/-- A resampler's configuration. -/
def Dev.pgrCfg (s : Dev) (u : Nat) : RegFile := s.cfg 5 (pgrInst u 0)
def Dev.pgrOwner (s : Dev) (u : Nat) : Nat := (s.pgrCfg u).fld Reg.PGR_CTRL.owner u
def Dev.pgrIn (s : Dev) (u st : Nat) : Nat := (s.pgrCfg u).fld Reg.PGR_STREAM_A.in_q u st
def Dev.pgrOut (s : Dev) (u st : Nat) : Nat := (s.pgrCfg u).fld Reg.PGR_STREAM_A.out_q u st
def Dev.pgrWidth (s : Dev) (u st : Nat) : Nat := (s.pgrCfg u).fld Reg.PGR_STREAM_A.in_width u st
/-- K (R203). -/
def Dev.pgrK (s : Dev) (u st : Nat) : Nat := (s.pgrCfg u).fld Reg.PGR_STREAM_B.int_k u st + 1
/-- row_shift in 2^-32 counts. -/
def Dev.rowShift (s : Dev) (u st : Nat) : Nat := (s.pgrCfg u).fld Reg.PGR_ROWS.row_shift u st * 2 ^ 16
def Dev.maxGap (s : Dev) (u k : Nat) : Nat := s.fld Reg.PGR_P_MODE.max_gap u 0 k
def Dev.along (s : Dev) (u k : Nat) : Nat := s.fld Reg.PGR_P_MODE.along u 0 k
def Dev.lateral (s : Dev) (u k : Nat) : Nat := s.fld Reg.PGR_P_MODE.lateral u 0 k

/-- S_c (R194) in a sequence: grid lines from line n to the head's next line of its context. -/
def spacingIn (c : RegFile) (u ctx n : Nat) : Nat :=
  ((List.range 16).find? (fun k =>
    let e := seqEntry c ((n + k + 1) % 2 ^ 48)
    c.fld Reg.MARN_SEQ.context e == ctx && (c.fld Reg.MARN_SEQ.head_mask e).testBit u)).elim 1 (fun k => k + 1)

/-- S_c of a line: in the sequence of its own block, since no interpolation crosses a block (R194, R272). -/
def Dev.spacing (s : Dev) (u ctx n : Nat) : Nat := spacingIn (s.lineCfg n) u ctx n

/-- P_c in 2^-32 counts (R194). -/
def Dev.ctxPitch (s : Dev) (u ctx n : Nat) : Nat := s.spacing u ctx n * s.fld Reg.MARN_PITCH.pitch

/-- Δ (R208) for a context pitch p. -/
def Dev.deltaAt (s : Dev) (u st k p : Nat) : Nat := s.along u k + ((s.pgrK u st - 1) * s.rowShift u st + p - 1) / p

/-- Δ of a line (R208). -/
def Dev.pgrDelta (s : Dev) (u st k ctx n : Nat) : Nat := s.deltaAt u st k (s.ctxPitch u ctx n)

/-! ### Input (R196–R198, R209) -/

/-- The midpoint of a grid line in 2^-32 counts (R196), if it is still held. -/
def Dev.midpoint (s : Dev) (u n : Nat) : Option Int :=
  ((s.head u).mids.find? (fun m => m.1 == n)).map (fun m =>
    let d := ((m.2 : Int) - s.linePos n) % 2 ^ 64
    s.linePos n + (if d ≥ 2 ^ 63 then d - 2 ^ 64 else d))

/-- Is a position error outside the window of a bank (R198)? -/
def Dev.outsideWin (s : Dev) (u k ctx n : Nat) (e : Int) : Bool :=
  decide (((s.fld Reg.PGR_P_MODE.win u 0 k * s.ctxPitch u ctx n : Nat) : Int) < e.natAbs * 256)

/-- The groups of a context. -/
def Dev.ctxGroups (s : Dev) (u st ctx : Nat) : List PgrGroup := (s.pgr (pgrInst u st)).groups.filter (fun g => g.ctx == ctx)

/-- Room in the ring of a context for one more group (R209). -/
def Dev.pgrRoom (s : Dev) (u st ctx n : Nat) : Bool :=
  let gs := s.ctxGroups u st ctx
  let k := s.bankOf pgrWin u ctx n
  let d := s.pgrDelta u st k ctx n + s.maxGap u k + 4
  let first := ((gs.zipIdx.find? (fun gi => !gi.1.emitted)).map (fun gi => gi.2)).getD gs.length
  gs.length + 1 ≤ first - (s.maxGap u k + 2) + d

/-- The line at a row of a group, if it is present and not late. -/
def PgrGroup.row (g : PgrGroup) (r : Nat) : Option ULine := if g.late then none else (g.rows[r]?).bind (fun x => x.line)

/-- The slots of one row of a trigger group, and of the group (R209). -/
def Dev.pgrRowSlots (s : Dev) (u st : Nat) : Nat := (s.pgrWidth u st + 3) / 4 + 2
def Dev.pgrGroupSlots (s : Dev) (u st : Nat) : Nat := s.pgrK u st * s.pgrRowSlots u st

/-- The slot of row r of a group in the ring of its context (R209). DESIGN CHOICE (log entry 102): groups stand in the order of their arrival
and wrap at the last whole group of the stride; a G3x24 line, which the ring's slots do not hold, stands in the stream's record. -/
def Dev.pgrSlot (s : Dev) (u st ctx num r : Nat) : Option Nat :=
  let g := (s.pgrCfg u).fld Reg.PGR_SCRATCH.stride u st / s.pgrGroupSlots u st
  if s.qShape (s.pgrIn u st) = 2 ∧ 0 < g ∧ r < s.pgrK u st then
    some ((s.pgrCfg u).fld Reg.PGR_SCRATCH.base u st + ctx * (s.pgrCfg u).fld Reg.PGR_SCRATCH.stride u st + num % g * s.pgrGroupSlots u st
      + r * s.pgrRowSlots u st)
  else none

/-- A new trigger group with its midpoint, or pos(n) where that is no longer held (R196–R198). -/
def Dev.openGroup (s : Dev) (u st ctx n : Nat) : Dev :=
  let k := s.bankOf pgrWin u ctx n
  let m := s.midpoint u n
  let e := (m.map (fun x => x - s.linePos n)).getD 0
  s.modPgr u st (fun r => { r with
    groups := r.groups ++ [⟨(((s.ctxGroups u st ctx).getLast?).map (fun g => g.num + 1)).getD 0, n, ctx, [], s.linePos n + e,
      s.outsideWin u k ctx n e, false, m.isNone, none⟩] })

/-- A row joins the group that stands last; its first line counts a midpoint that is no longer held (R197). -/
def Dev.joinGroup (s : Dev) (u st : Nat) (h : Cell) (l : Option ULine) : Dev :=
  let last := (s.pgr (pgrInst u st)).groups.getLast?
  let gone := l.isSome && (last.map (fun g => g.unheld)).getD false
  let slot := (last.filter (fun _ => l.isSome)).bind (fun g => s.pgrSlot u st g.ctx g.num g.rows.length)
  let b := s.modPgr u st (fun r => { r with
    groups := modifyAt (fun g => { g with rows := g.rows ++ [⟨h, l, false, slot⟩], unheld := g.unheld && !gone }) (r.groups.length - 1) r.groups })
  let a := match l, slot with
    | some x, some i => b.keepRow (shapeN (s.qShape (s.pgrIn u st))) i x
    | _, _ => b
  if gone then a.countAnd Reg.PGR_STAT.mid_missing u st 1 5 (pgrInst u st) (s.pgrOwner u) 0 (Tag.of h.1).index else a

/-- Is every row of a group in the ring? -/
def Dev.pgrWhole (s : Dev) (u st : Nat) (g : PgrGroup) : Bool :=
  (s.pgr (pgrInst u st)).ending.isSome || s.pgrK u st ≤ g.rows.length ||
    ((s.pgr (pgrInst u st)).groups.getLast?.map (fun x => x.index != g.index)).getD false

/-- May the output of a group be emitted (R208)? A late group or an ellipsis waits only for what comes before it. -/
def Dev.pgrDue (s : Dev) (u st : Nat) (g : PgrGroup) : Bool :=
  let k := s.bankOf pgrWin u g.ctx g.index
  let n := (g.index + s.pgrDelta u st k g.ctx g.index * s.spacing u g.ctx g.index) % 2 ^ 48
  s.pgrWhole u st g && ((s.pgr (pgrInst u st)).ending.isSome || g.late || (g.row 0).isNone ||
    (s.pgr (pgrInst u st)).groups.any (fun x => x.ctx == g.ctx && x.index == n && s.pgrWhole u st x))

/-- The groups whose emission condition an item meets take the instant at which it committed on in_q (R195). -/
def Dev.noteDue (s : Dev) (u st at_ : Nat) : Dev :=
  s.modPgr u st (fun r => { r with groups := r.groups.map (fun g =>
    if g.dueAt.isNone && !g.emitted && s.pgrDue u st g then { g with dueAt := some at_ } else g) })

/-- A line or ellipsis enters the ring (R209). An ellipsis that stands for a line lost to a grammar violation carries the flags of an output
line of the stream (R48). -/
def Dev.pgrStore (s : Dev) (u st q : Nat) (sc : Scan) (h : Cell) : Dev :=
  let t := Tag.of h.1
  let fresh := !(((s.pgr (pgrInst u st)).groups.getLast?.map (fun g => g.index == t.index)).getD false)
  if fresh ∧ !s.pgrRoom u st t.ctx t.index then s
  else
    let l : Option ULine := match sc.item with
      | .line c br data => some (lineOf (s.qShape q) (s.pgrWidth u st) c br data 0)
      | _ => none
    let a := s.takeScan q sc
    let h' := match sc.item with
      | .bad _ => if 1 < s.pgrK u st then retag h (fun t => { t with flags := t.flags ||| lfIntegrated }) else h
      | _ => h
    let b := (if fresh then a.openGroup u st t.ctx t.index else a).joinGroup u st h' l
    let c := b.modPgr u st (fun r => { r with ending := if sc.item.endsInput then some l.isSome else r.ending })
    (c.noteDue u st (s.frontStamp q)).releaseItem q sc.item

/-- The end of a block once every output is emitted (R208). -/
def Dev.pgrClose (s : Dev) (u st : Nat) (written : Bool) : Dev :=
  let r := s.pgr (pgrInst u st)
  if r.ending.isSome ∧ r.groups.all (fun g => g.emitted) then
    let a := if written then s else s.qWrite (s.pgrOut u st) bareStop
    a.setPgr (pgrInst u st) { r with groups := [], ending := none, block := none }
  else s

/-- A pilcrow passes to out_q; after an abort, work begins again here (R208, R212, R272). -/
def Dev.pgrPil (s : Dev) (u st : Nat) (c : Cell) : Dev :=
  let a := (s.switchUnit 5 (pgrInst u 0) (pilBlockOf c.1)).setPgr (pgrInst u st) { PgrRec.init with block := some (pilBlockOf c.1) }
  a.qWrite (a.pgrOut u st) c

/-- May a stream work? -/
def Dev.pgrReady (s : Dev) (u st : Nat) : Bool :=
  (s.pgrCfg u).flag Reg.PGR_CTRL.enable u && (s.pgrCfg u).flag Reg.PGR_STREAM_A.enable u st && s.unitRuns (s.pgrOwner u) (304 + u)

/-- A stream copies one item of in_q (R209); nothing is taken while an ended block has outputs to emit. -/
def Dev.pgrCopy (s : Dev) (u st : Nat) : Dev :=
  let a := s.switchAt 5 (pgrInst u 0) (s.pgr (pgrInst u st)).block.isSome (fun c => [c.fld Reg.PGR_STREAM_A.in_q u st])
  let r := a.pgr (pgrInst u st)
  if a.pgrReady u st && r.ending.isNone then
    let q := a.pgrIn u st
    match a.peekItem q (some (a.pgrWidth u st)) with
    | none => a
    | some sc =>
      match sc.item with
      | .noise => (a.takeScan q sc).releaseItem q sc.item
      | .stop =>
        if r.skipping then (a.takeScan q sc).releaseItem q sc.item
        else ((((a.takeScan q sc).modPgr u st (fun r => { r with ending := some false })).noteDue u st (a.frontStamp q)).releaseItem q sc.item).pgrClose u st false
      | .pil c true =>
        if r.block.isSome ∧ !r.skipping then ((a.modPgr u st (fun r => { r with ending := some false })).noteDue u st (a.frontStamp q)).pgrClose u st false
        else ((a.takeScan q sc).pgrPil u st c).releaseItem q sc.item
      | .pil c false => ((a.takeScan q sc).pgrPil u st c).releaseItem q sc.item
      | it =>
        if r.skipping then (a.takeScan q sc).releaseItem q sc.item
        else a.pgrStore u st q sc (it.head?.getD idleCell)
  else a

/-- A stream with what stands committed on its in_q copied, until an output of it is due. -/
def Dev.pgrAhead (s : Dev) (u st : Nat) (due : Dev → Bool) : Nat → Dev
  | 0 => s
  | n + 1 =>
    if due s then s
    else
      let a := s.pgrCopy u st
      if a.rp (s.pgrIn u st) = s.rp (s.pgrIn u st) then a else a.pgrAhead u st due n

/-- PGR_INPUT_COPY (R209). -/
def execPgrInputCopy (u : Fin 32) (strm : Strm) (s : State) : Out := s.run (fun d => d.unlessStalled (d.pgrOwner u.val) (fun e => e.pgrCopy u.val strm.val))

/-! ### Placement along the product (R200–R204) -/

/-- A present line of the reach: grid index, m_r, and the line. -/
structure Tap where
  index : Nat
  m : Int
  line : ULine

/-- A row of an output: weighted lines with the total of the weights as a power of two, or absent; whether it is synthetic. -/
structure RowMix where
  parts : List (Int × ULine)
  total : Nat
  synth : Bool

/-- The cubic weights of R201 at tau = t / d, in 1/16,384: c_m1, c_0, c_1, c_2. -/
def cubicWeights (t : Int) (d : Nat) : List Int :=
  let w := fun (a3 a2 a1 : Int) => divRound (16384 * (a3 * t ^ 3 + a2 * t ^ 2 * d + a1 * t * d ^ 2)) (2 * d ^ 3)
  let cm1 := w (-1) 2 (-1)
  let c1 := w (-3) 4 1
  let c2 := w 1 (-1) 0
  [cm1, 16384 - cm1 - c1 - c2, c1, c2]

/-- What the taps of one row are chosen from (R200): the groups of the context in the block, the reach and the spacing. -/
structure Reach where
  groups : List PgrGroup
  ended : Bool
  lo : Int
  hi : Int
  target : Int
  spacing : Nat
  maxGap : Nat

/-- The taps of row r in the reach, in grid order. -/
def Reach.taps (x : Reach) (r shift : Nat) : List Tap :=
  x.groups.filterMap (fun g =>
    if x.lo ≤ g.index ∧ (g.index : Int) ≤ x.hi then (g.row r).map (fun l => ⟨g.index, g.mid - r * shift, l⟩) else none)

/-- Is a tap below a grid index missing only because the block starts there? -/
def Reach.atStart (x : Reach) (n : Nat) : Bool := x.groups.all (fun g => decide (n ≤ g.index))
/-- Is a tap above a grid index missing only because the block ends there? -/
def Reach.atEnd (x : Reach) (n : Nat) : Bool := x.ended && x.groups.all (fun g => decide (g.index ≤ n))

/-- The tap with the greatest m at or below the target, and the one with the least m above it. -/
def tapBelow (target : Int) (ts : List Tap) : Option Tap :=
  ts.foldl (fun best t => if t.m ≤ target then (match best with
    | none => some t
    | some b => if b.m < t.m then some t else some b) else best) none
def tapAbove (target : Int) (ts : List Tap) : Option Tap :=
  ts.foldl (fun best t => if target < t.m then (match best with
    | none => some t
    | some b => if t.m < b.m then some t else some b) else best) none

/-- The mix of two taps with the outer taps of cubic mode (R201, R202). -/
def Reach.interpolate (x : Reach) (along : Nat) (ts : List Tap) (a b : Tap) : RowMix :=
  let t := min (divRound ((x.target - a.m) * 65536) (b.m - a.m).toNat) 65535
  let lo := if a.index ≤ b.index then a.index else b.index
  let hi := if a.index ≤ b.index then b.index else a.index
  let gap := decide (x.spacing < hi - lo)
  if along = 1 then ⟨[(65536 - t, a.line), (t, b.line)], 16, gap⟩
  else
    let before := (ts.filter (fun y => y.index < a.index)).getLast?
    let after := ts.find? (fun y => b.index < y.index)
    let c := cubicWeights t 65536
    ⟨[(c.getD 0 0, (before.map (fun y => y.line)).getD a.line), (c.getD 1 0, a.line), (c.getD 2 0, b.line),
      (c.getD 3 0, (after.map (fun y => y.line)).getD b.line)], 14,
     gap || (before.isNone && !x.atStart a.index) || (after.isNone && !x.atEnd b.index)⟩

/-- One row of output n (R200–R202): none where no line of the reach supplies it. -/
def Reach.mix (x : Reach) (along n r shift : Nat) (pitch : Nat) : Option RowMix :=
  let ts := x.taps r shift
  if along = 0 then
    let k := (n : Int) + x.spacing * divRound (r * shift : Nat) pitch
    (ts.find? (fun t => (t.index : Int) == k)).map (fun t => ⟨[(1, t.line)], 0, false⟩)
  else match tapBelow x.target ts, tapAbove x.target ts with
    | none, none => none
    | some a, none => some ⟨[(1, a.line)], 0, !x.atEnd a.index⟩
    | none, some b => some ⟨[(1, b.line)], 0, !x.atStart b.index⟩
    | some a, some b =>
      if (x.maxGap + 1) * x.spacing < (b.index - a.index) + (a.index - b.index) then
        let near := fun (t : Tap) => (t.index - n) + (n - t.index)
        some ⟨[(1, (if near b < near a then b else a).line)], 0, true⟩
      else some (x.interpolate along ts a b)

/-- The value of a row at a column. -/
def RowMix.at_ (m : RowMix) (c : Nat) : Int := rshiftRound ((m.parts.map (fun p => p.1 * p.2.x c)).foldl (· + ·) 0) m.total

/-- The lines of non-zero weight. -/
def RowMix.lines (m : RowMix) : List ULine := m.parts.filterMap (fun p => if p.1 = 0 then none else some p.2)

/-! ### Placement across the product (R205–R207) -/

/-- The weighted input columns of an output column, the divisor being `scale` × z (R206). -/
def lateralTaps (mode q width : Nat) : List (Int × Nat) × Nat :=
  let i := q / 256
  let f := q % 256
  let edge := fun (c : Int) => (max 0 (min c ((width : Int) - 1))).toNat
  if mode = 0 then ([(1, min (divRound q 256).toNat (width - 1))], 1)
  else if mode = 1 then ([(((256 - f : Nat) : Int), edge i), ((f : Nat), edge (i + 1))], 256)
  else
    let c := cubicWeights f 256
    ([(c.getD 0 0, edge ((i : Int) - 1)), (c.getD 1 0, edge i), (c.getD 2 0, edge (i + 1)), (c.getD 3 0, edge (i + 2))], 16384)

/-- The column map of a stream (R205): the entries clamped with the flags of their table grains (R376), how many were, and the device after
the reads. -/
def Dev.columnMap (s : Dev) (u st k : Nat) : List (Nat × Blemish) × Nat × Dev :=
  let count := (s.pgrCfg u).fld Reg.PGR_STREAM_B.g_count u st
  let base := s.fld Reg.PGR_P_MAP.map_base u st k
  let g := s.tableSpan (s.regionOf base) base ((count + 2) / 3)
  let top := (s.pgrWidth u st - 1) * 256
  let qs := (List.range count).map (fun j => bits (g.1.getD (j / 3) (0, Blemish.clear)).1 (24 * (j % 3) + 23) (24 * (j % 3)))
  (qs.zipIdx.map (fun qj => (min qj.1 top, (g.1.getD (qj.2 / 3) (0, Blemish.clear)).2)), (qs.filter (fun q => top < q)).length, g.2)

/-- The groups that an output reaches (R200), read back from the ring. -/
def Dev.pgrReach (s : Dev) (u st k : Nat) (g : PgrGroup) : List PgrGroup × Dev :=
  let sp := s.spacing u g.ctx g.index
  (s.ctxGroups u st g.ctx).foldl (fun acc x =>
    if !x.late ∧ (g.index : Int) - (s.maxGap u k + 2) * sp ≤ x.index ∧ (x.index : Int) ≤ g.index + s.pgrDelta u st k g.ctx g.index * sp then
      let y := acc.2.heldRows (shapeN (s.qShape (s.pgrIn u st))) x.rows
      (acc.1 ++ [{ x with rows := y.1 }], y.2)
    else (acc.1 ++ [x], acc.2)) ([], s)

/-- Output n is computed and written through the unit's buffers (R200–R207, R377). -/
def Dev.pgrWrite (s0 : Dev) (u st k : Nat) (g : PgrGroup) (l : ULine) (stop : Bool) (errs : List BufErr) : Dev :=
  let back := s0.pgrReach u st k g
  let s := back.2
  let l0 := ((back.1.find? (fun x => x.index == g.index)).bind (fun x => x.row 0)).getD l
  let kk := s.pgrK u st
  let sp := s.spacing u g.ctx g.index
  let n := shapeN (s.qShape (s.pgrIn u st))
  let q := s.pgrOut u st
  let x : Reach := { groups := back.1, ended := (s.pgr (pgrInst u st)).ending.isSome
                     lo := (g.index : Int) - (s.maxGap u k + 2) * sp, hi := (g.index : Int) + s.pgrDelta u st k g.ctx g.index * sp
                     target := s.linePos g.index, spacing := sp, maxGap := s.maxGap u k }
  let rows := (List.range kk).map (fun r => x.mix (s.along u k) g.index r (s.rowShift u st) (s.ctxPitch u g.ctx g.index))
  let present := rows.filterMap id
  let synth := present.any (fun m => m.synth) || present.length < kk
  let at_ := fun (c : Nat) =>
    let sum := (present.map (fun m => m.at_ c)).foldl (· + ·) 0
    if present.length < kk then divRound (sum * kk) present.length else sum
  let cm := s.columnMap u st k
  let z := 2 ^ s.fld Reg.PGR_P_MODE.int_shift u 0 k
  let taps := cm.1.map (fun qj => lateralTaps (s.lateral u k) qj.1 (s.pgrWidth u st))
  let ys := taps.map (fun t => divRound ((t.1.map (fun wc => wc.1 * at_ wc.2)).foldl (· + ·) 0) (t.2 * z))
  let lines := present.flatMap RowMix.lines
  let m := shapeN (s.qShape q)
  let used := fun (cols : List Nat) => cols.flatMap (fun j => (((taps.map (fun t => t.1)).getD j []).filter (fun wc => wc.1 != 0)).map (fun wc => wc.2))
  let tag := { l0.tag with flags := l0.tag.flags ||| lfResampled ||| (if 1 < kk then lfIntegrated else 0) }
  let out : ULine := { colon := (tag.grain, l0.colon.2), bracket := l0.bracket, pos := 0, xs := ys, sat := ys.map (fun _ => false)
                       blem := grainFlags m ys.length (fun cols =>
                         Blemish.or (Blemish.all (lines.map (fun l => l.over n (used cols)) ++
                           cols.map (fun j => (cm.1.getD j (0, Blemish.clear)).2))) ⟨false, synth⟩) }
  let plain := out.cells m (s.qShape q) (if stop then cStop else cComma)
  let a := ((cm.2.2.qEmit (.pgr u st) q (strikeLine errs plain)).bufferAlarms 5 (pgrInst u st) (strikeLost errs (plain.length - 2))).bump
    Reg.PGR_STAT2.clipped u st 0 (clippedIn (s.qShape q) ys)
  let b := (a.bump Reg.PGR_STAT2.map_clamped u st 0 cm.2.1).bump Reg.PGR_STAT2.bridged u st 0 (if synth then 1 else 0)
  if lines.any (fun l => l.tag.gen != l0.tag.gen) then b.bump Reg.PGR_STAT2.gen_mixed u st else b

/-! ### Emission (R198, R199, R208, R212) -/

/-- The group of a stream that leaves next: of the first ones of their contexts that are due, the one due first (R195). -/
def Dev.pgrNext (s : Dev) (u st : Nat) : Option PgrGroup :=
  ((s.pgr (pgrInst u st)).groups.filter (fun g => !g.emitted && s.pgrDue u st g &&
    ((s.ctxGroups u st g.ctx).find? (fun x => !x.emitted)).map (fun x => x.index) == some g.index)).foldl
    (fun (best : Option PgrGroup) g => match best with
      | none => some g
      | some b => if g.dueAt.getD s.now < b.dueAt.getD s.now then some g else some b) none

/-- The next group of a stream with what stands committed on its in_q taken into account, since the emission condition is a commit on in_q
(R195, R208). -/
def Dev.pgrNextIn (s : Dev) (u st : Nat) : Option PgrGroup :=
  (s.pgrAhead u st (fun d => (d.pgrNext u st).isSome) (s.ptrDiff (s.pgrIn u st) (s.rp (s.pgrIn u st)) (s.cp (s.pgrIn u st)))).pgrNext u st

/-- Is it the turn of a group of a stream: has no other stream one whose condition was met earlier, or at the same instant in a stream of
a lower number (R195)? -/
def Dev.pgrTurn (s : Dev) (u st : Nat) (g : PgrGroup) : Bool :=
  (List.range 4).all (fun x => x == st || !s.pgrReady u x || ((s.pgrNextIn u x).map (fun y =>
    let a := g.dueAt.getD s.now
    let b := y.dueAt.getD s.now
    decide (a < b) || (a == b && decide (st < x)))).getD true)

/-- A group counts as emitted; groups that no later output reaches are dropped (R209). -/
def Dev.pgrEmitted (s : Dev) (u st : Nat) (g : PgrGroup) : Dev :=
  s.modPgr u st (fun r => { r with groups :=
    (r.groups.map (fun x => if x.index = g.index then { x with emitted := true } else x)).filter (fun x =>
      !(x.emitted && 64 < (r.groups.filter (fun y => y.ctx == x.ctx && y.emitted && before48 x.index y.index)).length)) })

/-- An ellipsis leaves for a group (R198, R199): its tag with resampled and other flags set. -/
def Dev.pgrEllipsis (s : Dev) (u st flags : Nat) (h : Cell) : Dev :=
  s.qWrite (s.pgrOut u st) (ellipsisCell (retag h (fun t => { t with flags := t.flags ||| lfResampled ||| flags })))

/-- Residue mismatches of an output (R212). -/
def Dev.pgrMismatches (s : Dev) (u st idx : Nat) : Nat → Dev
  | 0 => s
  | n + 1 => (s.countAnd Reg.PGR_STAT3.residue_fail u st 1 5 (pgrInst u st) (s.pgrOwner u) 0 idx).pgrMismatches u st idx n

/-- A late line (R198). -/
def Dev.pgrLate (s : Dev) (u st : Nat) (g : PgrGroup) (h : Cell) : Dev :=
  let t := (retag h (fun t => { t with flags := t.flags ||| lfResampled ||| lfLate })).1
  let e := ofSigned 24 (satS 24 (rshiftRound (g.mid - s.linePos g.index) 16))
  ((s.pgrEllipsis u st lfLate h).endLine (s.pgrOut u st) t stFailed caLate).countAnd Reg.PGR_STAT.late u st 1 5 (pgrInst u st)
    (s.pgrOwner u) 0 (g.index + e * 2 ^ 48)

/-- The output of a group: a line, or an ellipsis for one late, missing or failed twice. DEDUCED (log entry 103): it is one item a grid
index, so that the ellipses of rows 1 to K − 1 are absorbed as the lines of those rows are. -/
def Dev.pgrOutput (s : Dev) (u st mismatches : Nat) (g : PgrGroup) (errs : List BufErr) : Dev :=
  let h := ((g.rows.head?).map (fun r => r.head)).getD idleCell
  let b := (s.switchBank pgrWin u g.ctx g.index (s.pgrOwner u)).pgrEmitted u st g
  let r := b.pgr (pgrInst u st)
  let last := r.ending == some true && r.groups.all (fun x => x.emitted)
  let integrated := if 1 < s.pgrK u st then lfIntegrated else 0
  match g.row 0 with
  | none =>
    (match (g.rows.find? (fun (x : RingRow) => x.line.isSome)).filter (fun _ => g.late) with
      | some x => b.pgrLate u st g x.head
      | none => b.pgrEllipsis u st 0 h).pgrClose u st false
  | some l0 =>
    let a := b.pgrMismatches u st g.index mismatches
    if 2 ≤ mismatches then
      let t := (retag h (fun t => { t with flags := t.flags ||| lfResampled ||| integrated })).1
      ((((a.pgrEllipsis u st integrated h).endLine (a.pgrOut u st) t stFailed caResidue).bump Reg.PGR_STAT3.replay_fail u st).alarm 5 0
        (pgrInst u st) (s.pgrOwner u) g.index (Reg.PGR_STAT3.replay_fail.addr u st 0) 16).pgrClose u st false
    else (a.pgrWrite u st (a.bankOf pgrWin u g.ctx g.index) g l0 last errs).pgrClose u st last

/-- The next output of a stream, if its time has come. -/
def Dev.pgrEmit (s : Dev) (u st mismatches : Nat) (errs : List BufErr := []) : Dev :=
  if s.pgrReady u st && !s.qStalled (s.pgrOut u st) then
    match (s.pgrNext u st).filter (s.pgrTurn u st) with
    | none => s
    | some g => s.pgrOutput u st mismatches g errs
  else s

/-- PGR_OUTPUT_EMIT (R208). -/
def execPgrOutputEmit (u : Fin 32) (strm : Strm) (mismatches : Fin 3) (s : State) (errs : List BufErr := []) : Out :=
  s.run (fun d => d.unlessStalled (d.pgrOwner u.val) (fun e => e.pgrEmit u.val strm.val mismatches.val errs))

/-! ### Parameter commits (R211, R213) -/

/-- The grid lines of one turn of the sequence that trigger a head (R129). -/
def Dev.seqLines (s : Dev) (u : Nat) : List Nat :=
  (List.range (s.fld Reg.MARN_SEQ_CFG.seq_len + 1)).filter (fun n => (s.fld Reg.MARN_SEQ.head_mask (seqEntry s.regs n)).testBit u)

/-- The slots that a ring of a bank needs in a stream (R209); Δ of the widest context that triggers the head,
in the sequence of the configuration itself. -/
def Dev.pgrRing (s : Dev) (u st k : Nat) : Nat :=
  let pitch := fun (n : Nat) => spacingIn s.regs u (ctxOfIndex s.regs n) n * s.fld Reg.MARN_PITCH.pitch
  let delta := ((s.seqLines u).map (fun n => s.deltaAt u st k (pitch n))).foldl max 0
  (delta + s.maxGap u k + 4) * s.pgrGroupSlots u st

/-- Has a bank of a resampler valid modes (R211)? -/
def Dev.pgrModeOk (s : Dev) (u k : Nat) : Bool :=
  s.along u k != 3 && s.lateral u k != 3 && s.fld Reg.PGR_P_MODE.win u 0 k != 0 && s.fld Reg.PGR_P_MODE.int_shift u 0 k ≤ 5

/-- Do the rings that a bank requires fit their strides (R209, R211)? -/
def Dev.pgrRingsOk (s : Dev) (u k : Nat) : Bool :=
  (List.range 4).all (fun st => !(s.pgrCfg u).flag Reg.PGR_STREAM_A.enable u st ||
    s.pgrRing u st k ≤ (s.pgrCfg u).fld Reg.PGR_SCRATCH.stride u st)

/-- Is a bank of a resampler valid (R211)? -/
def Dev.pgrBankOk (s : Dev) (u k : Nat) : Bool := s.pgrModeOk u k && s.pgrRingsOk u k

/-- PGR_COMMIT_ARM (R211). -/
def execPgrCommitArm (u : Fin 32) (s : State) : Out :=
  s.run (fun d => d.armBank pgrWin u.val (d.pgrOwner u.val) (d.pgrBankOk u.val 16))

/-- PGR_COMMIT_CANCEL (R211). -/
def execPgrCommitCancel (u : Fin 32) (s : State) : Out := s.run (fun d => d.cancelBank pgrWin u.val)

/-- PGR_BANK_COPY (R213). -/
def execPgrBankCopy (u : Fin 32) (s : State) : Out := s.run (fun d => d.shadowFrom pgrWin u.val (d.pgrOwner u.val))

end Sys2Proof.Machine
end

