-- ==== Sys2Proof/Machine/Jig.lean ====
section
/-! DEFINITION. The Jigsaw units and their collectors (R214–R235). -/

namespace Sys2Proof.Machine

/-- The record of a unit replaced by a function of it. -/
def Dev.modJig (s : Dev) (j : Nat) (f : JigRec → JigRec) : Dev := s.setJig j (f (s.jig j))

/-- A unit's configuration. -/
def Dev.jigCfg (s : Dev) (j : Nat) : RegFile := s.cfg 6 j
def Dev.jigOwner (s : Dev) (j : Nat) : Nat := (s.jigCfg j).fld Reg.JIG_CTRL.owner j
def Dev.jigOut (s : Dev) (j : Nat) : Nat := (s.jigCfg j).fld Reg.JIG_OUT.out_q j
/-- Local inputs (R215). -/
def Dev.jigLocals (s : Dev) (j : Nat) : Nat := (s.jigCfg j).fld Reg.JIG_CTRL.in_count j + 1
/-- The export queue, where export is enabled (R223). -/
def Dev.jigExport (s : Dev) (j : Nat) : Option Nat :=
  if (s.jigCfg j).flag Reg.JIG_EXPORT.enable j then some ((s.jigCfg j).fld Reg.JIG_EXPORT.exp_q j) else none

/-- A side of a unit: local input i (0–15), or a remote side (16 left, 17 right): its queue and the columns it covers. -/
structure Side where
  num : Nat
  queue : Nat
  start : Nat
  count : Nat
  deriving DecidableEq, Repr

/-- The local sides of a configuration. -/
def localSides (c : RegFile) (j : Nat) : List Side :=
  (List.range (c.fld Reg.JIG_CTRL.in_count j + 1)).map (fun i =>
    ⟨i, c.fld Reg.JIG_IN.in_q j i, c.fld Reg.JIG_IN.g_start j i, c.fld Reg.JIG_IN.g_count j i⟩)

/-- The remote sides in use. -/
def remoteSides (c : RegFile) (j : Nat) : List Side :=
  ([0, 1].filter (fun r => c.flag Reg.JIG_REMOTE.enable j r)).map (fun r =>
    ⟨16 + r, c.fld Reg.JIG_REMOTE.rem_q j r, c.fld Reg.JIG_REMOTE.rem_start j r, c.fld Reg.JIG_REMOTE.rem_count j r⟩)

/-- The sides from left to right. -/
def Dev.jigSides (s : Dev) (j : Nat) : List Side :=
  let c := s.jigCfg j
  (remoteSides c j).filter (fun x => x.num == 16) ++ localSides c j ++ (remoteSides c j).filter (fun x => x.num == 17)

/-- The head of a local input (R215): the resampler whose stream writes the queue. -/
def Dev.headOf (s : Dev) (q : Nat) : Option Nat :=
  s.regs.findSome? (fun aw =>
    match Reg.PGR_STREAM_A.locate aw.1 with
    | none => none
    | some h =>
      if fieldOf Reg.PGR_STREAM_A.enable aw.2 = 1 ∧ fieldOf Reg.PGR_STREAM_A.out_q aw.2 = q then some h.i else none)

/-- Does a grid line trigger the head of a side (R217)? A remote side is expected in every round. -/
def Dev.expects (s : Dev) (n : Nat) (x : Side) : Bool :=
  16 ≤ x.num || ((s.headOf x.queue).map (fun h =>
    ((s.lineCfg n).fld Reg.MARN_SEQ.head_mask (seqEntry (s.lineCfg n) n)).testBit h)).getD false

/-- The expected sides of round n (R217). -/
def Dev.expectedSides (s : Dev) (j n : Nat) : List Side := (s.jigSides j).filter (s.expects n)

/-- Is a grid index a round of the unit? -/
def Dev.isRound (s : Dev) (j n : Nat) : Bool := (localSides (s.jigCfg j) j).any (s.expects n)

/-- The first round at or beyond a grid index. -/
def Dev.roundFrom (s : Dev) (j n : Nat) : Option Nat :=
  ((List.range 16).find? (fun k => s.isRound j ((n + k) % 2 ^ 48))).map (fun k => (n + k) % 2 ^ 48)

/-- The first grid index of a block, by its number. -/
def Dev.blockStart (s : Dev) (b : Nat) : Option Nat := (s.marn.bounds.reverse.find? (fun x => x.block == b)).map (fun x => x.index)

/-- The stops of the run of the grid that a block belongs to (R478): of the present run where that has the block, else of earlier ones. -/
def Dev.haltsOf (s : Dev) (b : Nat) : List (Nat × Nat × Nat) :=
  let now := (s.marn.bounds.drop s.marn.runFrom).any (fun x => x.block == b)
  s.marn.halts.filter (fun h => decide (s.marn.runSince < h.2.2) == now)

/-- The grid index at which a block ends: where triggering stopped in it (R233), or where the next begins. -/
def Dev.blockEnd (s : Dev) (b : Nat) : Option Nat :=
  match (s.haltsOf b).find? (fun h => h.1 == b) with
  | some h => some h.2.1
  | none => s.blockStart ((b + 1) % 2 ^ 32)

/-- The first round of the open block that has not been assembled. -/
def Dev.roundBase (s : Dev) (j : Nat) : Option Nat :=
  let r := s.jig j
  match r.pil, r.last with
  | none, _ => none
  | some _, some m => s.roundFrom j ((m + 1) % 2 ^ 48)
  | some c, none => (s.blockStart (pilBlockOf c)).bind (s.roundFrom j)

/-- Is a side behind (R218, R235)? -/
def Dev.behind (s : Dev) (j x : Nat) : Bool :=
  if x < 16 then (s.fld Reg.JIG_STATE.behind j).testBit x else (s.fld Reg.JIG_STATE.rem_behind j).testBit (x - 16)

/-- A side becomes behind, or is so no longer. -/
def Dev.setBehind (s : Dev) (j x : Nat) (v : Bool) : Dev :=
  if s.behind j x = v then s
  else if x < 16 then s.setF Reg.JIG_STATE.behind (s.fld Reg.JIG_STATE.behind j ^^^ 2 ^ x) j
  else s.setF Reg.JIG_STATE.rem_behind (s.fld Reg.JIG_STATE.rem_behind j ^^^ 2 ^ (x - 16)) j

/-- The next item of a side: a local input checks the width too, a remote side the grammar only (R51). -/
def Dev.sidePeek (s : Dev) (x : Side) : Option Scan := s.peekItem x.queue (if x.num < 16 then some x.count else none)

/-- An item of a side is read, and released once the output line has committed (R227); the export never holds the unit back (R223). -/
def Dev.sideTake (s : Dev) (j : Nat) (x : Side) (sc : Scan) : Dev :=
  (s.takeScan x.queue sc).releaseAfter x.queue sc.item [s.jigOut j]

/-- The grid index of the line or ellipsis at the front of a side. -/
def Dev.sideIndex (s : Dev) (x : Side) : Option Nat := ((s.sidePeek x).bind (fun sc => sc.item.tag?)).map (fun g => (Tag.of g).index)

/-- A late line, ellipsis or copy is discarded (R219). -/
def Dev.jigLate (s : Dev) (j : Nat) (x : Side) (sc : Scan) (tag : Grain) : Dev :=
  let a := s.sideTake j x sc
  let t := Tag.of tag
  let isLine : Bool := match sc.item with
    | .line _ _ _ => true
    | _ => false
  let f := if x.num < 16 then Reg.JIG_STAT2.late_discards else Reg.JIG_STAT2.seam_late
  (if x.num < 16 ∧ isLine then a.endLine x.queue tag stFailed caLate else a).countAnd f j 0 1 6 j (s.jigOwner j) 0
    (t.index + t.ordinal * 2 ^ 48 + (if isLine then 0 else 2 ^ 55))

/-- The pilcrow that opens a block goes to out_q and to exp_q (R223, R226). -/
def Dev.jigOpen (s : Dev) (j : Nat) (c : Cell) : Dev :=
  let a := (s.qWrite (s.jigOut j) c).modJig j (fun r => { r with
    pil := some c.1, ended := [], round := none, last := none, skipping := false })
  match a.jigExport j with
  | none => a
  | some q => a.qWrite q c

/-- A pilcrow of a block whose pilcrow was forwarded before: dropped, with an ALARM where it differs (R226). -/
def Dev.jigSame (s : Dev) (j : Nat) (c c0 : Grain) : Dev :=
  if bits c 39 32 = bits c0 39 32 then s
  else s.countAnd Reg.JIG_STAT3.pilcrow_mismatch j 0 2 6 j (s.jigOwner j) 1 (pilBlockOf c)

/-- The run of the grid, by the unit's count, in which a pilcrow of a local input lies: within a run an input's block numbers rise (DEDUCED,
log entry 115). -/
def JigRec.runOf (r : JigRec) (x : Nat) (c : Grain) : Nat :=
  match Sparse.find x r.inBlock with
  | none => r.run
  | some (k, b) => if atOrBefore32 (pilBlockOf c) b then k + 1 else k

/-- A local input enters the block of a pilcrow. -/
def JigRec.enter (r : JigRec) (x : Nat) (c : Grain) : JigRec :=
  { r with inBlock := Sparse.insert x (r.runOf x c, pilBlockOf c) r.inBlock, ended := r.ended.filter (fun y => y != x) }

/-- The first pilcrow of a new run (R478): no round and no block of it has closed. -/
def JigRec.restart (r : JigRec) (x : Nat) (c : Grain) : JigRec :=
  if r.run < r.runOf x c then { r with run := r.runOf x c, closed := none, past := [], last := none } else r

/-- Is a pilcrow of a local input past: of an earlier run, of a block that has closed, or of one before the open block (R226)? -/
def JigRec.isPast (r : JigRec) (x : Nat) (c : Grain) : Bool :=
  let done := ((r.pil.map pilBlockOf).orElse (fun _ => r.closed)).map (fun b => atOrBefore32 (pilBlockOf c) b)
  r.runOf x c < r.run || (r.runOf x c == r.run && done.getD false)

/-- Is it a pilcrow of the open block? -/
def JigRec.isOpen (r : JigRec) (x : Nat) (c : Grain) : Bool := r.runOf x c == r.run && r.pil.map pilBlockOf == some (pilBlockOf c)

/-- Does a local input stand in the open block? -/
def JigRec.inOpen (r : JigRec) (x : Nat) : Bool := r.pil.isSome && Sparse.find x r.inBlock == r.pil.map (fun c => (r.run, pilBlockOf c))

/-- A local input enters the block of a pilcrow. -/
def Dev.jigEnter (s : Dev) (j x : Nat) (c : Grain) : Dev := s.modJig j (fun r => r.enter x c)

/-- A local input ends the open block, if that is where it stands. -/
def Dev.jigEnds (s : Dev) (j x : Nat) : Dev := s.modJig j (fun r => if r.inOpen x then { r with ended := addOnce x r.ended } else r)

/-- The forwarded pilcrow of a closed block, while some local input has not gone past that block. -/
def JigRec.forwarded (r : JigRec) (b : Nat) : Option Grain := r.past.find? (fun c => pilBlockOf c == b)

/-- A late pilcrow of a closed block is dropped, compared as every pilcrow that is not the first (R226). -/
def Dev.jigOld (s : Dev) (j : Nat) (c : Grain) : Dev :=
  match (s.jig j).forwarded (pilBlockOf c) with
  | none => s
  | some c0 => s.jigSame j c c0

/-- Does a local input stand in a block that is not the open one? -/
def Dev.jigStray (s : Dev) (j x : Nat) : Bool := decide (x < 16) && !(s.jig j).inOpen x

/-- Does another local input stand at the pilcrow of an earlier block, so that the blocks open in their order (R226)? -/
def Dev.jigEarlier (s : Dev) (j x : Nat) (c : Grain) : Bool :=
  let r := s.jig j
  (localSides (s.jigCfg j) j).any (fun y => y.num != x && (match s.sidePeek y with
    | some ⟨.pil d _, _, _, _⟩ => !r.isPast y.num d.1 && (r.runOf y.num d.1 < r.runOf x c ||
        (r.runOf y.num d.1 == r.runOf x c && !atOrBefore32 (pilBlockOf c) (pilBlockOf d.1)))
    | _ => false))

/-- May a side still deliver a line of a round below n that is due: a local input, not behind, that has not gone past it (R217, R218)? -/
def Dev.sideDue (s : Dev) (j base n : Nat) (x : Side) : Bool :=
  decide (x.num < 16) && !s.behind j x.num && (s.sidePeek x).isNone && !(s.jig j).ended.contains x.num &&
    (List.range 16).any (fun k => before48 ((base + k) % 2 ^ 48) n && s.expects ((base + k) % 2 ^ 48) x)

/-- The sides for whose lines of lower rounds round n waits, so that rounds are assembled in grid order (R217; DEDUCED, log entry 129). -/
def Dev.lowerDue (s : Dev) (j n : Nat) : List Side :=
  match s.roundBase j with
  | none => []
  | some b => (s.jigSides j).filter (s.sideDue j b n)

/-- The round being assembled: the one opened, once no lower one is due, or the next of the open block. -/
def Dev.nextRound (s : Dev) (j : Nat) : Option Nat :=
  match (s.jig j).round with
  | some n => if (s.lowerDue j n.1).isEmpty then some n.1 else s.roundBase j
  | none => s.roundBase j

/-- Read the punctuation and the late lines at the front of a side (R219, R225, R226); a side recovers from being behind (R218). -/
def Dev.jigAbsorb (fuel : Nat) (s : Dev) (j : Nat) (x : Side) : Dev :=
  match fuel with
  | 0 => s
  | fuel + 1 =>
    match s.sidePeek x with
    | none => s
    | some sc =>
      let taken := s.sideTake j x sc
      match sc.item with
      | .noise => taken.jigAbsorb fuel j x
      | .stop => (if x.num < 16 then taken.jigEnds j x.num else taken).jigAbsorb fuel j x
      | .pil c cut =>
        let r := s.jig j
        if 16 ≤ x.num then taken.jigAbsorb fuel j x
        else if r.isOpen x.num c.1 then
          ((taken.jigSame j c.1 (r.pil.getD 0)).jigEnter j x.num c.1).jigAbsorb fuel j x
        else if r.isPast x.num c.1 then ((taken.jigOld j c.1).jigEnter j x.num c.1).jigAbsorb fuel j x
        else if r.pil.isSome then (if cut then s.jigEnds j x.num else s)
        else if (s.switchDue 6 j (pilBlockOf c.1)).isSome ∨ s.jigEarlier j x.num c.1 then s
        else (((taken.modJig j (fun r => r.restart x.num c.1)).jigOpen j c).jigEnter j x.num c.1).jigAbsorb fuel j x
      | it =>
        let tag := it.tag?.getD 0
        let stale := s.jigStray j x.num || (decide (x.num < 16) && (s.jig j).skipping) ||
          ((s.nextRound j).map (fun n => before48 (Tag.of tag).index n)).getD false
        if stale then
          let a := s.jigLate j x sc tag
          (if it.endsInput ∧ x.num < 16 then a.jigEnds j x.num else a).jigAbsorb fuel j x
        else if (s.nextRound j).isSome then s.setBehind j x.num false else s

/-- Read the front punctuation of every side. -/
def Dev.jigAbsorbAll (s : Dev) (j : Nat) : Dev := (s.jigSides j).foldl (fun d x => d.jigAbsorb 64 j x) s

/-- Has every local input that is not behind ended the open block (R226)? -/
def Dev.jigAllEnded (s : Dev) (j : Nat) : Bool :=
  (List.range (s.jigLocals j)).all (fun i => s.behind j i || (s.jig j).ended.contains i)

/-- The block is closed in the record. -/
def Dev.jigShut (s : Dev) (j : Nat) : Dev :=
  s.modJig j (fun r => { r with
    closed := (r.pil.map pilBlockOf).orElse (fun _ => r.closed), pil := none, ended := [], last := none
    past := (r.pil.toList ++ r.past).filter (fun c => (List.range (s.jigLocals j)).any (fun i =>
      ((Sparse.find i r.inBlock).map (fun kb => kb.1 < r.run || (kb.1 == r.run && !atOrBefore32 (pilBlockOf c) kb.2))).getD true)) })

/-- The end of a block without a line: a bare full stop (R226). -/
def Dev.jigClose (s : Dev) (j : Nat) : Dev :=
  let r := s.jig j
  if r.pil.isSome ∧ r.round.isNone ∧ s.jigAllEnded j ∧ !r.ended.isEmpty then
    let a := s.qWrite (s.jigOut j) bareStop
    (match s.jigExport j with
      | none => a
      | some q => a.qWrite q bareStop).jigShut j
  else s

/-- Has a side delivered round n (R218)? -/
def Dev.delivered (s : Dev) (j n : Nat) (x : Side) : Bool :=
  match s.sidePeek x with
  | none => decide (x.num < 16) && (s.jig j).ended.contains x.num
  | some sc =>
    match sc.item.tag? with
    | some g => !before48 (Tag.of g).index n
    | none => true

/-- May a unit work? -/
def Dev.jigReady (s : Dev) (j : Nat) : Bool :=
  (s.jigCfg j).flag Reg.JIG_CTRL.enable j && s.unitRuns (s.jigOwner j) (336 + j)

/-- The input queues of a configuration. -/
def jigQueues (j : Nat) (c : RegFile) : List Nat := (localSides c j).map (fun x => x.queue)

/-- The unit before each of its commands: the switch to a new configuration, punctuation, and the end of a block. -/
def Dev.jigPrepare (s : Dev) (j : Nat) : Dev :=
  let a := s.switchAt 6 j (s.jig j).pil.isSome (jigQueues j)
  if a.jigReady j then ((a.jigAbsorbAll j).jigClose j).jigAbsorbAll j else a

/-- Does a grid index lie in the open block, as far as its end is known? A remote copy may run ahead of the block (R226). -/
def Dev.inOpenBlock (s : Dev) (j n : Nat) : Bool :=
  (((s.jig j).pil.bind (fun c => s.blockEnd (pilBlockOf c))).map (fun e => before48 n e)).getD true

/-- The grid index whose round is to open: the lowest round of which a side has committed a line or an ellipsis (R217). -/
def Dev.openIndex (s : Dev) (j : Nat) : Option Nat :=
  (((s.jigSides j).filterMap s.sideIndex).filter (fun n => s.inOpenBlock j n && s.isRound j n)).foldl (fun best i => match best with
    | none => some i
    | some b => if before48 i b then some i else some b) (none : Option Nat)

/-- Does a round open that is lower than the one opened before, which is not yet assembled (R217)? -/
def Dev.opensBefore (s : Dev) (j n : Nat) : Bool :=
  match (s.jig j).round with
  | none => true
  | some o => before48 n o.1 && !(s.lowerDue j o.1).isEmpty

/-- A round opens (R217), and every side is marked (R227). -/
def Dev.roundOpen (s : Dev) (j : Nat) : Dev :=
  let a := s.jigPrepare j
  match (a.openIndex j).filter (a.opensBefore j) with
  | none => a
  | some n =>
    if a.jigReady j && (a.jig j).pil.isSome then
      let stamps := ((a.jigSides j).filter (fun x => a.sideIndex x == some n)).map (fun x => a.frontStamp x.queue)
      let at_ := stamps.foldl min ((stamps.head?).getD a.now)
      ((a.jigSides j).foldl (fun d x => d.qMark x.queue) a).modJig j (fun r => { r with round := some (n, at_) })
    else a

/-- ROUND_OPEN (R217). -/
def execRoundOpen (j : Fin 16) (s : State) : Out := s.run (fun d => d.unlessStalled (d.jigOwner j.val) (fun e => e.roundOpen j.val))

/-- SEAM_DEADLINE (R218): sides that have not delivered become behind, among them those that the round waits for on account of lower ones. -/
def Dev.seamDeadline (s : Dev) (j : Nat) : Dev :=
  let a := s.jigPrepare j
  match (a.jig j).round with
  | none => a
  | some (n, t) =>
    if a.jigReady j then
      let b := a.reach (t + (a.jigCfg j).fld Reg.JIG_CTRL.seam_deadline j * Config.xcPs)
      let due := b.lowerDue j n
      ((b.jigSides j).filter (fun x => due.contains x || (b.expects n x && !b.behind j x.num && !b.delivered j n x))).foldl (fun d x =>
        (d.setBehind j x.num true).logAt (if x.num < 16 then Reg.JIG_STATE.behind else Reg.JIG_STATE.rem_behind) j 0 6 j (d.jigOwner j) n) b
    else a

def execSeamDeadline (j : Fin 16) (s : State) : Out := s.run (fun d => d.unlessStalled (d.jigOwner j.val) (fun e => e.seamDeadline j.val))

/-! ### Blending (R220–R223) -/

/-- A present side of a round: the side, its line, and the samples per grain of its queue. -/
structure Present where
  side : Side
  line : ULine
  n : Nat

/-- The present side that has a column. -/
def Present.covers (p : Present) (g : Nat) : Bool := p.side.start ≤ g && g < p.side.start + p.side.count

/-- A sample and its flags at a global column. -/
def Present.x (p : Present) (g : Nat) : Int := p.line.x (g - p.side.start)
def Present.flags (p : Present) (g : Nat) : Blemish := p.line.at_ p.n (g - p.side.start)

/-- The seam between two neighbouring sides (R224, R235). -/
def seamOf (left : Side) : Nat := if left.num = 16 then 15 else left.num
def seamNum (left right : Side) : Nat := if right.num = 17 then 16 else seamOf left

/-- The sample of a column in 1/65,536 with its flags; none where no present side has it (R221). -/
def blendAt (c : RegFile) (j g : Nat) (ps : List Present) : Option (Int × Blemish) :=
  match ps.filter (fun p => p.covers g) with
  | [] => none
  | [p] => some (p.x g * 65536, p.flags g)
  | l :: r :: _ =>
    let k := seamNum l.side r.side
    let lo := c.fld Reg.JIG_SEAM.lo j k
    let hi := c.fld Reg.JIG_SEAM.hi j k
    if g < lo then some (l.x g * 65536, l.flags g)
    else if c.flag Reg.JIG_SEAM.mode j k ∨ hi < g then some (r.x g * 65536, r.flags g)
    else
      let w := divRound (((g - lo + 1) * 65536 : Nat) : Int) (hi - lo + 2)
      some ((65536 - w) * l.x g + w * r.x g,
        Blemish.or (if w = 65536 then Blemish.clear else l.flags g) (if w = 0 then Blemish.clear else r.flags g))

/-- A line over global columns: values before saturation, and the flags of each grain of a shape; a column no side has is zero and
synthetic. -/
def blended (c : RegFile) (j start count shift n : Nat) (ps : List Present) : List Int × List Blemish × Bool :=
  let v := (List.range count).map (fun i => blendAt c j (start + i) ps)
  (v.map (fun y => (y.map (fun z => rshiftRound z.1 (16 + shift))).getD 0),
   grainFlags n count (fun cols => Blemish.all (cols.map (fun i => ((v.getD i none).map (fun z => z.2)).getD ⟨false, true⟩))),
   v.any (fun y => y.isNone))

/-- The range of a shape in a Jigsaw output (R160, R222). -/
def jigRange (sh : Nat) (x : Int) : Int := if sh = 4 then sat24 x else satShape sh x

/-- What a round sends to a queue: a line or its ellipsis, with the block's end. -/
def Dev.jigSend (s : Dev) (q n : Nat) (it : UItem) (stop : Bool) : Dev :=
  s.qWriteAll q (emitCells n (s.qShape q) [it] (if stop then some true else none))

/-- The export copy of a round (R223): skipped and counted where exp_q has no room for all of it. -/
def Dev.jigCopy (s : Dev) (j : Nat) (it : UItem) (stop : Bool) : Dev :=
  match s.jigExport j with
  | none => s
  | some q =>
    let cells := emitCells (shapeN (s.qShape q)) (s.qShape q) [it] (if stop then some true else none)
    if s.occ q + cells.length ≤ s.qSize q ∧ !s.qStalled q then s.qWriteAll q cells
    else
      let a := s.bump Reg.JIG_STAT2.export_drops j
      if stop then a.qWrite q bareStop else a

/-- The lines of a round (R218, R220). -/
def Dev.presents (s : Dev) (j n : Nat) : List Present :=
  (s.expectedSides j n).filterMap (fun x =>
    match (s.sidePeek x).map (fun sc => sc.item) with
    | some (Item.line c br data) =>
      if (Tag.of c.1).index = n then
        some ⟨x, lineOf (s.qShape x.queue) x.count c br data 0, shapeN (s.qShape x.queue)⟩ else none
    | _ => none)

/-- The ellipses of a round on its local sides. -/
def Dev.gones (s : Dev) (j n : Nat) : List Cell :=
  ((s.expectedSides j n).filter (fun x => x.num < 16)).filterMap (fun x =>
    ((s.sidePeek x).bind (fun sc => sc.item.head?)).bind (fun h => if (Tag.of h.1).index = n then some h else none))

/-- The line or ellipsis of round n at the front of a side. -/
def Dev.sideRound (s : Dev) (n : Nat) (x : Side) : Option Scan :=
  (s.sidePeek x).bind (fun sc => if (sc.item.tag?.map (fun g => (Tag.of g).index)) = some n then some sc else none)

/-- Read the line or ellipsis of the round on every side. -/
def Dev.jigConsume (s : Dev) (j n : Nat) : Dev :=
  (s.expectedSides j n).foldl (fun d x =>
    match d.sideRound n x with
    | none => d
    | some sc =>
      let a := d.takeScan x.queue sc
      if sc.item.endsInput ∧ x.num < 16 then a.jigEnds j x.num else a) s

/-- Release what the round was made of, once the output line has committed (R227). -/
def Dev.jigRelease (s : Dev) (j : Nat) (taken : List (Nat × Bool)) : Dev :=
  taken.foldl (fun d qc => d.releaseDue qc.1 qc.2 [d.jigOut j]) s

/-- The tag of a round (R220); its context is that of its inputs' colons (R27). -/
def Dev.roundTag (s : Dev) (j n gen flags : Nat) : Grain :=
  let ctx := ((s.expectedSides j n).findSome? (fun x => (s.sideRound n x).bind (fun sc => sc.item.tag?))).map (fun g => (Tag.of g).ctx)
  ({ ctx := ctx.getD (ctxOfIndex (s.lineCfg n) n), gen := gen, ordinal := (s.jigCfg j).fld Reg.JIG_CTRL.out_ordinal j
     flags := flags, index := n } : Tag).grain

/-- The flags that the colons or ellipses behind a round give its own (R45). -/
def marksOf (cs : List Cell) : Blemish := Blemish.all (cs.map (fun c => Blemish.of c.2))

/-- The round is emitted (R218–R223) through the unit's buffers (R377): `d` is the device after the inputs were taken, `stop` says that the
block ends with it. -/
def Dev.jigWrite (s d : Dev) (j n mismatches : Nat) (stop : Bool) (errs : List BufErr := []) : Dev :=
  let c := s.jigCfg j
  let ps := s.presents j n
  let locals := ps.filter (fun p => p.side.num < 16)
  let owner := s.jigOwner j
  let q := s.jigOut j
  match locals.head? with
  | none =>
    let gs := s.gones j n
    let gen := (gs.head?.map (fun h => (Tag.of h.1).gen)).getD (s.jig j).lastGen
    let flags := gs.foldl (fun x h => x ||| (Tag.of h.1).flags) 0
    let it := UItem.gone (s.roundTag j n gen flags, (marksOf gs).mark cEllipsis)
    (d.jigSend q 4 it stop).jigCopy j it stop
  | some p0 =>
    let gen := p0.line.tag.gen
    let whole := (s.expectedSides j n).all (fun x => ps.any (fun p => p.side.num == x.num))
    let flags := (locals.foldl (fun x p => x ||| p.line.tag.flags) 0 &&& (31 - lfStitched)) ||| (if whole then lfStitched else 0)
    let tag := s.roundTag j n gen flags
    let head := marksOf (locals.map (fun p => p.line.colon))
    let a := (List.range mismatches).foldl (fun e _ => e.countAnd Reg.JIG_STAT3.residue_fail j 0 1 6 j owner 0 n) d
    if 2 ≤ mismatches then
      let it := UItem.gone (tag, head.mark cEllipsis)
      ((((a.jigSend q 4 it stop).jigCopy j it stop).endLine q tag stFailed caResidue).bump Reg.JIG_STAT3.replay_fail j).alarm 6 0 j owner n
        (Reg.JIG_STAT3.replay_fail.addr j 0 0) 16
    else
      let sh := c.fld Reg.JIG_CTRL.out_shape j
      let m := shapeN sh
      let v := blended c j (c.fld Reg.JIG_OUT.out_start j) (c.fld Reg.JIG_OUT.out_count j) (c.fld Reg.JIG_CTRL.out_shift j) m ps
      let line : ULine := { colon := (tag, head.mark cColon), bracket := p0.line.bracket, pos := 0, xs := v.1.map (jigRange sh)
                            sat := v.1.map (fun _ => false), blem := v.2.1 }
      let eq := (s.jigExport j).getD 0
      let en := shapeN (s.qShape eq)
      let e := blended c j (c.fld Reg.JIG_EXPORT.exp_start j) (c.fld Reg.JIG_EXPORT.exp_count j) 0 en locals
      let copy : ULine := { line with xs := e.1, sat := e.1.map (fun _ => false), blem := e.2.1 }
      let plain := emitCells m (s.qShape q) [UItem.line line] (if stop then some true else none)
      let b := ((a.qEmit (.jig j) q (strikeLine errs plain)).bufferAlarms 6 j (strikeLost errs (plain.length - 2))).jigCopy j (.line copy) stop
      let f := ((if whole then b else b.bump Reg.JIG_STAT.half_seams j).bump Reg.JIG_STAT.filled j 0 0 (if v.2.2 then 1 else 0)).bump
        Reg.JIG_STAT3.clipped j 0 0 (v.1.filter (fun x => jigRange sh x != x)).length
      if locals.any (fun p => p.line.tag.gen != gen) then f.countAnd Reg.JIG_STAT2.gen_split j 0 1 6 j owner 0 n else f

/-- The round's record once its line is made. -/
def Dev.roundDone (s : Dev) (j n gen : Nat) : Dev := s.modJig j (fun r => { r with round := none, last := some n, lastGen := gen })

/-- Does the block end with round n: has every local input that is not behind delivered its end once the round's lines are read (R226)? -/
def Dev.endsWith (s : Dev) (j n : Nat) : Bool :=
  let b := ((s.jigConsume j n).roundDone j n 0).jigAbsorbAll j
  b.jigAllEnded j && !(b.jig j).ended.isEmpty

/-- A ready round is blended and written, and its inputs released when the line has committed (R218–R223, R226, R227); the full stop
goes on its line where every input has delivered its end. -/
def Dev.roundReady (s : Dev) (j mismatches : Nat) (errs : List BufErr := []) : Dev :=
  let a := s.jigPrepare j
  match (a.jig j).round with
  | none => a
  | some (n, _) =>
    if a.jigReady j && !a.qStalled (a.jigOut j) && (a.jig j).pil.isSome && (a.lowerDue j n).isEmpty &&
        (a.expectedSides j n).all (fun x => a.behind j x.num || a.delivered j n x) then
      let gen := ((a.presents j n).find? (fun p => p.side.num < 16)).map (fun p => p.line.tag.gen)
      let taken := (a.expectedSides j n).filterMap (fun x => (a.sideRound n x).map (fun sc => (x.queue, sc.item.closes)))
      let stop := a.endsWith j n
      let b := (a.jigConsume j n).roundDone j n (gen.getD (a.jig j).lastGen)
      let c := ((a.jigWrite b j n mismatches stop errs).jigRelease j taken).jigAbsorbAll j
      if stop then c.jigShut j else c.jigClose j
    else a

/-- ROUND_READY (R218). -/
def execRoundReady (j : Fin 16) (mismatches : Fin 3) (s : State) (errs : List BufErr := []) : Out :=
  s.run (fun d => d.unlessStalled (d.jigOwner j.val) (fun e => e.roundReady j.val mismatches.val errs))

/-! ### The collector (R230–R234) -/

/-- The configuration of a collector. -/
def Dev.colCfg (s : Dev) (j : Nat) : RegFile := s.cfg 6 (0x8000 + j)

/-- The inputs of a collector (R230). -/
def colInputs (j : Nat) (c : RegFile) : List Nat :=
  (List.range (c.fld Reg.JIG_COL_CFG.in_count j + 1)).map (fun i => c.fld Reg.JIG_COL_CFG.in_base j + i)

/-- The merge node of collector j (R231). -/
def Dev.colMerge (s : Dev) (j : Nat) : MergeCfg :=
  let c := s.colCfg j
  { key := 1024 + j, out := c.fld Reg.JIG_COL_CFG.out_q j, inputs := colInputs j c, ordered := true, every := true
    expected := fun n => ordinalsOf (c.fld Reg.JIG_COL_EXP.ordinals_low j (ctxOfIndex (s.lineCfg n) n))
      (c.fld Reg.JIG_COL_EXP_HI.ordinals_high j (ctxOfIndex (s.lineCfg n) n))
    context := fun n => ctxOfIndex (s.lineCfg n) n, blockStart := s.blockStart, blockEnd := s.blockEnd
    kind := 6, inst := 0x8000 + j, owner := c.fld Reg.JIG_CTRL.owner j, idx := j
    lateF := Reg.JIG_COL_STAT.late_discards, mismatchF := Reg.JIG_COL_STAT2.pilcrow_mismatch, mismatchCond := 1
    ellipsisF := Reg.JIG_COL_STAT.deadline_ellipses, linesF := some Reg.JIG_COL_STAT.lines
    holds := fun b => (s.switchDue 6 (0x8000 + j) b).isSome }

/-- May a collector work? -/
def Dev.colReady (s : Dev) (j : Nat) : Bool :=
  (s.colCfg j).flag Reg.JIG_COL_CFG.enable j && s.unitRuns ((s.colCfg j).fld Reg.JIG_CTRL.owner j) (336 + j)

/-- A round at or beyond the end of its block is not expected (R233). -/
def Dev.colTrim (s : Dev) (j : Nat) : Dev :=
  let r := s.merge (1024 + j)
  match r.round, (r.pil.map pilBlockOf).bind s.blockEnd with
  | some n, some e => if before48 n e then s else s.setMerge (1024 + j) { r with round := none, lastRound := some n, since := none }
  | _, _ => s

/-- The collector before each of its commands. -/
def Dev.colPrepare (s : Dev) (j : Nat) : Dev :=
  (s.switchAt 6 (0x8000 + j) (s.merge (1024 + j)).pil.isSome (colInputs j)).colTrim j

/-- COLLECTOR_ROUND (R231). -/
def Dev.colTurn (s : Dev) (j : Nat) : Dev :=
  let a := s.colPrepare j
  if a.colReady j then a.mTurn (a.colMerge j) else a

def execCollectorRound (j : Fin 16) (s : State) : Out := s.run (fun d => d.unlessStalled ((d.colCfg j.val).fld Reg.JIG_CTRL.owner j.val) (fun e => e.colTurn j.val))

/-- The instant from which block_deadline runs for a position (R231, R233): the first stop in its block or a later one, or the model's
reaching it. -/
def Dev.colBase (s : Dev) (block : Nat) (x : Int) : Option Nat :=
  match (s.haltsOf block).reverse.find? (fun h => atOrBefore32 block h.1) with
  | some h => some h.2.2
  | none => s.reachedAt x

/-- The block deadline's length. -/
def Dev.colWait (s : Dev) (j : Nat) : Nat := (s.colCfg j).fld Reg.JIG_COL_CFG.block_deadline j * Config.usPs

/-- COLLECTOR_DEADLINE (R231): the round in progress closes. -/
def Dev.colDeadline (s : Dev) (j : Nat) : Dev :=
  let a := (s.colPrepare j)
  let m := a.colMerge j
  if a.colReady j && !a.qStalled m.out then
    let b := a.mAbsorbAll m
    match (b.merge m.key).round, (b.merge m.key).pil with
    | some n, some c =>
      match b.colBase (pilBlockOf c) (b.linePos ((n + 1) % 2 ^ 48)) with
      | none => b
      | some t => ((((b.reach (t + b.colWait j)).mExpire 300 m n).mAbsorbAll m).mCloseBlock m).mAbsorbAll m
    | _, _ => b
  else a

def execCollectorDeadline (j : Fin 16) (s : State) : Out := s.run (fun d => d.unlessStalled ((d.colCfg j.val).fld Reg.JIG_CTRL.owner j.val) (fun e => e.colDeadline j.val))

/-- Every round of the open block closes. -/
def Dev.expireRounds (s : Dev) (m : MergeCfg) : Nat → Dev
  | 0 => s
  | k + 1 =>
    match (s.merge m.key).round with
    | none => s
    | some n => if s.qStalled m.out then s else (s.mExpire 300 m n).expireRounds m k

/-- BLOCK_DEADLINE (R232): inputs that have not ended the block are treated as ended. -/
def Dev.blockDeadline (s : Dev) (j : Nat) : Dev :=
  let a := s.colPrepare j
  let m := a.colMerge j
  match (a.merge m.key).pil with
  | none => a
  | some c =>
    match a.blockEnd (pilBlockOf c) with
    | none => a
    | some e =>
      match a.colBase (pilBlockOf c) (a.linePos e) with
      | none => a
      | some t =>
        if a.colReady j && !a.qStalled m.out then
          let b := (((a.reach (t + a.colWait j)).mAbsorbAll m).expireRounds m 100000).mAbsorbAll m
          let r := b.merge m.key
          let open_ := (List.range m.inputs.length).filter (fun i => !r.ended.contains i)
          if b.qStalled m.out then b
          else if r.pil = some c ∧ !open_.isEmpty then
            let f := (b.setMerge m.key { r with
              ended := List.range m.inputs.length, forced := true
              lagging := r.lagging ++ open_.filter (fun i => r.opened.contains i) }).bump Reg.JIG_COL_STAT2.forced_closures j
            (f.mCloseBlock m).mAbsorbAll m
          else (b.mCloseBlock m).mAbsorbAll m
        else a

def execBlockDeadline (j : Fin 16) (s : State) : Out := s.run (fun d => d.unlessStalled ((d.colCfg j.val).fld Reg.JIG_CTRL.owner j.val) (fun e => e.blockDeadline j.val))

end Sys2Proof.Machine
end

