-- ==== Sys2Proof/Machine/Aba.lean ====
section
/-! DEFINITION. The Abacus units: statistics, histograms, screening and their records (R239–R253). -/

namespace Sys2Proof.Machine

/-- The record of a unit replaced by a function of it. -/
def Dev.modAba (s : Dev) (a : Nat) (f : AbaRec → AbaRec) : Dev := s.setAba a (f (s.aba a))

/-- A unit's configuration. -/
def Dev.abaCfg (s : Dev) (a : Nat) : RegFile := s.cfg 7 a
def Dev.abaOwner (s : Dev) (a : Nat) : Nat := (s.abaCfg a).fld Reg.ABA_CTRL.owner a
def Dev.abaIn (s : Dev) (a : Nat) : Nat := (s.abaCfg a).fld Reg.ABA_CTRL.in_q a
def Dev.abaRecQ (s : Dev) (a : Nat) : Nat := (s.abaCfg a).fld Reg.ABA_CTRL.rec_q a
def Dev.abaWidth (s : Dev) (a : Nat) : Nat := (s.abaCfg a).fld Reg.ABA_CTX.in_width a
def Dev.abaBase (s : Dev) (a : Nat) : Nat := (s.abaCfg a).fld Reg.ABA_COLS.col_base a
/-- Is a context processed (R240)? -/
def Dev.abaCtx (s : Dev) (a c : Nat) : Bool := ((s.abaCfg a).fld Reg.ABA_CTX.ctx_mask a).testBit c
/-- Has a context a histogram (R243)? -/
def Dev.abaHist (s : Dev) (a c : Nat) : Bool :=
  (s.abaCfg a).flag Reg.ABA_CTRL.hist_en a && ((s.abaCfg a).fld Reg.ABA_CTX.hist_ctx_mask a).testBit c

/-- A zone: its number and its columns (R241). -/
def Dev.abaZone (s : Dev) (a z : Nat) : List Nat :=
  (List.range ((s.abaCfg a).fld Reg.ABA_ZONE.z_count a z + 1)).map (fun i => (s.abaCfg a).fld Reg.ABA_ZONE.z_start a z + i)

/-- The enabled zones, in ascending order. -/
def Dev.abaZones (s : Dev) (a : Nat) : List Nat :=
  (List.range 64).filter (fun z => (s.abaCfg a).flag Reg.ABA_ZONE.enable a z)

/-! ### Zones, histograms and accumulations (R242–R246) -/

/-- A zone before its first sample. -/
def ZoneAcc.init : ZoneAcc := ⟨0, 0, 0, 0, 0, false, Blemish.clear⟩

/-- A sample enters a zone (R242): every sum is exact, and one that would pass its range saturates. -/
def ZoneAcc.add (z : ZoneAcc) (y : Int × Blemish) : ZoneAcc :=
  let x := y.1
  let n := z.count + 1
  let t := z.sum + x
  let sq := z.squares + x.natAbs * x.natAbs
  { count := min n (2 ^ 72 - 1), sum := satS 72 t, squares := min sq (2 ^ 72 - 1)
    least := if z.count = 0 then x else min z.least x, most := if z.count = 0 then x else max z.most x
    saturated := z.saturated || decide (2 ^ 72 ≤ n) || satS 72 t != t || decide (2 ^ 72 ≤ sq)
    blem := z.blem.or y.2 }

/-- The accumulation of a context. -/
def Dev.abaAcc (s : Dev) (a c : Nat) : Accum := (Sparse.find c (s.aba a).accums).getD Accum.init

/-- It replaced. -/
def Dev.setAcc (s : Dev) (a c : Nat) (x : Accum) : Dev := s.modAba a (fun r => { r with accums := Sparse.insert c x r.accums })

/-- A sample of the histogram zone (R243). -/
def Accum.bin (x : Accum) (lo : Int) (shift bins : Nat) (v : Int) : Accum :=
  if v < lo then { x with below := min (x.below + 1) (2 ^ 32 - 1) }
  else
    let b := (v - lo).toNat >>> shift
    if bins ≤ b then { x with above := min (x.above + 1) (2 ^ 32 - 1) }
    else { x with bins := Sparse.insert b (min ((Sparse.find b x.bins).getD 0 + 1) (2 ^ 32 - 1)) x.bins }

/-- Where a sample is counted: its bin, 4096 below, 4097 above. -/
def binOf (lo : Int) (shift bins : Nat) (v : Int) : Nat :=
  if v < lo then 4096 else if bins ≤ (v - lo).toNat >>> shift then 4097 else (v - lo).toNat >>> shift

/-- The blemish of the samples counted in a place (R45). -/
def Accum.blemAt (x : Accum) (b : Nat) : Blemish := (Sparse.find b x.flags).getD Blemish.clear

/-- A sample's blemish joins that of the place it is counted in (R45). -/
def Accum.taint (x : Accum) (b : Nat) (f : Blemish) : Accum :=
  if f = Blemish.clear then x else { x with flags := Sparse.insert b ((x.blemAt b).or f) x.flags }

/-- A line's exposure generation is counted (R246): up to eight entries, further ones in the eighth. -/
def Accum.addGen (x : Accum) (g : Nat) : Accum :=
  if x.gens.any (fun e => e.1 == g) then { x with gens := x.gens.map (fun e => if e.1 = g then (e.1, min (e.2 + 1) (2 ^ 32 - 1)) else e) }
  else if x.gens.length < 8 then { x with gens := x.gens ++ [(g, 1)] }
  else { x with gens := modifyAt (fun e => (e.1, min (e.2 + 1) (2 ^ 32 - 1))) 7 x.gens, genOver := true }

/-- The columns whose samples count: all, or those of grains that are not suspect (R242). -/
def Dev.abaCounts (s : Dev) (a n : Nat) (l : ULine) (c : Nat) : Bool :=
  !((s.abaCfg a).flag Reg.ABA_CTRL.skip_suspect a && (l.at_ n c).sus)

/-- A line enters the accumulation of its context (R242–R244). -/
def Dev.accumulate (s : Dev) (a n : Nat) (l : ULine) (x : Accum) : Accum :=
  let t := l.tag
  let w := s.abaWidth a
  let f := Blemish.all (Blemish.of l.colon.2 :: Blemish.of l.bracket.2 :: l.blem)
  let ys := fun z => ((s.abaZone a z).filter (fun c => c < w && s.abaCounts a n l c)).map (fun c => (l.x c, l.at_ n c))
  let zones := (s.abaZones a).foldl (fun m z =>
    Sparse.insert z ((ys z).foldl ZoneAcc.add ((Sparse.find z x.zones).getD ZoneAcc.init)) m) x.zones
  let y := if s.abaHist a t.ctx then
      let lo := (s.abaCfg a).sfld Reg.ABA_COLS.hist_lo a
      let shift := (s.abaCfg a).fld Reg.ABA_COLS.hist_shift a
      let bins := 2 ^ (s.abaCfg a).fld Reg.ABA_COLS.bins_log2 a
      (ys ((s.abaCfg a).fld Reg.ABA_COLS.hist_zone a)).foldl (fun h v =>
        (h.bin lo shift bins v.1).taint (binOf lo shift bins v.1) v.2) x
    else x
  { y.addGen t.gen with
    zones := zones, used := x.used + 1, suspects := x.suspects + (if f.sus then 1 else 0)
    synthetics := x.synthetics + (if f.syn then 1 else 0), first := some (x.first.getD t.index), last := t.index
    firstGen := if x.used = 0 then t.gen else x.firstGen, head := x.head.or (Blemish.of l.colon.2) }

/-! ### Records (R245–R250) -/

/-- A record line: its tag with the blemish of the colons it comes from, its bracket, and its nouns with theirs (R45). -/
structure AbaLine where
  tag : Tag
  head : Blemish
  bracket : Option Cell
  nouns : List (Grain × Blemish)

/-- The cells of a record line that ends with a code; a record without a bracket of its own takes the time of writing. -/
def AbaLine.cells (l : AbaLine) (now : Grain) (endCode : Nat) : List Cell :=
  [(l.tag.grain, l.head.mark cColon), l.bracket.getD (now, mkCode cBracket)] ++
    l.nouns.zipIdx.map (fun gi => (gi.1.1, gi.1.2.mark (if gi.2 + 1 = l.nouns.length then endCode else cNoun)))

/-- Records are written to rec_q: before the first of a block its pilcrow, and at the end of the block a full stop on the last of
them, or a bare one (R51, R247). -/
def Dev.abaPut (s : Dev) (a : Nat) (ls : List AbaLine) (final : Bool) : Dev :=
  let r := s.aba a
  let q := s.abaRecQ a
  let pil : List Cell := match r.pil with
    | some g => if r.opened then [] else [(g, mkCode cPilcrow)]
    | none => []
  let cells := ls.zipIdx.flatMap (fun li => li.1.cells s.bracket (if final ∧ li.2 + 1 = ls.length then cStop else cComma))
  if ls.isEmpty then (if final ∧ r.opened then s.qWrite q bareStop else s)
  else (s.stamped.qWriteAll q (pil ++ cells)).modAba a (fun r => { r with opened := true })

/-- The header grains H0 to H3 (R247). -/
def Dev.abaHeader (s : Dev) (a kind : Nat) (x : Accum) (split part : Bool) (zones lastIdx : Nat) : List (Grain × Blemish) :=
  let g := (s.aba a).pil.getD 0
  let mixed := 2 ≤ x.gens.length
  let flag := fun (b : Bool) (i : Nat) => if b then 2 ^ i else 0
  let flags := flag mixed 0 + flag (split || x.part != 0) 1 + flag x.genOver 2 + flag x.excluded 3
    + flag (x.zones.any (fun z => z.2.saturated)) 4 + flag (x.used == 0) 5 + flag part 6
  List.map (fun y => (y, x.head)) [BitVec.ofNat 72 (kind * 2 ^ 64 + pilBlockOf g * 2 ^ 32 + a % 256 * 2 ^ 24 + x.part % 256 * 2 ^ 16
     + (if kind = 1 ∧ mixed then x.gens.length * 2 ^ 12 else 0) + flags),
   BitVec.ofNat 72 (x.used % 2 ^ 32 * 2 ^ 40 + x.ellipses % 2 ^ 32 * 2 ^ 8 + zones),
   BitVec.ofNat 72 (lastIdx % 2 ^ 48 * 2 ^ 24 + bits g 39 36 * 2 ^ 20),
   BitVec.ofNat 72 (x.suspects % 2 ^ 32 * 2 ^ 40 + x.synthetics % 2 ^ 32 * 2 ^ 8)]

/-- The four grains of a zone (R242, R247). -/
def zoneGrains (z : ZoneAcc) : List (Grain × Blemish) :=
  let mean := if z.count = 0 then 0 else satS 24 (divRound z.sum z.count)
  List.map (fun y => (y, z.blem)) [BitVec.ofNat 72 ((if z.count = 0 then 2 ^ 64 else 0) + (if z.saturated then 2 ^ 65 else 0) + z.count % 2 ^ 64),
   BitVec.ofNat 72 (ofSigned 72 z.sum), BitVec.ofNat 72 z.squares,
   BitVec.ofNat 72 (ofSigned 24 z.least * 2 ^ 48 + ofSigned 24 z.most * 2 ^ 24 + ofSigned 24 mean)]

/-- The colon of a record of a context, and the last grid index that it reports (R246, R247): for an empty record the generation and
the last grid index are free, and so is a boundary that the device does not know. -/
def Dev.abaColon (s : Dev) (a c : Nat) (x : Accum) : Tag × Nat × Dev :=
  let f := s.drawFree 72
  let start := (s.blockStart (pilBlockOf ((s.aba a).pil.getD 0))).getD (bits f.1 47 0)
  let ord := (s.abaCfg a).fld Reg.ABA_CTRL.rec_ordinal a
  if x.used = 0 then (⟨c, bits f.1 55 48, ord, 0, start⟩, bits (f.2.drawFree 72).1 47 0, (f.2.drawFree 72).2)
  else (⟨c, x.firstGen, ord, 0, x.first.getD start⟩, x.last, s)

/-- The statistics record of a context (R247). -/
def Dev.statRecord (s : Dev) (a c : Nat) (split part : Bool) : AbaLine × Dev :=
  let x := s.abaAcc a c
  let zs := s.abaZones a
  let t := s.abaColon a c x
  let mixed := 2 ≤ x.gens.length
  let gens := if mixed then x.gens.map (fun e => (BitVec.ofNat 72 (e.1 % 256 * 2 ^ 64 + e.2 % 2 ^ 32 * 2 ^ 32), x.head)) else []
  let accs := zs.map (fun z => (Sparse.find z x.zones).getD ZoneAcc.init)
  let d := t.2.2.bump Reg.ABA_STAT2.saturated a 0 0 (accs.filter (fun z => z.saturated)).length
  (⟨t.1, x.head, none, s.abaHeader a 1 x split part zs.length t.2.1 ++ gens ++ accs.flatMap zoneGrains⟩,
   if mixed then d.bump Reg.ABA_STAT2.mixed a else d)

/-- The histogram record of a context (R247). -/
def Dev.histRecord (s : Dev) (a c : Nat) (split part : Bool) : AbaLine × Dev :=
  let x := s.abaAcc a c
  let t := s.abaColon a c x
  let lg := (s.abaCfg a).fld Reg.ABA_COLS.bins_log2 a
  let n := fun b => (Sparse.find b x.bins).getD 0
  let h4 := (BitVec.ofNat 72 (x.below * 2 ^ 40 + x.above * 2 ^ 8 + lg * 2 ^ 4), (x.blemAt 4096).or (x.blemAt 4097))
  (⟨t.1, x.head, none, s.abaHeader a 2 x split part ((s.abaCfg a).fld Reg.ABA_COLS.hist_zone a) t.2.1 ++ [h4] ++
     (List.range (2 ^ lg / 2)).map (fun i =>
       (BitVec.ofNat 72 (n (2 * i) + n (2 * i + 1) * 2 ^ 32), (x.blemAt (2 * i)).or (x.blemAt (2 * i + 1))))⟩,
   if 2 ≤ x.gens.length then t.2.2.bump Reg.ABA_STAT2.mixed a else t.2.2)

/-- The records of some contexts: the statistics of each, then the histograms (R245). -/
def Dev.abaRecords (s : Dev) (a : Nat) (cs : List Nat) (split part : Bool) : List AbaLine × Dev :=
  let step := fun (f : Dev → Nat → AbaLine × Dev) (acc : List AbaLine × Dev) (c : Nat) =>
    let r := f acc.2 c
    (acc.1 ++ [r.1], r.2)
  let stats := if (s.abaCfg a).flag Reg.ABA_CTRL.stats_en a then cs.filter (s.abaCtx a) else []
  (cs.filter (s.abaHist a)).foldl (step (fun d c => d.histRecord a c split part))
    (stats.foldl (step (fun d c => d.statRecord a c split part)) ([], s))

/-- The end of a block (R245): candidates of its last line, then the records of every context; the accumulations close. -/
def Dev.abaClose (s : Dev) (a : Nat) (cands : List AbaLine) (part : Bool) : Dev :=
  let r := s.abaRecords a (List.range 16) false part
  (r.2.abaPut a (cands ++ r.1) true).modAba a (fun x => { x with pil := none, accums := [], opened := false })

/-- A new generation in split policy closes the part of a context and opens the next (R246). -/
def Dev.abaSplit (s : Dev) (a : Nat) (t : Tag) : Dev :=
  let x := s.abaAcc a t.ctx
  if (s.abaCfg a).flag Reg.ABA_CTRL.gen_policy a ∧ x.used ≠ 0 ∧ x.firstGen ≠ t.gen then
    let r := s.abaRecords a [t.ctx] true false
    ((r.2.abaPut a r.1 false).bump Reg.ABA_STAT2.splits a).setAcc a t.ctx { Accum.init with part := x.part + 1 }
  else s

/-! ### Screening (R248–R250) -/

/-- A field of the screening settings in force. -/
def Dev.screenFld (s : Dev) (a : Nat) (f : Reg.Fld) : Nat := fieldOf f (s.aba a).screen

/-- The slot of reference grain j of a context (R248). -/
def Dev.refSlot (s : Dev) (a c j : Nat) : Nat :=
  (s.abaCfg a).fld Reg.ABA_REF.ref_base a + c * (s.abaCfg a).fld Reg.ABA_REF.ref_stride a + j

/-- The reference of a context, column by column, u18.8, with the blemish of its grain. -/
def Dev.fetchRef (s : Dev) (a c : Nat) : List (Nat × Blemish) × Dev :=
  let g := s.tableSpan (s.regionOf ((s.abaCfg a).fld Reg.ABA_REF.ref_base a)) (s.refSlot a c 0) ((s.abaWidth a + 1) / 2)
  ((g.1.flatMap (fun x => [(bits x.1 25 0, x.2), (bits x.1 51 26, x.2)])).take (s.abaWidth a), g.2)

/-- The reference of a context written back: a slot outside the region takes nothing. -/
def Dev.storeRef (s : Dev) (a c : Nat) (rs : List (Nat × Blemish)) : Dev :=
  let at_ := fun i => rs.getD i (0, Blemish.clear)
  match s.regionOf ((s.abaCfg a).fld Reg.ABA_REF.ref_base a) with
  | none => s
  | some r => (List.range ((rs.length + 1) / 2)).foldl (fun d j =>
      if s.refSlot a c j < s.fld Reg.QD_BASE.base r * 64 + s.qSize r then
        d.writeSlot (s.refSlot a c j) (BitVec.ofNat 72 ((at_ (2 * j)).1 + (at_ (2 * j + 1)).1 * 2 ^ 26),
          ((at_ (2 * j)).2.or (at_ (2 * j + 1)).2).mark cNoun)
      else d) s

/-- A run of deviating columns (R249): its sign, its first and last column, the non-deviating columns since the last, and the column
and deviation of the peak. -/
structure DevRun where
  up : Bool
  first : Nat
  last : Nat
  gap : Nat
  peakCol : Nat
  peak : Int

/-- A scan of the columns: the run that is open and the runs closed, latest first. -/
abbrev RunScan := Option DevRun × List DevRun

/-- The open run closes. -/
def closeRun (r : RunScan) : RunScan := (none, r.1.toList ++ r.2)

/-- Column c with deviation d (R249). -/
def runStep (thr gap : Nat) (r : RunScan) (c : Nat) (d : Int) (sus : Bool) : RunScan :=
  if sus then r
  else if thr < d.natAbs then
    let up := decide (0 < d)
    match r.1 with
    | some o =>
      if o.up = up then
        (some { o with last := c, gap := 0, peakCol := if o.peak.natAbs < d.natAbs then c else o.peakCol
                       peak := if o.peak.natAbs < d.natAbs then d else o.peak }, r.2)
      else (some ⟨up, c, c, 0, c, d⟩, o :: r.2)
    | none => (some ⟨up, c, c, 0, c, d⟩, r.2)
  else
    match r.1 with
    | some o => if gap < o.gap + 1 then closeRun r else (some { o with gap := o.gap + 1 }, r.2)
    | none => r

/-- The runs of a line, in column order. -/
def runsOf (thr gap minRun : Nat) (ds : List (Int × Bool)) : List DevRun :=
  ((closeRun (ds.zipIdx.foldl (fun r di => runStep thr gap r di.2 di.1.1 di.1.2) (none, []))).2.reverse).filter
    (fun o => minRun ≤ o.last + 1 - o.first)

/-- What the body of a candidate record reports: the run, the reference at its peak, and the blemishes of the run's and of the peak's
grains (R45). -/
structure CandBody where
  run : DevRun
  ref : Int
  runBlem : Blemish
  peakBlem : Blemish

/-- A candidate record (R250): run i of a line, with the excess in the last. -/
def Dev.candRecord (s : Dev) (a : Nat) (l : ULine) (i excess : Nat) (body : Option CandBody) : AbaLine :=
  let t := l.tag
  let head := Blemish.of l.colon.2
  let col := fun c => (s.abaBase a + c) % 2 ^ 24
  let c0 := BitVec.ofNat 72 (3 * 2 ^ 64 + pilBlockOf ((s.aba a).pil.getD 0) * 2 ^ 32 + a % 256 * 2 ^ 24 + i % 256 * 2 ^ 16
    + min excess 255 * 2 ^ 8 + t.ordinal)
  let rest : List (Grain × Blemish) := match body with
    | none => [(0, Blemish.clear), (0, Blemish.clear)]
    | some b =>
      [(BitVec.ofNat 72 (col b.run.first * 2 ^ 48 + col b.run.last * 2 ^ 24 + ofSigned 24 (satS 24 b.run.peak)), b.runBlem),
       (BitVec.ofNat 72 (col b.run.peakCol * 2 ^ 48 + ofSigned 24 b.ref * 2 ^ 24 + ofSigned 24 (l.x b.run.peakCol)), b.peakBlem)]
  ⟨{ t with ordinal := (s.abaCfg a).fld Reg.ABA_CTRL.rec_ordinal a }, head, some l.bracket, (c0, head) :: rest⟩

/-- The reference after a line (R248), saturated to u18.8. -/
def refNext (k : Nat) (r : Nat) (x : Int) : Nat := (satU 26 (r + rshiftRound (x * 256 - r) k)).toNat

/-- Screening of a line (R248, R249): the candidates and the device with its references moved on. -/
def Dev.screenLine (s : Dev) (a n : Nat) (l : ULine) : List AbaLine × Dev :=
  let c := l.tag.ctx
  let reseed := (s.fld Reg.ABA_SCREEN.reseed a).testBit c
  if !(s.abaCfg a).flag Reg.ABA_CTRL.screen_en a then ([], s)
  else if reseed ∨ !(s.aba a).seeded.contains c then
    let b := (s.storeRef a c (l.xs.zipIdx.map (fun xi => ((satU 26 (xi.1 * 256)).toNat, l.at_ n xi.2)))).modAba a (fun r =>
      { r with seeded := if r.seeded.contains c then r.seeded else c :: r.seeded })
    ([], if reseed then b.setF Reg.ABA_SCREEN.reseed (s.fld Reg.ABA_SCREEN.reseed a - 2 ^ c) a else b)
  else
    let f := s.fetchRef a c
    let ref := fun i => f.1.getD i (0, Blemish.clear)
    let both := fun i => (l.at_ n i).or (ref i).2
    let near := fun i => rshiftRound (((ref i).1 : Nat) : Int) 8
    let ds := l.xs.zipIdx.map (fun xi => (xi.1 - near xi.2, (l.at_ n xi.2).sus))
    let runs := runsOf (s.screenFld a Reg.ABA_SCREEN.thr) (s.screenFld a Reg.ABA_SCREEN.gap) (s.screenFld a Reg.ABA_SCREEN.min_run + 1) ds
    let frozen := fun i => s.screenFld a Reg.ABA_SCREEN.freeze_runs = 1 ∧ runs.any (fun o => o.first ≤ i && i ≤ o.last)
    let refs := l.xs.zipIdx.map (fun xi =>
      if (l.at_ n xi.2).sus ∨ frozen xi.2 then ref xi.2 else (refNext (s.screenFld a Reg.ABA_SCREEN.k) (ref xi.2).1 xi.1, both xi.2))
    let cap := s.screenFld a Reg.ABA_SCREEN.cand_cap
    let excess := runs.length - cap
    let kept := runs.take cap
    let body := fun (o : DevRun) => (⟨o, near o.peakCol,
      Blemish.all (((List.range (o.last + 1 - o.first)).map (fun i => o.first + i)).filterMap (fun i =>
        if (l.at_ n i).sus then none else some (both i))), both o.peakCol⟩ : CandBody)
    let recs := if cap = 0 then (if excess = 0 then [] else [s.candRecord a l 0 excess none])
      else kept.zipIdx.map (fun oi => s.candRecord a l oi.2 (if oi.2 + 1 = kept.length then excess else 0) (some (body oi.1)))
    (recs, ((f.2.storeRef a c refs).bump Reg.ABA_CAND.candidates a 0 0 recs.length).bump Reg.ABA_CAND.overflow_runs a 0 0 excess)

/-! ### Lines (R239, R240, R244, R251, R252) -/

/-- Residue mismatches of a line: each counted and logged (R252). -/
def Dev.abaMismatches (s : Dev) (a idx : Nat) : Nat → Dev
  | 0 => s
  | n + 1 => (s.countAnd Reg.ABA_STAT.residue_fail a 0 1 7 a (s.abaOwner a) 0 idx).abaMismatches a idx n

/-- A present line of a processed context: its candidates and the device after it (R244, R246, R248, R252). -/
def Dev.abaUse (s : Dev) (a n mismatches : Nat) (l : ULine) : List AbaLine × Dev :=
  let t := l.tag
  let b := s.abaMismatches a t.index mismatches
  if 2 ≤ mismatches then
    ([], (b.setAcc a t.ctx { b.abaAcc a t.ctx with excluded := true }).countAnd Reg.ABA_STAT2.replay_fail a 0 2 7 a (b.abaOwner a) 0 t.index)
  else
    let d := b.abaSplit a t
    let e := (d.setAcc a t.ctx (d.accumulate a n l (d.abaAcc a t.ctx))).bump Reg.ABA_STAT.lines a
    e.screenLine a n l

/-- A line has been read to its end: it ends DONE, and its records follow (R245, R251, R362). -/
def Dev.abaLine (s : Dev) (a mismatches : Nat) (q : Nat) (sc : Scan) (colon br : Cell) (data : List Cell) : Dev :=
  let sh := s.qShape q
  let l := lineOf sh (s.abaWidth a) colon br data 0
  let b := s.takeScan q sc
  let r : List AbaLine × Dev :=
    if s.abaCtx a l.tag.ctx then b.abaUse a (shapeN sh) mismatches l else ([], b.bump Reg.ABA_STAT.lines_skipped a)
  let d := if endsBlock data then r.2.abaClose a r.1 false else r.2.abaPut a r.1 false
  (d.endLine q colon.1 stDone 0).releaseItem q sc.item

/-- A pilcrow opens the accumulations of its block (R244) and brings new screening settings into force (R254). -/
def Dev.abaPil (s : Dev) (a : Nat) (c : Cell) : Dev :=
  (s.switchUnit 7 a (pilBlockOf c.1)).modAba a (fun r => { r with
    pil := some c.1, accums := [], opened := false, skipping := false, screen := s.regs.word (Reg.ABA_SCREEN.k.addr a 0 0) })

/-- May a unit work: enabled, its partition running, its record queue taking writes? -/
def Dev.abaReady (s : Dev) (a : Nat) : Bool :=
  (s.abaCfg a).flag Reg.ABA_CTRL.enable a && s.unitRuns (s.abaOwner a) (352 + a) && !s.qStalled (s.abaRecQ a)

/-- A line outside any block, as after a drain (R253), is read past: it is counted where its context is not processed (R240), and it has been
read to its end (R362). -/
def Dev.abaPast (s : Dev) (a q : Nat) (sc : Scan) (colon : Cell) : Dev :=
  let b := s.takeScan q sc
  ((if s.abaCtx a (Tag.of colon.1).ctx then b else b.bump Reg.ABA_STAT.lines_skipped a).endLine q colon.1 stDone 0).releaseItem q sc.item

/-- The unit reads one item of in_q (R239, R251), errors its data grains in the unit's buffers (R376, R377). -/
def Dev.abaTurn (s : Dev) (a mismatches : Nat) (errs : List BufErr := []) : Dev :=
  let b := s.switchAt 7 a (s.aba a).pil.isSome (fun c => [c.fld Reg.ABA_CTRL.in_q a])
  if b.abaReady a then
    let q := b.abaIn a
    match b.peekItem q (some (b.abaWidth a)) with
    | none => b
    | some sc0 =>
      let sc := { sc0 with item := sc0.item.strike errs }
      let b := b.bufferAlarms 7 a (sc0.item.lost errs)
      let away := (b.takeScan q sc).releaseItem q sc.item
      match sc.item with
      | .pil c cut =>
        let d := if cut ∧ (b.aba a).pil.isSome then b.abaClose a [] false else b
        ((d.takeScan q sc).abaPil a c).releaseItem q sc.item
      | .line colon br data => if (b.aba a).pil.isNone then b.abaPast a q sc colon else b.abaLine a mismatches q sc colon br data
      | .ell c =>
        let t := Tag.of c.1
        if (b.aba a).pil.isSome ∧ b.abaCtx a t.ctx then
          away.setAcc a t.ctx { away.abaAcc a t.ctx with
            ellipses := (away.abaAcc a t.ctx).ellipses + 1, head := (away.abaAcc a t.ctx).head.or (Blemish.of c.2) }
        else if b.abaCtx a t.ctx then away else away.bump Reg.ABA_STAT.lines_skipped a
      | .stop => if (b.aba a).pil.isSome then ((b.takeScan q sc).abaClose a [] false).releaseItem q sc.item else away
      | .bad _ => away
      | .noise => away
  else b

/-- ABACUS_LINE (R251). -/
def execAbacusLine (a : Fin 64) (mismatches : Fin 3) (s : State) (errs : List BufErr := []) : Out :=
  s.run (fun d => d.unlessStalled (d.abaOwner a.val) (fun e => e.abaTurn a.val mismatches.val errs))

/-- ABACUS_RESEED (R248). -/
def execAbacusReseed (a : Fin 64) (mask : BitVec 16) (s : State) : Out :=
  s.run (fun d => d.setF Reg.ABA_SCREEN.reseed (d.fld Reg.ABA_SCREEN.reseed a.val ||| mask.toNat) a.val)

/-- The records of the open accumulations, with partial set (R253). -/
def Dev.abaDrain (s : Dev) (a : Nat) : Dev :=
  if (s.aba a).pil.isSome then (s.abaClose a [] true).modAba a (fun r => { r with skipping := true }) else s

/-- The open accumulations are discarded, each with a LOG event (R253). -/
def Dev.abaDiscard (s : Dev) (a : Nat) : Dev :=
  match (s.aba a).pil with
  | none => s.modAba a (fun r => { r with skipping := true })
  | some g => ((List.range 16).filter (s.abaCtx a)).foldl (fun d c => d.log 7 a (d.abaOwner a) (pilBlockOf g + c * 2 ^ 32))
      (s.modAba a (fun r => { r with pil := none, accums := [], opened := false, skipping := true }))

end Sys2Proof.Machine
end

