-- ==== Sys2Proof/Machine/Valid.lean ====
section
/-! DEFINITION. Valid field values (R479): the ranges that the register tables and the rules of the fields give. -/

namespace Sys2Proof.Machine

/-- A field with its least and greatest valid value; a field that is not listed takes every value. -/
abbrev Range := Reg.Fld × Nat × Nat

/-- The ranges of the queue fabric, the ports and Marionette. -/
def rangesA : List Range :=
  [(Reg.QD_BASE.size_log2, 6, 22), (Reg.QD_BASE.shape, 0, 5), (Reg.QD_BASE.tap_mode, 0, 2), (Reg.QFAB_CTRL.age_limit, 8, 255),
   (Reg.SPORT_CTRL.framing, 0, 2), (Reg.SPORT_STREAM_A.user_bits, 0, 4), (Reg.SPORT_STREAM_B.col_count, 1, 32768),
   (Reg.SPORT_CCI_CFG.speed, 0, 2), (Reg.MARN_CTRL.anchor, 0, 2), (Reg.MARN_ENC_CHK.accel_window, 1, 1023),
   (Reg.MARN_PITCH.pitch, 1, 2 ^ 64 - 1), (Reg.MARN_BLOCK.announce, 16, 255), (Reg.MARN_HEAD.min_period, 2500, 65535)]

/-- The ranges of the tiles and the Kaleidoscope units. -/
def rangesB : List Range :=
  [(Reg.TILE_CTRL.op0, 0, 12), (Reg.TILE_CTRL.op1, 0, 12), (Reg.TILE_CTRL.op2, 0, 12), (Reg.TILE_CTRL.op3, 0, 12),
   (Reg.TILE_CTRL2.in_width, 1, 32768), (Reg.TILE_CTRL2.bin_mode, 0, 2), (Reg.TILE_BANK_SEL.bank, 0, 16),
   (Reg.TILE_BANK_SEL.src, 0, 15), (Reg.TILE_P_LUT.shift, 0, 6), (Reg.TILE_P_SUM.sum_shift, 0, 5), (Reg.TILE_P_MIX.y_src, 0, 2),
   (Reg.TILE_P_PAK.shift, 0, 24), (Reg.KAL_CTRL.in_width, 1, 32768), (Reg.KAL_CTRL.n_int, 0, 5), (Reg.KAL_CTRL.n_out, 0, 5),
   (Reg.KAL_BANK_SEL.bank, 0, 16), (Reg.KAL_BANK_SEL.src, 0, 15), (Reg.KAL_P_KERN.v_half, 0, 2), (Reg.KAL_P_SEL.sel0, 0, 6),
   (Reg.KAL_P_SEL.sel1, 0, 6), (Reg.KAL_P_SEL.sel2, 0, 6), (Reg.KAL_P_SEL.sel3, 0, 6), (Reg.KAL_P_SEL.sel4, 0, 6),
   (Reg.KAL_P_SEL.sel5, 0, 6)]

/-- The ranges of the resamplers, the Jigsaw units, the Abacus units and image loading. -/
def rangesC : List Range :=
  [(Reg.PGR_STREAM_A.in_width, 1, 32768), (Reg.PGR_STREAM_B.g_count, 1, 32768), (Reg.PGR_BANK_SEL.bank, 0, 16),
   (Reg.PGR_BANK_SEL.src, 0, 15), (Reg.PGR_P_MODE.along, 0, 2), (Reg.PGR_P_MODE.lateral, 0, 2), (Reg.PGR_P_MODE.win, 1, 255),
   (Reg.PGR_P_MODE.int_shift, 0, 5), (Reg.JIG_CTRL.out_shape, 0, 3), (Reg.JIG_CTRL.out_shift, 0, 17),
   (Reg.JIG_CTRL.seam_deadline, 1, 65535), (Reg.JIG_OUT.out_count, 1, 131072), (Reg.JIG_EXPORT.exp_count, 1, 1024),
   (Reg.JIG_REMOTE.rem_count, 1, 1024), (Reg.JIG_IN.g_count, 1, 32768), (Reg.JIG_COL_CFG.block_deadline, 1, 65535),
   (Reg.ABA_CTX.in_width, 1, 32768), (Reg.ABA_COLS.bins_log2, 4, 12), (Reg.ABA_COLS.hist_shift, 0, 23),
   (Reg.IMG_CHAIN_CFG.ready_timeout, 1, 4095)]

/-- The ranges of links, time, partitions, integrity, clocks and the Tumbler. -/
def rangesD : List Range :=
  [(Reg.UPL_CTRL.mtu, 576, 9194), (Reg.DMA_CH_CFG.pack, 0, 5), (Reg.DMA_CH_CFG.pack_shift, 0, 24), (Reg.DMA_CH_CFG.pmtu, 0, 2),
   (Reg.FLK_CTRL.rate_max, 0, 2), (Reg.FLK_CTRL.rate_min, 0, 2), (Reg.FLK_CTRL.ack_timeout, 100, 2047),
   (Reg.FLK_CTRL.retry_limit, 1, 31), (Reg.TIME_SERVO.lock_count, 2, 31), (Reg.TIME_CFG.announce_timeout, 2, 15),
   (Reg.PART_NOTICE_CFG.retry, 1, 4095), (Reg.INTG_CTRL.scrub_period, 1, 59), (Reg.INTG_CTRL.retire_limit, 1, 15),
   (Reg.INTG_EVT_CFG.push_min, 0, 2), (Reg.CHK_CFG.algorithm, 0, 3), (Reg.CHK_CFG.width, 7, 63), (Reg.CHK_SCAN.length, 1, 8388608),
   (Reg.CLK_FREQ.freq, 32, 80), (Reg.CLK_MEAS_SEL.island, 0, 520), (Reg.CAL_CTRL.cal_period, 1, 255),
   (Reg.CAL_CTRL.temp_delta, 1, 15), (Reg.CAL_TRIM_SEL.block, 0, 61), (Reg.TMB_WDOG.wd_timeout, 1, 255),
   (Reg.TMB_WDOG.fabric_timeout, 10, 1023)]

/-- All ranges. -/
def validRanges : List Range := rangesA ++ rangesB ++ rangesC ++ rangesD

/-- The fields of a word that its neighbours bound or that take odd values only: of SPORT_CTRL, lanes and rate by the phy; the tap counts
of CNV; rate_min not above rate_max in rate, hence not below it in code. -/
def validWithin (f : Reg.Fld) (w : Word) : Bool :=
  let v := fieldOf f w
  if f = Reg.SPORT_CTRL.lanes then !(fieldOf Reg.SPORT_CTRL.phy w == 1 && v == 3)
  else if f = Reg.SPORT_CTRL.rate then
    (if fieldOf Reg.SPORT_CTRL.phy w = 1 then v ≤ 6000 else 80 ≤ v && v ≤ 4500)
  else if f = Reg.TILE_P_CNV.h_taps ∨ f = Reg.TILE_P_CNV.v_taps then v % 2 == 1
  else if f = Reg.FLK_CTRL.rate_min then fieldOf Reg.FLK_CTRL.rate_max w ≤ v
  else true

/-- Is the value of a field valid in a word (R479)? -/
def validField (f : Reg.Fld) (w : Word) : Bool :=
  (match validRanges.find? (fun r => r.1 == f) with
    | none => true
    | some r => r.2.1 ≤ fieldOf f w && fieldOf f w ≤ r.2.2) && validWithin f w

/-- Are the values that an image record gives valid (R479)? It gives RWL fields and, in a bank, every field (R258). -/
def validWord (a : Nat) (w : Word) : Bool :=
  match Reg.findReg a with
  | none => false
  | some h => h.reg.fields.all (fun f => (!h.reg.banked && f.acc != .rwl) || validField f w)

/-- The bits of the fields of a word whose values are invalid. -/
def invalidMask (h : Reg.Hit) (w : Word) : Nat := maskOf (h.reg.fields.filter (fun f => !validField f w))

end Sys2Proof.Machine
end

