-- ==== Sys2Proof/Machine/Content.lean ====
section
/-! DEFINITION. The load-time refusals of the manual (R264, step 13), each as a check of the device that a commit would produce. -/

namespace Sys2Proof.Machine

/-! ### Names -/

/-- Does a queue satisfy the wants of a port: line-commit where asked, and one of the shapes? -/
def Dev.fits (h : Dev) (q : Nat) (committed : Bool) (shapes : List Nat) : Bool :=
  (!committed || h.qLineCommit q) && shapes.contains (h.qShape q)

/-- Do slots lie in one enabled table region of an owner (R139, R349)? -/
def Dev.regionHolds (h : Dev) (owner lo n : Nat) : Bool :=
  (queuesIn h.regs).any (fun q => h.flag Reg.QD_BASE.table q && h.queueOwner q == owner &&
    decide (h.fld Reg.QD_BASE.base q * 64 ≤ lo) && decide (lo + n ≤ h.fld Reg.QD_BASE.base q * 64 + h.qSize q))

/-- The contexts of the sequence (R129). -/
def Dev.seqContexts (h : Dev) : List Nat :=
  ((List.range (h.fld Reg.MARN_SEQ_CFG.seq_len + 1)).map (fun e => h.fld Reg.MARN_SEQ.context e)).foldl (fun cs c => addOnce c cs) []

/-- No value twice. -/
def noTwice (xs : List Nat) : Bool := xs == xs.foldl (fun ys x => addOnce x ys) []

/-- The enabled streams of the enabled ports. DESIGN CHOICE (log entry 92): an enabled stream of a port that is not enabled counts as not
enabled in the load checks. -/
def Dev.liveStreams (h : Dev) : List (Nat × Nat) :=
  (enabledIn h.regs Reg.SPORT_CTRL Reg.SPORT_CTRL.enable).flatMap (fun n =>
    ((List.range 4).filter (fun st => h.flag Reg.SPORT_STREAM_A.enable n st)).map (fun st => (n, st)))

/-- Enabled units of the kinds. -/
def Dev.liveTiles (h : Dev) : List Nat := enabledIn h.regs Reg.TILE_CTRL Reg.TILE_CTRL.enable
def Dev.liveKals (h : Dev) : List Nat := enabledIn h.regs Reg.KAL_CTRL Reg.KAL_CTRL.enable
def Dev.liveJigs (h : Dev) : List Nat := enabledIn h.regs Reg.JIG_CTRL Reg.JIG_CTRL.enable
def Dev.liveCols (h : Dev) : List Nat := enabledIn h.regs Reg.JIG_COL_CFG Reg.JIG_COL_CFG.enable
def Dev.liveAbas (h : Dev) : List Nat := enabledIn h.regs Reg.ABA_CTRL Reg.ABA_CTRL.enable
def Dev.liveConjs (h : Dev) : List Nat := enabledIn h.regs Reg.QFAB_CONJ_CFG Reg.QFAB_CONJ_CFG.enable
def Dev.livePgrs (h : Dev) : List (Nat × Nat) :=
  (enabledIn h.regs Reg.PGR_CTRL Reg.PGR_CTRL.enable).flatMap (fun u =>
    ((List.range 4).filter (fun st => h.flag Reg.PGR_STREAM_A.enable u st)).map (fun st => (u, st)))
def Dev.liveTaps (h : Dev) : List Nat := enabledIn h.regs Reg.ABA_TAP Reg.ABA_TAP.enable
def Dev.liveParts (h : Dev) : List Nat := (List.range 16).filter (fun p => h.flag Reg.PART_CTRL.enable p)

/-- The planes of the enabled Kaleidoscope units. -/
def Dev.livePlanes (h : Dev) : List (Nat × Nat) := h.liveKals.flatMap (fun u => (List.range (h.kalOuts u)).map (fun o => (u, o)))

/-- Where the lines of a queue come from: a sensor stream, seen through tiles and taps, or a Kaleidoscope plane. -/
inductive Feed where
  | sensor (n st : Nat)
  | plane (u : Nat)
  | unknown
  deriving DecidableEq, Repr

/-- The feed of a queue. -/
def Dev.feed (h : Dev) : Nat → Nat → Feed
  | 0, _ => .unknown
  | fuel + 1, q =>
    match h.liveStreams.find? (fun x => h.fld Reg.SPORT_STREAM_A.out_q x.1 x.2 == q) with
    | some x => .sensor x.1 x.2
    | none =>
      match h.livePlanes.find? (fun x => h.kalOutQ x.1 x.2 == q) with
      | some x => .plane x.1
      | none =>
        match h.liveTiles.find? (fun t => h.tileOut t == q || h.tileCopy t == some q) with
        | some t => h.feed fuel (h.fld Reg.TILE_CTRL.in_q t)
        | none =>
          match h.liveTaps.find? (fun a => h.fld Reg.ABA_TAP.tap_q a == q) with
          | some a => h.feed fuel (h.fld Reg.ABA_TAP.src_q a)
          | none => .unknown

/-- The feed of a queue, through every tile and tap there is. -/
def Dev.feedOf (h : Dev) (q : Nat) : Feed := h.feed (h.liveTiles.length + h.liveTaps.length + 1) q

/-! ### Queues and quotas -/

/-- Queues and regions: alignment and overlap (R53), marks (R56), quotas (R74). DESIGN CHOICE (log entry 90): two table regions may not
overlap either, which R53 does not say. -/
def Dev.queuesOk (h : Dev) : Bool :=
  let qs := queuesIn h.regs
  let lo := fun q => h.fld Reg.QD_BASE.base q * 64
  qs.all (fun q => lo q % h.qSize q == 0 && decide (lo q + h.qSize q ≤ 8388608)) &&
    qs.all (fun q => qs.all (fun r => q == r || decide (lo q + h.qSize q ≤ lo r) || decide (lo r + h.qSize r ≤ lo q))) &&
    qs.all (fun q => h.flag Reg.QD_BASE.table q ||
      (decide (h.fld Reg.QD_FILL.low_mark q < h.fld Reg.QD_BASE.high_mark q) && decide (h.fld Reg.QD_BASE.high_mark q ≤ h.qSize q))) &&
    (List.range 16).all (fun p =>
      decide ((qs.map (fun q => if h.queueOwner q = p then h.qSize q else 0)).sum ≤ h.fld Reg.QFAB_QUOTA.quota p)) &&
    decide (((List.range 16).map (fun p => h.fld Reg.QFAB_QUOTA.quota p)).sum ≤ 8388608)

/-- Conjunctions (R75). -/
def Dev.conjsOk (h : Dev) : Bool :=
  h.liveConjs.all (fun c => (conjInputs h.regs c).all (fun q =>
    h.qLineCommit q && h.qShape q == h.qShape (h.fld Reg.QFAB_CONJ_CFG.out_q c)))

/-! ### Ports, Marionette and links -/

/-- Is a data type unpacked (R89)? -/
def rawType (dt : Nat) : Bool := [0x2A, 0x2B, 0x2C, 0x2D, 0x2E, 0x2F].contains dt || (decide (0x30 ≤ dt) && decide (dt ≤ 0x37))

/-- Ports (R89, R91, R101): the columns of every stream, enabled or not, lie in its sensor's width (R91). -/
def Dev.portsOk (h : Dev) : Bool :=
  let xs := h.liveStreams
  let every := (List.range 32).flatMap (fun n => (List.range 4).map (fun st => (n, st)))
  let a := fun (f : Reg.Fld) (x : Nat × Nat) => h.fld f x.1 x.2
  noTwice (xs.map (fun x => x.1 * 2048 + a Reg.SPORT_STREAM_A.vc x * 64 + a Reg.SPORT_STREAM_A.dt x)) &&
    noTwice (xs.map (a Reg.SPORT_STREAM_A.source_ordinal)) &&
    every.all (fun x =>
      decide (a Reg.SPORT_STREAM_B.col_start x + a Reg.SPORT_STREAM_B.col_count x ≤ a Reg.SPORT_STREAM_B.sensor_width x) &&
        decide (a Reg.SPORT_STREAM_B.col_count x ≤ 32768)) &&
    xs.all (fun x =>
      let opq := a Reg.SPORT_STREAM_A.opaque x == 1
      (h.flag Reg.SPORT_CTRL.phy x.1 || decide (a Reg.SPORT_STREAM_A.vc x < 16)) && (opq || rawType (a Reg.SPORT_STREAM_A.dt x)) &&
        (h.qShape (a Reg.SPORT_STREAM_A.out_q x) == if opq then 0 else 2) &&
        decide (((xs.filter (fun y => y.1 == x.1)).map (a Reg.SPORT_STREAM_B.col_count)).sum ≤ 32768) &&
        !(h.flag Reg.SPORT_CTRL.strict x.1 && !h.qLineCommit (a Reg.SPORT_STREAM_A.out_q x)))

/-- Marionette and the flank links: the anchor of a twin and of the rate generator (R123, R136), a SYNC pin that is the running
source too (R132), apply_delay (R316). -/
def Dev.marnOk (h : Dev) : Bool :=
  !(h.flag Reg.FLK_TWIN.twin_en && h.fld Reg.MARN_CTRL.anchor == 0) &&
    !(h.flag Reg.MARN_CTRL.source && h.fld Reg.MARN_CTRL.anchor == 1) &&
    [0, 1].all (fun i => !(h.flag Reg.MARN_SYNC.enable i && h.fld Reg.MARN_CTRL.running_src == i + 1)) &&
    !([0, 1].any h.flkOn && h.rowTooLong (h.fld Reg.FLK_CHAIN.chain_count))

/-- The export queues in use, and the remote queues. -/
def Dev.exportQs (h : Dev) : List Nat := h.liveJigs.filterMap h.jigExport
def Dev.remoteQs (h : Dev) : List Nat := h.liveJigs.flatMap (fun j => (remoteSides h.regs j).map (fun x => x.queue))

/-- Seam streams (R317). -/
def Dev.seamsOk (h : Dev) : Bool :=
  [0, 1].all (fun l => (List.range 16).all (fun k =>
    (!h.flag Reg.FLK_SEAM.tx_en l k || h.exportQs.contains (h.fld Reg.FLK_SEAM.tx_q l k)) &&
      (!h.flag Reg.FLK_SEAM.rx_en l k ||
        (h.remoteQs.contains (h.fld Reg.FLK_SEAM.rx_q l k) && h.qLineCommit (h.fld Reg.FLK_SEAM.rx_q l k)))))

/-! ### Pixel tiles (R139, R163, R164) -/

/-- The occupied operator codes of a tile, in order. -/
def Dev.opCodes (h : Dev) (t : Nat) : List Nat := ((List.range 4).map (h.tileOp t)).filter (fun o => o != 0)

/-- The slots of a context's part of the scratch region (R164): two copies of each scratch line, the held line of MIX where some context
reads it. -/
def Dev.scratchNeed (h : Dev) (t c : Nat) : Nat :=
  let w := h.fld Reg.TILE_CTRL2.in_width t
  let line := grainsOfWidth 2 w
  let ops := h.opCodes t
  2 * ((if ops.contains opCnv then (h.fld Reg.TILE_P_CNV.v_taps t 0 c - 1) * line else 0) +
    (if ops.contains opSum then (w + 1) / 2 else 0) +
    (if ops.contains opMix && h.seqContexts.any (fun b => h.fld Reg.TILE_P_MIX.y_src t 0 b == 0 && h.fld Reg.TILE_P_MIX.y_ctx t 0 b == c)
      then line else 0))

/-- Are the tables that a bank names, and the tile's scratch, in regions of the tile's owner that hold them? -/
def Dev.tileTables (h : Dev) (t c : Nat) : Bool :=
  let w := h.fld Reg.TILE_CTRL2.in_width t
  let own := h.tileOwner t
  let ops := h.opCodes t
  let need := h.scratchNeed t c
  (!ops.contains opFlt || h.regionHolds own (h.fld Reg.TILE_P_FLT.table_base t 0 c) ((w + 1) / 2)) &&
    (!ops.contains opDfx || (h.regionHolds own (h.fld Reg.TILE_P_DFX.map_base t 0 c) ((w + 63) / 64) &&
      (h.fld Reg.TILE_P_DFX.list_len t 0 c == 0 ||
        h.regionHolds own (h.fld Reg.TILE_P_DFX.list_base t 0 c) (h.fld Reg.TILE_P_DFX.list_len t 0 c)))) &&
    (!(ops.contains opMix && h.fld Reg.TILE_P_MIX.y_src t 0 c == 1) ||
      h.regionHolds own (h.fld Reg.TILE_P_MIX2.bg_base t 0 c) (grainsOfWidth 2 w)) &&
    (need == 0 || (decide (need ≤ h.fld Reg.TILE_SCRATCH.stride t) &&
      h.regionHolds own (h.fld Reg.TILE_SCRATCH.base t + c * h.fld Reg.TILE_SCRATCH.stride t) need))

/-- A tile (R139, R384). -/
def Dev.tileOk (h : Dev) (t : Nat) : Bool :=
  let ops := h.opCodes t
  let w := h.fld Reg.TILE_CTRL2.in_width t
  let q := h.fld Reg.TILE_CTRL.in_q t
  let out := h.tileOut t
  let tap := fun x => h.fld Reg.QD_BASE.tap_mode x != 0
  ops.all (fun o => decide (o ≤ 12)) && noTwice ops && !(ops.dropLast.contains opPak) &&
    (if ops.contains opMix then
        (h.flag Reg.TILE_CTRL2.y_enable t || (List.range 16).all (fun c => h.fld Reg.TILE_P_MIX.y_src t 0 c != 2))
      else !h.flag Reg.TILE_CTRL2.y_enable t) &&
    (ops.contains opCpy || h.fld Reg.TILE_CTRL.copy_q t == 0) &&
    (h.qLineCommit out || tap out) && [2, 3].contains (h.qShape q) &&
    (if ops.contains opPak then decide (h.qShape out ≤ 4) else h.qShape out == h.qShape q) &&
    ((h.tileCopy t).elim true (fun c => (h.qLineCommit c || tap c) && h.qShape c == h.qShape q)) &&
    (!h.flag Reg.TILE_CTRL2.y_enable t || [2, 3].contains (h.qShape (h.fld Reg.TILE_CTRL2.y_q t))) &&
    decide (grainsOfWidth (h.qShape q) w + 4 ≤ h.qSize q) && h.seqContexts.all (h.tileTables t) &&
    (List.range 16).all (h.tileBankOk t) && !h.start.unserved.contains t

/-! ### Kaleidoscope units and resamplers -/

/-- The source ordinals of other enabled sensor streams, and the ordinal that a plane shares with none of them (R173). -/
def Dev.planesOk (h : Dev) : Bool :=
  noTwice (h.livePlanes.map (fun x => h.fld Reg.KAL_OUT.source_ordinal x.1 x.2)) &&
    h.livePlanes.all (fun x => h.liveStreams.all (fun y =>
      h.fld Reg.SPORT_STREAM_A.source_ordinal y.1 y.2 != h.fld Reg.KAL_OUT.source_ordinal x.1 x.2 ||
        h.feedOf (h.kalIn x.1) == .sensor y.1 y.2))

/-- A Kaleidoscope unit (R173, R176, R188, R189). -/
def Dev.kalOk (h : Dev) (u : Nat) : Bool :=
  let own := h.kalOwner u
  let stride := h.fld Reg.KAL_SCRATCH.stride u
  h.fits (h.kalIn u) true [2] && (List.range (h.kalOuts u)).all (fun o => h.fits (h.kalOutQ u o) true [2, 3]) &&
    (match h.feedOf (h.kalIn u) with
      | .sensor n st => h.kalPy u == h.fld Reg.SPORT_STREAM_A.lines_per_trigger n st + 1
      | _ => true) &&
    decide (h.fld Reg.KAL_MOSAIC.col_phase u < h.kalPx u) && decide (h.kalPx u ≤ h.kalWidth u) &&
    (List.range 16).all (h.kalBankOk u) &&
    h.seqContexts.all (fun c => h.regionHolds own (h.fld Reg.KAL_SCRATCH.base u + c * stride) (h.kalRing u c) &&
      h.regionHolds own (h.fld Reg.KAL_P_KERN.kernel_base u 0 c) 2688)

/-- Do the entries of a context that trigger a head recur at one spacing (R193)? -/
def Dev.evenSpacing (h : Dev) (u c : Nat) : Bool :=
  let n := h.fld Reg.MARN_SEQ_CFG.seq_len + 1
  let es := (List.range n).filter (fun e => h.fld Reg.MARN_SEQ.context e == c && (h.fld Reg.MARN_SEQ.head_mask e).testBit u)
  match es with
  | [] => true
  | e0 :: rest =>
    let gaps := (es.zip (rest ++ [e0 + n])).map (fun p => p.2 - p.1)
    gaps.all (fun g => some g == gaps.head?)

/-- A stream of a resampler (R193, R209). -/
def Dev.pgrStreamOk (h : Dev) (u st : Nat) : Bool :=
  let own := h.pgrOwner u
  let stride := h.fld Reg.PGR_SCRATCH.stride u st
  let k := h.fld Reg.PGR_STREAM_B.int_k u st
  h.fits (h.pgrIn u st) true [2, 3] && h.fits (h.pgrOut u st) true [2, 3] &&
    (match h.feedOf (h.pgrIn u st) with
      | .sensor n y => k == h.fld Reg.SPORT_STREAM_A.lines_per_trigger n y
      | .plane _ => k == 0
      | .unknown => true) &&
    h.seqContexts.all (fun c => h.evenSpacing u c && h.regionHolds own (h.fld Reg.PGR_SCRATCH.base u st + c * stride) (h.pgrRing u st c) &&
      h.regionHolds own (h.fld Reg.PGR_P_MAP.map_base u st c) ((h.fld Reg.PGR_STREAM_B.g_count u st + 2) / 3))

/-- Resamplers (R193, R209, R211). -/
def Dev.pgrsOk (h : Dev) : Bool :=
  h.livePgrs.all (fun x => h.pgrStreamOk x.1 x.2) &&
    (enabledIn h.regs Reg.PGR_CTRL Reg.PGR_CTRL.enable).all (fun u => (List.range 16).all (h.pgrModeOk u) && (List.range 16).all (h.pgrRingsOk u))

/-! ### Jigsaw units and collectors -/

/-- Lines of the sides: columns g_start and g_end (R215). -/
def Side.last (x : Side) : Nat := x.start + x.count - 1

/-- Is the window of a side what the resampler stream that writes its queue has (R215)? -/
def Dev.sideMatches (h : Dev) (x : Side) : Bool :=
  match h.livePgrs.find? (fun y => h.pgrOut y.1 y.2 == x.queue) with
  | none => false
  | some y => h.fld Reg.PGR_STREAM_B.g_start y.1 y.2 == x.start && h.fld Reg.PGR_STREAM_B.g_count y.1 y.2 == x.count

/-- Do seam bounds lie in the overlap of two sides? An overlap of no columns has no bounds. -/
def seamInside (c : RegFile) (j seam lo hi : Nat) : Bool :=
  decide (hi < lo) || (decide (lo ≤ c.fld Reg.JIG_SEAM.lo j seam) && decide (c.fld Reg.JIG_SEAM.lo j seam ≤ hi) &&
    (c.flag Reg.JIG_SEAM.mode j seam ||
      (decide (lo ≤ c.fld Reg.JIG_SEAM.hi j seam) && decide (c.fld Reg.JIG_SEAM.hi j seam ≤ hi))))

/-- Neighbouring local sides (R215). -/
def pairsOk (c : RegFile) (j : Nat) : List Side → Bool
  | x :: y :: rest =>
    decide (x.start < y.start) && decide (x.last < y.last) && decide (y.start ≤ x.last + 1) &&
      decide (x.last + 1 - y.start ≤ 1024) && seamInside c j x.num y.start x.last &&
      (match rest with
        | [] => true
        | z :: _ => decide (x.last < z.start)) && pairsOk c j (y :: rest)
  | _ => true

/-- Remote sides (R224): the right one ends with the last input and begins inside it; the left one mirrors it. -/
def remoteOk (c : RegFile) (j : Nat) (first last x : Side) : Bool :=
  if x.num = 17 then x.last == last.last && decide (last.start < x.start) && seamInside c j 16 x.start x.last
  else x.start == first.start && decide (x.last < first.last) && seamInside c j 15 x.start x.last

/-- The ordinals of an enabled Jigsaw unit's neighbours (R215). -/
def Dev.ordinalTaken (h : Dev) (j o : Nat) : Bool :=
  h.liveJigs.any (fun k => k != j && h.fld Reg.JIG_CTRL.out_ordinal k == o) ||
    h.liveStreams.any (fun x => h.fld Reg.SPORT_STREAM_A.source_ordinal x.1 x.2 == o) ||
    h.livePlanes.any (fun x => h.fld Reg.KAL_OUT.source_ordinal x.1 x.2 == o) ||
    h.liveAbas.any (fun a => h.fld Reg.ABA_CTRL.rec_ordinal a == o) ||
    h.liveParts.any (fun p => h.fld Reg.PART_CQ.cq_ordinal p == o)

/-- A Jigsaw unit (R215, R224). DESIGN CHOICE (log entry 91): the spec names no shapes for the export and remote queues (R41), so every
shape is accepted there. -/
def Dev.jigOk (h : Dev) (j : Nat) : Bool :=
  let xs := localSides h.regs j
  let first := xs.headD ⟨0, 0, 0, 0⟩
  let last := xs.getLastD ⟨0, 0, 0, 0⟩
  let w0 := h.fld Reg.JIG_OUT.out_start j
  let w1 := w0 + h.fld Reg.JIG_OUT.out_count j
  xs.all h.sideMatches && pairsOk h.regs j xs && h.fits (h.jigOut j) true [0, 1, 2, 3] &&
    h.qShape (h.jigOut j) == h.fld Reg.JIG_CTRL.out_shape j && decide (first.start ≤ w0) && decide (w1 ≤ last.last + 1) &&
    (remoteSides h.regs j).all (remoteOk h.regs j first last) && !h.ordinalTaken j (h.fld Reg.JIG_CTRL.out_ordinal j)

/-- A collector (R230). -/
def Dev.colOk (h : Dev) (j : Nat) : Bool :=
  (colInputs j h.regs).all (fun q => h.qLineCommit q && h.qShape q == h.qShape (h.fld Reg.JIG_COL_CFG.out_q j)) &&
    h.seqContexts.all (fun c => h.fld Reg.JIG_COL_EXP.ordinals_low j c != 0 || h.fld Reg.JIG_COL_EXP_HI.ordinals_high j c != 0)

/-! ### Abacus units and taps -/

/-- Taps (R238). -/
def Dev.tapsOk (h : Dev) : Bool :=
  noTwice (h.liveTaps.map (fun a => h.fld Reg.ABA_TAP.src_q a)) &&
    h.liveTaps.all (fun a =>
      let src := h.fld Reg.ABA_TAP.src_q a
      let tap := h.fld Reg.ABA_TAP.tap_q a
      let own := h.fld Reg.ABA_CTRL.owner a
      let mode := h.fld Reg.QD_BASE.tap_mode tap
      mode != 0 && !h.flag Reg.QD_BASE.table tap && !h.flag Reg.QD_BASE.table src && h.qShape src == h.qShape tap &&
        (!h.qLineCommit src || h.qLineCommit tap) && h.queueOwner tap == own &&
        (h.queueOwner src == own || (own == 0 && mode == 2)))

/-- The enabled zones of a unit. -/
def Dev.liveZones (h : Dev) (a : Nat) : List Nat := (List.range 64).filter (fun z => h.flag Reg.ABA_ZONE.enable a z)

/-- A zone's first and last columns. -/
def Dev.zoneSpan (h : Dev) (a z : Nat) : Nat × Nat :=
  (h.fld Reg.ABA_ZONE.z_start a z, h.fld Reg.ABA_ZONE.z_start a z + h.fld Reg.ABA_ZONE.z_count a z)

/-- An Abacus unit (R239, R241, R243, R248): no column in more than four zones, which the first columns of the zones show. -/
def Dev.abaOk (h : Dev) (a : Nat) : Bool :=
  let w := h.fld Reg.ABA_CTX.in_width a
  let zs := (h.liveZones a).map (h.zoneSpan a)
  let hist := (List.range 16).countP (fun c => (h.fld Reg.ABA_CTX.hist_ctx_mask a).testBit c)
  let stride := h.fld Reg.ABA_REF.ref_stride a
  decide (h.qShape (h.fld Reg.ABA_CTRL.in_q a) ≤ 3) && h.fits (h.fld Reg.ABA_CTRL.rec_q a) false [5] &&
    zs.all (fun z => decide (z.2 < w) && decide ((zs.filter (fun y => decide (y.1 ≤ z.1) && decide (z.1 ≤ y.2))).length ≤ 4)) &&
    (!h.flag Reg.ABA_CTRL.hist_en a || (h.liveZones a).contains (h.fld Reg.ABA_COLS.hist_zone a)) &&
    decide (2 ^ h.fld Reg.ABA_COLS.bins_log2 a * hist ≤ 4096) && decide ((w + 1) / 2 ≤ stride) &&
    (!h.flag Reg.ABA_CTRL.screen_en a || ((List.range 16).all (fun c => !(h.fld Reg.ABA_CTX.ctx_mask a).testBit c ||
        h.regionHolds (h.fld Reg.ABA_CTRL.owner a) (h.fld Reg.ABA_REF.ref_base a + c * stride) ((w + 1) / 2))))

/-! ### Partitions and channels (R349, R364, R394) -/

/-- The queues that a unit names, with the unit's owner. -/
def Dev.namedQueues (h : Dev) : List (Nat × Nat) :=
  h.liveConjs.flatMap (fun c => (h.fld Reg.QFAB_CONJ_CFG.out_q c :: conjInputs h.regs c).map (fun q => (h.fld Reg.QFAB_CONJ_CFG.owner c, q))) ++
    h.liveStreams.map (fun x => (h.portOwner x.1, h.fld Reg.SPORT_STREAM_A.out_q x.1 x.2)) ++
    h.liveTiles.flatMap (fun t => ([h.fld Reg.TILE_CTRL.in_q t, h.tileOut t] ++ (h.tileCopy t).toList ++
      (if h.flag Reg.TILE_CTRL2.y_enable t then [h.fld Reg.TILE_CTRL2.y_q t] else [])).map (fun q => (h.tileOwner t, q))) ++
    h.liveKals.flatMap (fun u => (h.kalIn u :: (List.range (h.kalOuts u)).map (h.kalOutQ u)).map (fun q => (h.kalOwner u, q))) ++
    h.livePgrs.flatMap (fun x => [h.pgrIn x.1 x.2, h.pgrOut x.1 x.2].map (fun q => (h.pgrOwner x.1, q))) ++
    h.liveJigs.flatMap (fun j => (h.jigOut j :: (h.jigExport j).toList ++ (h.jigSides j).map (fun x => x.queue)).map
      (fun q => (h.jigOwner j, q))) ++
    h.liveCols.flatMap (fun j => (h.fld Reg.JIG_COL_CFG.out_q j :: colInputs j h.regs).map (fun q => (h.jigOwner j, q))) ++
    h.liveAbas.flatMap (fun a => [h.fld Reg.ABA_CTRL.in_q a, h.fld Reg.ABA_CTRL.rec_q a].map (fun q => (h.fld Reg.ABA_CTRL.owner a, q)))

/-- The channels that the configuration gives a word. -/
def Dev.cfgChannels (h : Dev) : List Nat := h.regs.filterMap (fun aw => (Reg.DMA_CH_CFG.locate aw.1).map (fun x => x.i))

/-- A DMA channel (R298, R349). -/
def Dev.channelOk (h : Dev) (ch : Nat) : Bool :=
  let own := h.fld Reg.DMA_CH_CFG.owner ch
  let q := h.fld Reg.DMA_CH_CFG.desc_q ch
  let remote := h.fld Reg.DMA_CH_CFG.kind ch == 0
  h.queueOwner q == own && (!h.qLive q || h.fits q false [5] && !h.qLineCommit q) &&
    (!remote || (h.fld Reg.UPL_FLOW_A.owner (h.fld Reg.DMA_CH_CFG.flow ch) == own && h.fld Reg.PART_SHARE.quantum own != 0))

/-- The partitions that own a resource (R348, R349), in use or not: P0 always does, and every other that an owner field or a port names. -/
def Dev.owners (h : Dev) : List Nat :=
  0 :: (List.range 16).filter (fun p => h.fld Reg.PART_PORTS.ports p != 0) ++
    h.regs.flatMap (fun aw => match Reg.findReg aw.1 with
      | none => []
      | some x => (x.reg.fields.filter (fun f => ownerFlds.contains f)).map (fun f => fieldOf f aw.2))

/-- A completion queue and its channel (R364). -/
def Dev.completionOk (h : Dev) (p : Nat) : Bool :=
  let q := h.fld Reg.PART_CQ.cq_q p
  let ch := h.fld Reg.PART_CQ.cq_channel p
  !h.flag Reg.PART_CQ.cq_enable p || (h.fits q true [5] && h.qLive q && h.queueOwner q == p && h.fld Reg.DMA_CH_CFG.owner ch == p &&
    h.fld Reg.DMA_CH_CFG.kind ch == 0 && h.fld Reg.DMA_CH_CFG.pack ch == 5 && decide (h.fld Reg.QD_BASE.high_mark q ≤ 6))

/-- A partition's event ring (R394). -/
def Dev.ringOk (h : Dev) (p : Nat) : Bool :=
  !h.flag Reg.INTG_EVT_RING.enable p || (queuesIn h.regs).any (fun q =>
    h.flag Reg.QD_BASE.table q && h.queueOwner q == p && h.qSize q == 16384 &&
      h.fld Reg.QD_BASE.base q * 64 == h.fld Reg.INTG_EVT_RING.ring_base p)

/-- Partitions (R349, R364, R394). -/
def Dev.partsOk (h : Dev) : Bool :=
  (List.range 32).all (fun n => decide (((List.range 16).filter (fun p => (h.fld Reg.PART_PORTS.ports p).testBit n)).length ≤ 1)) &&
    h.namedQueues.all (fun x => h.queueOwner x.2 == x.1) && h.cfgChannels.all h.channelOk &&
    h.owners.all (fun p => h.flag Reg.PART_CTRL.enable p) && (List.range 16).all (fun p => h.completionOk p && h.ringOk p)

/-- The device that the commit of a configuration would produce, as far as the checks look at it. -/
def Dev.produced (s : Dev) (cfg : RegFile) : Dev := { s with regs := cfg, workSets := [], arms := [], img := { s.img with before := none } }

/-- Does a word that an image gives a Kaleidoscope unit or one of its banks, in use or not, hold values that are valid beside those of
the unit's other words (R189, R479)? -/
def Dev.recordOk (h : Dev) (key : Nat) : Bool :=
  match Reg.findReg key with
  | none => true
  | some g =>
    if g.reg = Reg.KAL_CTRL then decide (h.kalPx g.i ≤ h.kalWidth g.i)
    else if g.reg = Reg.KAL_P_PLANE then h.kalRowsOk g.i (key / 2 ^ 40 - 1)
    else if g.reg = Reg.KAL_P_OFFSETS then h.kalOffsOk g.i (key / 2 ^ 40 - 1)
    else if g.reg = Reg.KAL_P_SEL then h.kalSelOk g.i (key / 2 ^ 40 - 1)
    else if g.reg = Reg.KAL_P_KERN then h.kalGuideOk g.i (key / 2 ^ 40 - 1)
    else true

/-- Every load-time refusal of the manual, but for single values (R264, step 13), each with the type of the section that sets up what
it checks (log entry 104). -/
def Dev.contentChecks (h : Dev) : List (Bool × Nat) :=
  [(h.queuesOk, 3), (h.conjsOk, 1), (h.portsOk, 5), (h.marnOk, 6), (h.seamsOk, 1), (h.liveTiles.all h.tileOk, 2), (h.planesOk, 1),
   (h.liveKals.all h.kalOk, 1), (h.pgrsOk, 1), (h.liveJigs.all h.jigOk, 1), (h.liveCols.all h.colOk, 1), (h.tapsOk, 1),
   (h.liveAbas.all h.abaOk, 1), (h.partsOk, 7)]

/-- Does a configuration pass them all? -/
def Dev.contentOk (h : Dev) : Bool := h.contentChecks.all (fun c => c.1)

/-- The type of the section at fault. -/
def Dev.contentFault (h : Dev) : Option Nat := (h.contentChecks.find? (fun c => !c.1)).map (fun c => c.2)

end Sys2Proof.Machine
end

