-- ==== Sys2Proof/Machine/Image.lean ====
section
/-! DEFINITION. Trita images: their format and checks (R255–R264), loading (R263, R265), chain commits (R270–R273), the configuration
checker (R275), and the rollback and key fuses (R262). -/

namespace Sys2Proof.Machine

/-! ### Bytes of an image -/

/-- A little-endian number in a byte string (R4). -/
def le (bs : List Byte) (off n : Nat) : Nat := ofLeBytes (slice bs off n)

/-- Are bytes from one offset to another all zero? -/
def zeros (bs : List Byte) (lo hi : Nat) : Bool := (slice bs lo (hi - lo)).all (fun b => b == 0)

/-- An entry of the section directory (R256): its index, type, flags, offset, length and CRC. -/
structure Sect where
  num : Nat
  kind : Nat
  flags : Nat
  off : Nat
  len : Nat
  crc : Nat
  deriving DecidableEq, Repr

/-- The sections of an image. -/
def sections (bs : List Byte) : List Sect :=
  (List.range (le bs 0x10 2)).map (fun i =>
    let o := 0x40 + 16 * i
    ⟨i, le bs o 2, le bs (o + 2) 2, le bs (o + 4) 4, le bs (o + 8) 4, le bs (o + 12) 4⟩)

/-- image_length (R255). -/
def imageLength (bs : List Byte) : Nat := le bs 0x18 4

/-- Is the image a partition image? -/
def isPartImage (bs : List Byte) : Bool := (le bs 0x06 2).testBit 0

/-- Result codes of IMG_STATUS (R276). -/
def irHeader : Nat := 1
def irLength : Nat := 2
def irPart : Nat := 3
def irKeyRevoked : Nat := 4
def irSignature : Nat := 5
def irRollback : Nat := 6
def irSection : Nat := 7
def irSectionCrc : Nat := 8
def irDecrypt : Nat := 9
def irKeyExposed : Nat := 10
def irPartition : Nat := 11
def irContent : Nat := 12
def irLiveChange : Nat := 13
def irBudget : Nat := 14
def irBusy : Nat := 15
def irFrozen : Nat := 16
def irNotReady : Nat := 17

/-- No section is at fault. -/
def noSect : Nat := 0xFF

/-! ### The checks of the outer form (R264, steps 1 to 9) -/

/-- Step 1: magic, version, header CRC, reserved header bytes and bits. -/
def headerOk (bs : List Byte) : Bool :=
  slice bs 0 4 == [0x54, 0x52, 0x49, 0x54] && le bs 0x05 1 == 1 && le bs 0x3C 4 == crc32c (slice bs 0 0x3C) && zeros bs 0x30 0x3C
    && decide (le bs 0x06 2 < 4)

/-- The gaps between sections in order of offset, from an address on, up to the signature block. -/
def gapsZero (bs : List Byte) (stop : Nat) : Nat → List Sect → Bool
  | pos, [] => decide (pos ≤ stop) && zeros bs pos stop
  | pos, s :: rest => decide (pos ≤ s.off) && zeros bs pos s.off && gapsZero bs stop (s.off + s.len) rest

/-- Sections in order of offset. -/
def byOffset : List Sect → List Sect
  | [] => []
  | s :: rest =>
    let sorted := byOffset rest
    sorted.takeWhile (fun x => x.off < s.off) ++ [s] ++ sorted.dropWhile (fun x => x.off < s.off)

/-- Step 2: the length and the placements of R256. -/
def lengthOk (bs : List Byte) : Bool :=
  let n := imageLength bs
  let stop := n - 208
  let xs := sections bs
  decide (n ≤ bs.length) && decide (n ≤ 16777216) && decide (0x40 + 16 * xs.length + 208 ≤ n) && stop % 64 == 0 &&
    xs.all (fun s => s.off % 64 == 0) && gapsZero bs stop (0x40 + 16 * xs.length) (byOffset xs)

/-- Step 3: the part, the stepping and the row. -/
def Dev.partOk (s : Dev) (bs : List Byte) : Bool :=
  le bs 0x0C 2 == 0x7232 && decide (le bs 0x0E 1 ≤ s.fld Reg.TMB_ID.stepping) && decide (s.fld Reg.TMB_ID.stepping ≤ le bs 0x0F 1) &&
    (le bs 0x13 1 == 0xFF || le bs 0x13 1 == (if s.straps.row then 1 else 0))

/-- Step 4: the key slot. -/
def Fuses.slotOk (f : Fuses) (slot : Nat) : Bool := decide (slot < 4) && f.programmed.getLsbD slot && !f.revoked.getLsbD slot

/-- Step 5: the signature block (R261). -/
def signatureOk (bs : List Byte) : Bool :=
  let o := imageLength bs - 208
  sha384 (slice bs o 97) == beBytes 48 (Config.keyDigest (le bs 0x15 1)).toNat && le bs o 1 == 4 && zeros bs (o + 97) (o + 0x68) &&
    zeros bs (o + 0xC8) (o + 208) &&
    ecdsaOk (ofBeBytes (slice bs (o + 1) 48)) (ofBeBytes (slice bs (o + 49) 48)) (sha384 (bs.take o)) (ofBeBytes (slice bs (o + 0x68) 48))
      (ofBeBytes (slice bs (o + 0x98) 48))

/-- Step 7: types and counts of R257, with the first section at fault. -/
def sectionFault (bs : List Byte) : Option Nat :=
  let xs := sections bs
  let part := isPartImage bs
  let p := le bs 0x12 1
  if xs.isEmpty ∨ 128 < xs.length ∨ (if part then 15 < p else p ≠ 0xFF) then some noSect
  else (xs.find? (fun s =>
    decide (s.kind < 1) || decide (9 < s.kind) || decide (1 < s.flags) ||
      (part && (s.kind == 6 || s.kind == 7 || s.kind == 9)) ||
      decide ((if s.kind = 4 then 64 else 1) < (xs.filter (fun x => x.kind == s.kind && decide (x.num ≤ s.num))).length))).map (fun s => s.num)

/-- The stored bytes of a section. -/
def Sect.stored (s : Sect) (bs : List Byte) : List Byte := slice bs s.off s.len

/-- The bytes of a section as written by the compiler (R260): decrypted where it is encrypted. -/
def Sect.plain (s : Sect) (bs : List Byte) : Option (List Byte) :=
  let raw := s.stored bs
  if s.flags = 0 then some raw
  else if raw.length < 28 then none
  else gcmOpen (leBytes 32 Config.imageKey.toNat) (raw.take 12) (slice bs 0 0x3C ++ slice bs (0x40 + 16 * s.num) 8)
    (slice raw 12 (raw.length - 28)) (raw.drop (raw.length - 16))

/-! ### Records and chunks (R258, R259) -/

/-- A register record. -/
structure Rec where
  addr : Nat
  bank : Nat
  rsv : Nat
  value : Word
  deriving DecidableEq, Repr

/-- The records of a section. -/
def recordsOf (bs : List Byte) : List Rec :=
  (List.range (bs.length / 16)).map (fun i => ⟨le bs (16 * i) 5, le bs (16 * i + 5) 1, le bs (16 * i + 6) 2, BitVec.ofNat 64 (le bs (16 * i + 8) 8)⟩)

/-- The key of a record's word. -/
def Rec.key (r : Rec) : Nat := if r.bank = 0xFF then r.addr else 2 ^ 40 * (r.bank + 1) + r.addr

/-- May a section of a type write a register (R257)? -/
def mayWrite (kind : Nat) (part : Bool) (a : Nat) : Bool :=
  let classOrQuota := decide (0x700100 ≤ a) && decide (a < 0x700200)
  match Reg.windowOf a with
  | .wQFAB => if classOrQuota then kind == 7 else kind == 1
  | .wKAL | .wPGR | .wJIG | .wABA => kind == 1
  | .wCHK | .wINTG | .wFLK | .wCLK | .wCAL => kind == 1 && !part
  | .wTILE => kind == 2
  | .wQD => kind == 3
  | .wSPORT => kind == 5
  | .wMARN => kind == 6
  | .wPART => kind == 7
  | .wUPL | .wDMA => kind == 8
  | .wTIME => kind == 9
  | _ => false

/-- Step 7 on a section stored in clear: it writes the registers of its type only (R257). What an encrypted section writes is known
after its decryption, and judged with its layout in step 10 (log entry 104). -/
def Sect.scopeOk (x : Sect) (bs : List Byte) : Bool :=
  x.kind == 4 || x.flags != 0 || (recordsOf (x.stored bs)).all (fun r => mayWrite x.kind (isPartImage bs) r.addr)

/-- The layout of a record (R258). -/
def Rec.ok (r : Rec) (kind : Nat) (part : Bool) : Bool :=
  match Reg.findReg r.key with
  | none => false
  | some h =>
    let mask := if h.reg.banked then maskOf h.reg.fields else rwlMask r.key
    r.addr % 8 == 0 && r.rsv == 0 && (if h.reg.banked then decide (r.bank ≤ 15) else r.bank == 0xFF) && mayWrite kind part r.addr &&
      (r.value &&& ~~~ (BitVec.ofNat 64 mask)) == 0

/-- Records in strictly ascending order of address, then of bank. -/
def ascending : List Rec → Bool
  | a :: b :: rest => decide (a.addr * 256 + a.bank < b.addr * 256 + b.bank) && ascending (b :: rest)
  | _ => true

/-- A chunk of table data. -/
structure Chunk where
  slot : Nat
  owner : Nat
  grains : List Grain
  deriving DecidableEq, Repr

/-- The chunks of a table-data section; none where the layout of R259 is broken. -/
def chunksOf : Nat → List Byte → Option (List Chunk)
  | 0, _ => none
  | _ + 1, [] => some []
  | fuel + 1, bs =>
    let n := le bs 4 4
    let size := 16 + (9 * n + 7) / 8 * 8
    if bs.length < size ∨ n = 0 ∨ !zeros bs 9 16 ∨ !zeros bs (16 + 9 * n) size then none
    else (chunksOf fuel (bs.drop size)).map (fun rest =>
      ⟨le bs 0 4, le bs 8 1, (List.range n).map (fun i => grainOfBytes (slice bs (16 + 9 * i) 9))⟩ :: rest)

/-- The slots of a chunk with their grains. -/
def Chunk.slots (c : Chunk) : List (Nat × Grain) := c.grains.mapIdx (fun i g => (c.slot + i, g))

/-- Does a chunk lie in one table region that the image enables, of its owner (R259)? -/
def Dev.chunkOk (h : Dev) (recs : List Rec) (c : Chunk) : Bool :=
  (queuesIn h.regs).any (fun q =>
    h.flag Reg.QD_BASE.table q && h.queueOwner q == c.owner && recs.any (fun r => r.addr == Reg.QD_BASE.base.addr q 0 0) &&
      decide (h.fld Reg.QD_BASE.base q * 64 ≤ c.slot) && decide (c.slot + c.grains.length ≤ h.fld Reg.QD_BASE.base q * 64 + h.qSize q))

/-! ### The configuration of an image (R266, R267) -/

/-- What a partition image starts from: everything of its partition at the reset values, but for owner fields. -/
def partBase (live : RegFile) (p : Nat) : RegFile :=
  live.filterMap (fun aw =>
    if live.wordOwner aw.1 = some p then
      let w := if 2 ^ 40 ≤ aw.1 then Reg.resetWord aw.1 else mergeWord (ownerMask aw.1) (Reg.resetWord aw.1) aw.2
      if w = Reg.resetWord aw.1 then none else some (aw.1, w)
    else some aw)

/-- The configuration that an image's records give. -/
def Dev.imageConfig (s : Dev) (part : Option Nat) (recs : List Rec) : RegFile :=
  let base := match part with
    | none => []
    | some p => partBase s.liveConfig p
  recs.foldl (fun r x => r.setWord x.key (if x.bank = 0xFF then mergeWord (rwlMask x.key) (Reg.resetWord x.key) x.value else x.value)) base

/-- Step 12 (R267): a partition image writes its partition's resources only, and no owner field. -/
def Dev.scopeOk (s : Dev) (p : Nat) (r : Rec) : Bool :=
  s.liveConfig.wordOwner r.key == some p &&
    (r.bank != 0xFF || (s.liveConfig.word r.key ^^^ r.value) &&& BitVec.ofNat 64 (ownerMask r.key) == 0)

/-- The live-commit rules of queues and regions (R269). -/
def Dev.liveQueuesOk (s h : Dev) : Bool :=
  let old := queuesIn s.regs
  let new := queuesIn h.regs
  let span := fun (d : Dev) (q : Nat) => (d.fld Reg.QD_BASE.base q * 64, d.fld Reg.QD_BASE.base q * 64 + d.qSize q)
  new.all (fun q =>
    if old.contains q then
      s.fld Reg.QD_BASE.base q == h.fld Reg.QD_BASE.base q && s.qk q == h.qk q && s.qShape q == h.qShape q
    else old.all (fun o => decide ((span h q).2 ≤ (span s o).1) || decide ((span s o).2 ≤ (span h q).1)))

/-- Has a word start-only fields to which a configuration gives another value than the one in force (R268)? A field for which the image
has no record takes its reset value (R266). -/
def Dev.startChanges (s : Dev) (cfg : RegFile) (a : Nat) : Bool := (s.regs.word a ^^^ cfg.word a) &&& BitVec.ofNat 64 (startMask a) != 0

/-- Does a later image leave the start-only fields as they are (R268), in its registers and in its header? -/
def Dev.startOnlyOk (s : Dev) (bs : List Byte) (cfg : RegFile) : Bool :=
  !s.committed || (!(s.regs ++ cfg).any (fun aw => s.startChanges cfg aw.1) && le bs 0x16 1 == s.img.upMode && le bs 0x17 1 == s.img.upRate)

/-- The limit of an uplink's declared budget in Mbit/s (R36). -/
def budgetLimit (rate : Nat) : Nat := if rate = 0 then 760000 else if rate = 3 then 190000 else 380000

/-- Step 15 (R37). DESIGN CHOICE (log entry 138): in mirrored mode budget_u1 that differs from budget_u0 (R255) is refused here. -/
def budgetOk (bs : List Byte) : Bool :=
  let limit := budgetLimit (le bs 0x17 1)
  decide (le bs 0x1C 4 ≤ limit) && decide (le bs 0x20 4 ≤ limit) && (le bs 0x16 1 == 1 || le bs 0x20 4 == le bs 0x1C 4)

/-- A step of the checks: go on, or stop with a result and the section at fault. -/
def checkThat (ok : Bool) (result sect : Nat) (rest : Except (Nat × Nat) Staged) : Except (Nat × Nat) Staged :=
  if ok then rest else .error (result, sect)

/-- The first section that fails a test. -/
def firstBad (xs : List Sect) (ok : Sect → Bool) : Option Nat := (xs.find? (fun s => !ok s)).map (fun s => s.num)

/-- Steps 10 to 15, on the plain sections. -/
def Dev.checkInner (s : Dev) (bs : List Byte) (plain : List (Sect × List Byte)) : Except (Nat × Nat) Staged :=
  let part := if isPartImage bs then some (le bs 0x12 1) else none
  let regSects := (plain.filter (fun x => x.1.kind != 4)).map (fun x => (x.1, recordsOf x.2))
  let recs := regSects.flatMap (fun x => x.2)
  let cfg := s.imageConfig part recs
  let h := s.produced (s.committedFile ⟨cfg, [], 0, part, 0, 0, 0⟩)
  let tabs := (plain.filter (fun x => x.1.kind == 4)).map (fun x => (x.1, chunksOf (x.2.length + 1) x.2))
  let chunks := tabs.flatMap (fun x => x.2.getD [])
  let sect := fun (o : Option Nat) => o.getD noSect
  let badRec := (regSects.find? (fun x => !(x.2.all (fun r => r.ok x.1.kind part.isSome) && ascending x.2))).map (fun x => x.1.num)
  let badLen := (plain.find? (fun x => x.1.kind != 4 && x.2.length % 16 != 0)).map (fun x => x.1.num)
  let badTab := (tabs.find? (fun x => !((x.2.map (fun cs => cs.all (h.chunkOk recs))).getD false))).map (fun x => x.1.num)
  let bare := (regSects.find? (fun x => x.1.flags == 0 && x.2.any (fun r => (Reg.PART_KEY.locate r.addr).isSome))).map (fun x => x.1.num)
  let foreign := match part with
    | none => none
    | some p => ((regSects.find? (fun x => !x.2.all (s.scopeOk p))).map (fun x => x.1.num)).or
        ((tabs.find? (fun x => !((x.2.getD []).all (fun c => c.owner == p)))).map (fun x => x.1.num))
  let invalid := (regSects.find? (fun x => !x.2.all (fun r => validWord r.key r.value && h.recordOk r.key))).map (fun x => x.1.num)
  let ofKind := fun (k : Nat) => (plain.find? (fun x => x.1.kind == k)).map (fun x => x.1.num)
  let changed := ((regSects.find? (fun x => x.2.any (fun r => s.startChanges cfg r.key))).map (fun x => x.1.num)).or
    (if s.liveQueuesOk h then none else ofKind 3)
  checkThat (badRec.isNone && badLen.isNone && badTab.isNone) irSection (sect (badRec.or (badLen.or badTab))) <|
  checkThat bare.isNone irKeyExposed (sect bare) <|
  checkThat foreign.isNone irPartition (sect foreign) <|
  checkThat (invalid.isNone && decide (le bs 0x16 1 ≤ 1) && decide (le bs 0x17 1 ≤ 3) && h.contentOk) irContent
    (sect (invalid.or (h.contentFault.bind ofKind))) <|
  checkThat (s.startOnlyOk bs cfg && s.liveQueuesOk h) irLiveChange (sect changed) <|
  checkThat (budgetOk bs) irBudget noSect <|
  .ok ⟨cfg, chunks.flatMap (fun c => c.slots), le bs 0x08 4, part, le bs 0x14 1, le bs 0x16 1, le bs 0x17 1⟩

/-- The checks of R264 in their order, on the bytes received for a loader; where the buffer holds an uncorrectable error at an offset,
the check that reads there fails (R377): SECTION_CRC in a section, else HEADER. -/
def Dev.checkImage (s : Dev) (f : Fuses) (loader : Nat) (bs : List Byte) (error : Option Nat) : Except (Nat × Nat) Staged :=
  let xs := sections bs
  let struck := fun (x : Sect) => (error.map (fun e => decide (x.off ≤ e) && decide (e < x.off + x.len))).getD false
  let plain := xs.map (fun x => (x, x.plain bs))
  let bad := (sectionFault bs).or (firstBad xs (fun x => x.scopeOk bs))
  let crc := firstBad xs (fun x => crc32c (x.stored bs) == x.crc && !struck x)
  let dec := (plain.find? (fun x => x.2.isNone)).map (fun x => x.1.num)
  checkThat (decide (64 ≤ bs.length) && headerOk bs && (error.isNone || xs.any struck)) irHeader noSect <|
  checkThat (lengthOk bs) irLength noSect <|
  checkThat (s.partOk bs) irPart noSect <|
  checkThat (f.slotOk (le bs 0x15 1)) irKeyRevoked noSect <|
  checkThat (signatureOk bs) irSignature noSect <|
  checkThat (decide (f.rollback ≤ le bs 0x14 1) && decide (le bs 0x14 1 ≤ 64)) irRollback noSect <|
  checkThat bad.isNone irSection (bad.getD noSect) <|
  checkThat crc.isNone irSectionCrc (crc.getD noSect) <|
  checkThat dec.isNone irDecrypt (dec.getD noSect) <|
  checkThat (loader = 0 || (isPartImage bs && le bs 0x12 1 == loader)) irPartition noSect <|
  checkThat (!(isPartImage bs && s.flag Reg.IMG_STATUS.frozen)) irFrozen noSect <|
  s.checkInner bs (plain.map (fun x => (x.1, x.2.getD [])))

/-! ### Loading (R263–R265) -/

/-- IMG_STATUS takes a state, a result and a failed section. -/
def Dev.imgShow (s : Dev) (state result sect : Nat) : Dev :=
  ((s.setF Reg.IMG_STATUS.state state).setF Reg.IMG_STATUS.result result).setF Reg.IMG_STATUS.failed_section sect

/-- Nothing is staged, and the registers say so. -/
def Dev.unstage (s : Dev) : Dev :=
  { ((s.setF Reg.IMG_LOAD.staged_generation 0).setF Reg.IMG_LOAD.staged_partition 0).setF Reg.IMG_LOAD.staged_is_partition 0 with
    img := { s.img with staged := none } }

/-- The buffer is emptied and no load is in progress. -/
def Dev.dropBuffer (s : Dev) : Dev := { s.setF Reg.IMG_LOAD.received 0 with img := { s.img with buffer := [], loader := none } }

/-- Has a staged image been reported ready for a commit that has not ended (R265)? -/
def Dev.readySent (s : Dev) : Bool :=
  s.img.awaiting.isSome || (s.img.staged.isSome && (s.img.boundary.isSome || (s.img.request.isSome && s.rootTakesPart)))

/-- A load_start is refused (R265). -/
def Dev.refuseLoad (s : Dev) (result : Nat) : Dev := (s.setF Reg.IMG_STATUS.result result).countAnd Reg.IMG_STAT.refusals 0 0 1 8 0 0 0 0

/-- load_start (R265). -/
def Dev.startLoad (s : Dev) (p : Nat) (partImage : Bool) : Dev :=
  if s.img.loader.isSome ∨ s.readySent then s.refuseLoad irBusy
  else if (partImage ∨ p ≠ 0) ∧ s.flag Reg.IMG_STATUS.frozen then s.refuseLoad irFrozen
  else
    let a := (s.unstage.dropBuffer).imgShow 1 0 noSect
    { a with img := { a.img with loader := some (p, partImage || p != 0) } }

/-- LOAD_START (R265). -/
def execLoadStart (p : Part) (partImage : Bool) (s : State) : Out := s.run (fun d => d.startLoad p.val partImage)

/-- load_end of the partition that loads (R264): the checks begin. -/
def Dev.endLoad (s : Dev) (p : Nat) : Dev :=
  if s.fld Reg.IMG_STATUS.state = 1 ∧ s.img.loader.any (fun l => l.1 == p || p == 0) then s.setF Reg.IMG_STATUS.state 2 else s

/-- LOAD_END (R264). -/
def execLoadEnd (p : Part) (s : State) : Out := s.run (fun d => d.endLoad p.val)

/-- discard (R276): the staged image, but not once ready has been sent. -/
def Dev.discardImage (s : Dev) (p : Nat) : Dev :=
  match s.img.staged with
  | none => s
  | some c =>
    if p ≠ 0 ∧ c.part ≠ some p then s
    else if s.readySent then s.log 8 0 0 (Reg.IMG_CTRL.discard.addr 0 0 0)
    else (s.unstage.dropBuffer).setF Reg.IMG_STATUS.state 0

/-- IMAGE_DISCARD (R276). -/
def execImageDiscard (p : Part) (s : State) : Out := s.run (fun d => d.discardImage p.val)

/-- Bytes of an image arrive (R292): they are appended where their offset is the number received, in a load of the partition. -/
def Dev.appendImage (s : Dev) (p off : Nat) (data : List Byte) : Dev × Nat :=
  if s.fld Reg.IMG_STATUS.state ≠ 1 ∨ !s.img.loader.any (fun l => l.1 == p) then (s, ksRange)
  else if off ≠ s.img.buffer.length ∨ 16777216 < off + data.length then (s, ksLength)
  else ({ s.setF Reg.IMG_LOAD.received (off + data.length) with img := { s.img with buffer := s.img.buffer ++ data } }, ksOk)

/-! ### Ready messages and the claim (R270–R273) -/

/-- A follower with an image staged under its commit_tag sends its ready message (R270). DESIGN CHOICE (log entry 105): no message tells
a follower the mask before the announcement, so it sends whether masked or not, and the root counts masked devices only. -/
def Dev.sendReady (s : Dev) : Dev :=
  if s.isRoot ∨ !s.assigned ∨ s.img.staged.isNone ∨ !s.img.tagged ∨ s.img.boundary.isSome then s
  else
    let tag := s.fld Reg.IMG_COMMIT_TAG.commit_tag
    let a := (s.setF Reg.IMG_STATUS.state 4).ringSend chEnum (some (s.fld Reg.FLK_CHAIN.row * 64)) (.commitReady (BitVec.ofNat 32 tag))
    { a with img := { a.img with awaiting := some tag } }

/-- Is a masked device ready (R270)? The root counts itself. -/
def Dev.deviceReady (s : Dev) (r : CommitReq) (p : Nat) : Bool :=
  if p = s.fld Reg.FLK_CHAIN.position then s.img.staged.isSome && s.img.tagged && s.fld Reg.IMG_COMMIT_TAG.commit_tag == r.tag
  else s.img.readies.contains (p, r.tag)

/-- Are all masked devices ready? -/
def Dev.allReady (s : Dev) (r : CommitReq) : Bool := (List.range 64).all (fun p => !r.mask.testBit p || s.deviceReady r p)

/-- A request at the root ends. -/
def Dev.endRequest (s : Dev) (status : Nat) : Dev :=
  { s.setF Reg.IMG_CHAIN_CFG.chain_status status with img := { s.img with request := none, readies := [] } }

/-- With every masked device ready, the root claims a boundary, or commits idle (R270, R271, R273). -/
def Dev.rootReady (s : Dev) : Dev :=
  match s.img.request with
  | none => s
  | some r =>
    if s.fld Reg.IMG_CHAIN_CFG.chain_status ≠ 1 ∨ s.marn.claimCommit ∨ !s.allReady r then s
    else if s.marn.rootGrid then
      let late := !before48 s.gridIndex r.minIndex
      let a : Dev := { s with img := { s.img with late := late }, marn := { s.marn with claimCommit := true } }
      (if late then a.log 8 0 0 else a).announceNext
    else
      let a := s.ringSend chEnum none (.commitAnnounce true 0 0 (BitVec.ofNat 32 r.tag) (BitVec.ofNat 64 r.mask))
      (if s.rootTakesPart then a.commitNow none else a).endRequest 0

/-- The host has written commit_tag (R270). -/
def Dev.tagWritten (s : Dev) : Dev :=
  let a := { s with img := { s.img with tagged := true } }
  if s.isRoot then a.rootReady else a.sendReady

/-- commit written (R270): ignored with a LOG event on a follower, or while a request runs. -/
def Dev.requestCommit (s : Dev) : Dev :=
  if !s.isRoot ∨ s.img.request.isSome then s.log 8 0 0 (Reg.IMG_CTRL.commit.addr 0 0 0)
  else
    let a : Dev := { s.setF Reg.IMG_CHAIN_CFG.chain_status 1 with img := { s.img with
      request := some ⟨s.now, s.fld Reg.IMG_COMMIT_TAG.commit_tag, s.fld Reg.IMG_CHAIN_MASK.mask, s.fld Reg.IMG_CHAIN_CFG.min_index⟩ } }
    a.rootReady

/-- CHAIN_COMMIT_REQUEST (R270). -/
def execChainCommitRequest (s : State) : Out := s.run (fun d => d.requestCommit)

/-- COMMIT_READY_MESSAGE (R270). -/
def execCommitReadyMessage (link : Link) (msg : RingMsg) (s : State) : Out :=
  s.run (fun d => d.ringIn link.val msg (fun e =>
    match msg.body with
    | .commitReady tag =>
      if e.isRoot then ({ e with img := { e.img with readies := e.img.readies ++ [(msg.origin.toNat % 64, tag.toNat)] } }).rootReady else e
    | _ => e))

/-- The ready messages are not complete in time (R271). -/
def Dev.readyTimeout (s : Dev) : Dev :=
  match s.img.request with
  | none => s
  | some r =>
    if s.fld Reg.IMG_CHAIN_CFG.chain_status ≠ 1 ∨ s.marn.claimCommit then s
    else
      let a := s.reach (r.since + s.fld Reg.IMG_CHAIN_CFG.ready_timeout * Config.msPs)
      ((a.endRequest 3).setF Reg.IMG_STATUS.result irNotReady).alarmAt Reg.IMG_STATUS.result 0 0 8 1 0 0

/-- COMMIT_READY_TIMEOUT (R271). -/
def execCommitReadyTimeout (s : State) : Out := s.run (fun d => d.readyTimeout)

/-- A device whose position is not in the mask waits no longer, and keeps its configuration (R272). -/
def Dev.leaveCommit (s : Dev) : Dev :=
  { s.setF Reg.IMG_STATUS.state (if s.img.staged.isSome then 3 else 0) with img := { s.img with awaiting := none } }

/-- Whether a device takes part in the commit at the boundary of a block. -/
def Dev.calledTo (s : Dev) (block : Nat) (mine : Bool) : Dev := { s with img := { s.img with called := some (block, mine) } }

/-- An announcement arrives (R272, R273): a masked device with an image staged under its tag commits at the boundary named, or at once; a
masked one without such an image misses the commit; a device that the mask leaves out keeps its configuration. -/
def Dev.announced (s : Dev) (idle : Bool) (boundary block tag mask : Nat) : Dev :=
  if mask.testBit (s.fld Reg.FLK_CHAIN.position) then
    if s.img.awaiting = some tag ∧ s.img.staged.isSome then (if idle then s.commitNow none else s.nameBound boundary block)
    else if idle then s.missCommit
    else s.calledTo block true
  else
    let a := if s.img.awaiting = some tag then s.leaveCommit else s
    if idle then a else a.calledTo block false

/-- COMMIT_ANNOUNCEMENT (R272, R273, R314, R315). -/
def execCommitAnnouncement (link : Link) (msg : RingMsg) (s : State) : Out :=
  s.runBoot (fun d => d.ringIn link.val msg (fun e =>
    match msg.body with
    | .commitAnnounce idle boundary block tag mask => e.announced idle boundary.toNat block.toNat tag.toNat mask.toNat
    | _ => e))

/-- The model passes the boundary at which others, or this device, commit (R272). -/
def Dev.switchCommit (s : Dev) : Dev :=
  let idx := s.commitIndex.or ((s.nextBound.filter (fun b => 3 ≤ b.cause)).map (fun b => b.index))
  match idx.bind (fun n => s.crossing (s.linePos n)) with
  | none => s
  | some t => (s.reach t.toNat).marnSync

/-- CHAIN_COMMIT_SWITCH (R272). -/
def execChainCommitSwitch (s : State) : Out := s.runBoot (fun d => d.switchCommit)

/-! ### The end of the checks (R264) -/

/-- The partition whose load runs; a boot image is P0's. -/
def Dev.loadedBy (s : Dev) : Nat := (s.img.loader.map (fun l => l.1)).getD 0

/-- A load passes every check: it is staged, with a notice to the partition that loaded it (R353). -/
def Dev.stage (s : Dev) (c : Staged) : Dev :=
  let a := (((s.imgShow 3 0 noSect).setF Reg.IMG_LOAD.staged_generation c.generation).setF Reg.IMG_LOAD.staged_partition
    (c.part.getD 0)).setF Reg.IMG_LOAD.staged_is_partition (if c.part.isSome then 1 else 0)
  let b : Dev := { a with img := { a.img with staged := some c, loader := none, buffer := [] } }.notice s.loadedBy 5 0
  if b.isRoot then b.rootReady else b.sendReady

/-- A load fails a check: the buffer is discarded, with an ALARM, and a notice to the partition that loaded it (R353, R358). -/
def Dev.refuseImage (s : Dev) (result sect : Nat) : Dev :=
  (((s.dropBuffer).imgShow 0 result sect).countAnd Reg.IMG_STAT.refusals 0 0 2 8 0 0 0 (result + sect * 32)).notice s.loadedBy 5 0

/-- The checks end. -/
def Dev.endChecks (s : Dev) (f : Fuses) (error : Option Nat) : Dev :=
  if s.fld Reg.IMG_STATUS.state ≠ 2 then s
  else match s.checkImage f s.loadedBy s.img.buffer error with
    | .ok c => s.stage c
    | .error e => s.refuseImage e.1 e.2

/-- IMAGE_CHECKS_DONE (R264). -/
def execImageChecksDone (s : State) (bufferError : Option (BitVec 24) := none) : Out :=
  s.runBoot (fun d => d.endChecks s.fuses (bufferError.map BitVec.toNat))

/-! ### The configuration checker (R275) -/

/-- Do two copies agree (R274)? -/
def agree (a b : CfgCopy) : Bool := a.intact && b.intact && a.generation == b.generation && a.active == b.active

/-- A copy is rewritten from another. -/
def CfgCopy.from (c src : CfgCopy) : CfgCopy := { c with active := src.active, generation := src.generation, intact := true }

/-- The copies with those that do not agree with copy `k` rewritten from it. -/
def Dev.rewriteCopies (s : Dev) (k : Nat) (bad : List Nat) : Dev :=
  let src := s.img.copies.getD k .init
  let a : Dev := { s with img := { s.img with copies := s.img.copies.mapIdx (fun i c => if bad.contains i then c.from src else c) } }
  bad.foldl (fun d i => (((d.setF Reg.IMG_COPY.generation src.generation i).setF Reg.IMG_COPY.intact 1 i).bump
    Reg.IMG_STAT.copy_repairs).bump Reg.IMG_STAT.vote_mismatch) a

/-- Which copies differed at this check. -/
def Dev.showOutvoted (s : Dev) (bad : List Nat) : Dev :=
  (List.range 3).foldl (fun d i => d.setF Reg.IMG_COPY.outvoted (if bad.contains i then 1 else 0) i) s

/-- Does the check of working sets leave a word out: of a retiring queue, of a shadow bank, or of a bank that a parameter commit has
written since the image, or whose unit has yet to switch (log entry 106)? -/
def Dev.notVoted (s : Dev) (a : Nat) : Bool :=
  if isActiveBank a then
    match bankUnit a with
    | none => false
    | some k => (Sparse.find (unitKey k.1 k.2) s.workSets).isSome || s.img.tuned.contains (unitKey k.1 k.2, a / 2 ^ 40 - 1)
  else decide (2 ^ 40 ≤ a) ||
    [Reg.QD_BASE, Reg.QD_FILL].any (fun d => ((d.locate a).map (fun h => s.img.retiring.contains h.i)).getD false)

/-- The words of the working sets that differ from a vote are loaded from it (R275). -/
def Dev.reloadWords (s : Dev) (vote : RegFile) : Dev :=
  let new := joinFiles (fun a old w => if s.notVoted a then old else if isActiveBank a then w else mergeWord (rwlMask a) old w) s.regs vote
  let changed := (s.regs.filter (fun aw => new.word aw.1 != aw.2)).length +
    (new.filter (fun aw => (Sparse.find aw.1 s.regs).isNone)).length
  if changed = 0 then s
  else (({ s with regs := new }).bump Reg.IMG_STAT.vote_mismatch 0 0 0 changed).logAt Reg.IMG_STAT.vote_mismatch 0 0 8 0 0

/-- Two copies agree and the third does not: it is rewritten, with a LOG event where it is not intact, else an ALARM. -/
def Dev.outvote (s : Dev) (k bad : Nat) : Dev :=
  let whole := (s.img.copies.getD bad .init).intact
  let a := (s.rewriteCopies k [bad]).showOutvoted [bad]
  (if whole then a.alarmAt Reg.IMG_STAT.vote_mismatch 0 0 8 3 0 0 else a.logAt Reg.IMG_STAT.vote_mismatch 0 0 8 0 0).reloadWords ((a.img.copies.getD k .init).active)

/-- No two copies agree: freeze on the lowest that matches the commit record, or on the working sets. -/
def Dev.freeze (s : Dev) : Dev :=
  let rec_ := fun (c : CfgCopy) => c.intact && c.generation == s.fld Reg.IMG_COMMIT_REC.generation &&
    (Config.configCrc c.active).toNat == s.fld Reg.IMG_COMMIT_REC.crc
  let a := (s.setF Reg.IMG_STATUS.frozen 1)
  match (List.range 3).find? (fun i => rec_ (s.img.copies.getD i .init)) with
  | some k =>
    let bad := (List.range 3).filter (fun i => i != k)
    (((a.rewriteCopies k bad).showOutvoted bad).alarmAt Reg.IMG_STATUS.frozen 0 0 8 4 0 0).reloadWords ((s.img.copies.getD k .init).active)
  | none => ((a.showOutvoted [0, 1, 2]).bump Reg.IMG_STAT.vote_mismatch 0 0 0 3).alarmAt Reg.IMG_STATUS.frozen 0 0 8 4 0 0

/-- What the check finds in the copies and the working sets (log entry 70). -/
def Dev.cfgFault (s : Dev) : CfgFault → Dev
  | .lost c => { s.setF Reg.IMG_COPY.intact 0 c.val with img := { s.img with
      copies := s.img.copies.mapIdx (fun i x => if i = c.val then { x with intact := false } else x) } }
  | .differs c a v => { s with img := { s.img with
      copies := s.img.copies.mapIdx (fun i x => if i = c.val then { x with active := x.active.setWord a.toNat v } else x) } }
  | .working a v =>
    let w := if isActiveBank a.toNat then v else mergeWord (rwlMask a.toNat) (s.regs.word a.toNat) v
    { s with regs := s.regs.setWord a.toNat w }

/-- A full check of the copies and the working sets (R275). -/
def Dev.configCheck (s : Dev) : Dev :=
  let c := fun i => s.img.copies.getD i .init
  if agree (c 0) (c 1) && agree (c 1) (c 2) then (s.showOutvoted []).reloadWords (c 0).active
  else if agree (c 0) (c 1) then s.outvote 0 2
  else if agree (c 0) (c 2) then s.outvote 0 1
  else if agree (c 1) (c 2) then s.outvote 1 0
  else s.freeze

/-- CONFIG_CHECK (R275). -/
def execConfigCheck (s : State) (found : List CfgFault := []) : Out := s.run (fun d => (found.foldl Dev.cfgFault d).configCheck)

/-! ### Fuses (R262) -/

/-- burn (R262). -/
def Dev.burn (s : Dev) (f : Fuses) : Dev :=
  let t := s.fld Reg.IMG_ROLLBACK.target
  if s.img.burning.isSome then s
  else if f.rollback ≤ t ∧ s.img.rollback.any (fun r => decide (t ≤ r)) ∧ t ≤ 64 then
    { s.setF Reg.IMG_ROLLBACK.burn_status 1 with img := { s.img with burning := some t } }
  else s.setF Reg.IMG_ROLLBACK.burn_status 3

/-- ROLLBACK_BURN (R262). -/
def execRollbackBurn (s : State) : Out := s.run (fun d => d.burn s.fuses)

/-- ROLLBACK_BURN_DONE (R262). -/
def execRollbackBurnDone (s : State) : Out :=
  match s.dev.img.burning with
  | none => .next s
  | some t => .next { s with
      fuses := { s.fuses with rollback := max s.fuses.rollback t }
      dev := { s.dev.setF Reg.IMG_ROLLBACK.burn_status 2 with img := { s.dev.img with burning := none } } }

/-- KEY_REVOKE (R262). -/
def execKeyRevoke (slots : BitVec 4) (s : State) : Out :=
  .next { s with fuses := { s.fuses with revoked := s.fuses.revoked ||| slots } }

end Sys2Proof.Machine
end

