-- ==== Sys2Proof/Machine/Reset.lean ====
section
/-! DEFINITION. The device warm and cold resets as operations (R11, R368, R374, R430). -/

namespace Sys2Proof.Machine

/-- The fields that the straps set (R400, R404, R420, R103). -/
def Dev.strapFields (s : Dev) : Dev :=
  let row := if s.straps.row then 1 else 0
  let root := if s.straps.root then 1 else 0
  let a := (((s.setF Reg.FLK_CHAIN.row row).setF Reg.FLK_CHAIN.root root).setF Reg.MARN_CTRL.root root).setF Reg.CLK_BOOT.boot
    s.straps.boot.toNat
  if s.straps.row then (List.range 32).foldl (fun d n => d.setF Reg.SPORT_CCI_CFG.role 1 n) a else a

/-- The reference source that REFSEL names becomes the source in use (R404). -/
def Dev.refFields (s : Dev) : Dev :=
  let r := if s.strapPins.refsel then 1 else 0
  (s.setF Reg.CLK_REF.primary r).setF Reg.CLK_REF.in_use r

/-- The words that a device warm reset keeps whole (R368): the Tumbler's registers, the alarm summary and its mask, the commit
record, the epoch and the servo rate, the reference sources, the session number and the debug port. -/
def keepsWarm (a : Nat) : Bool :=
  (decide (0x10000 ≤ a) && decide (a < 0x20000)) || (decide (0xC00100 ≤ a) && decide (a < 0xC00140)) ||
    (decide (0xF00000 ≤ a) && decide (a < 0xF10000)) ||
    [Reg.IMG_COMMIT_REC.generation, Reg.IMG_COMMIT_REC2.boundary, Reg.IMG_COMMIT_REC3.block_number, Reg.TIME_EPOCH.epoch,
     Reg.TIME_RATE.rate, Reg.CLK_REF.primary, Reg.PART_SESSION.session].any (fun f => f.addr 0 0 0 == a)

/-- Words of the image registers that tell of the configuration, kept with it: IMG_COPY and IMG_PART_GEN. -/
def keepsImage (a : Nat) : Bool := decide (0xE00060 ≤ a) && decide (a < 0xE00180)

/-- The register words right after a device warm reset (R11, R368): after the first commit the configuration stays. -/
def Dev.warmRegs (s : Dev) : RegFile :=
  let kept := s.regs.filter (fun aw => keepsWarm aw.1 || (s.committed && keepsImage aw.1))
  if s.committed then
    ((joinFiles (fun a x y => if keepsWarm a || keepsImage a then x else y) kept (s.img.copies.headD .init).active).setF
      Reg.IMG_STATUS.committed 1).setF Reg.IMG_STATUS.frozen (s.fld Reg.IMG_STATUS.frozen)
  else kept

/-- What the configuration of a device in warm reset implies (R74, R351, R374). -/
def Dev.afterReset (s : Dev) : Dev :=
  (List.range 16).foldl (fun d p => (d.keyId p).sessionRecord p) s.countSlots

/-- The failed flags of the encoders, which a device warm reset keeps (R115). -/
def keptEncs (encs : List (Nat × EncRec)) : List (Nat × EncRec) :=
  (encs.filter (fun e => e.2.failed)).map (fun e => (e.1, { EncRec.init with failed := true }))

/-- The exposure sets of a port that the head has latched, by the end of their last transaction: each still advances the generation (R110). -/
def Dev.latchedSets (s : Dev) (n : Nat) : List Nat :=
  ((List.range 4).filter (fun k => (s.exp n k).phase != 0 && s.expLatched n k (s.exp n k).next)).map (fun k =>
    (s.exp n k).lastEnd.getD (s.cci n).lastBusy)

/-- The generation advances still due, which count on over a device warm reset (R107, R110). -/
def Dev.keptCci (s : Dev) : List (Nat × CciRec) :=
  (s.ccis.map (fun e => (e.1, { CciRec.init with genDue := e.2.genDue, ghosts := e.2.ghosts ++ s.latchedSets e.1 }))).filter (fun e =>
    e.2 != CciRec.init)

/-- What image loading keeps over a warm reset: the copies, the links' rates, and a ready message that waits for its announcement. -/
def ImgRec.warm (r : ImgRec) : ImgRec :=
  { ImgRec.init with
    copies := r.copies, rollback := r.rollback, upMode := r.upMode, upRate := r.upRate, awaiting := r.awaiting
    called := r.called }

/-- The hold of a device that is held and is reset again: a hold until a cold reset stays, a hold for heat gives way to it alone, and one for
want of a reference to any other (R406, R431, R434). -/
def Hold.join : Hold → Hold → Hold
  | .selftest, _ => .selftest
  | .forever, _ => .forever
  | .thermal, .forever => .forever
  | .thermal, .selftest => .selftest
  | .thermal, _ => .thermal
  | .reference, .free => .reference
  | _, new => new

/-- A device warm reset, from step 4 of R374 (R368, R430): what runs in the measuring phase ends ABORTED (R415), each open
accumulation is discarded with a LOG event (R253), the exposure generations stay (R107), the rest of the device returns to its reset values, the session number rises, the flank lanes enter repeater mode, and start-up is at
FIRMWARE, or held. -/
def Dev.warmReset (s : Dev) (why : Nat) (byTumbler : Bool) (hold : Hold) : Dev :=
  let w := (List.range 64).foldl (fun d u => if (d.aba u).pil.isSome then d.abaDiscard u else d) s
  let a := (List.range 62).foldl (fun d b =>
    if d.calState b = csMeasuring then (d.setF Reg.CAL_BLK.pending 0 b).calEnd b crAborted else d) w
  let b : Dev := { Dev.init with
    now := a.now, regs := a.warmRegs, free := a.free + 16, tb := a.tb, mem := a.mem, slotErrs := a.slotErrs
    encs := keptEncs a.encs, ccis := a.keptCci, straps := a.straps, strapPins := a.strapPins, breaks := a.breaks, tumbler := a.tumbler
    dbg := { a.dbg with halting := [], credit := [] }
    img := if a.committed then a.img.warm else { ImgRec.init with awaiting := a.img.awaiting, called := a.img.called }
    kmp := { KmpRec.init with nonceBase := a.free }
    chain := { ChainRec.init with sticky := a.chain.sticky, reserved := a.chain.reserved }
    marn := { MarnRec.init with synA := a.marn.synA, synB := a.marn.synB }
    latches := a.latches.filter (fun e => 2 ≤ e.1)
    start := { StartRec.init with
      hold := a.start.hold.join hold, vser := a.start.vser, refLost := a.start.refLost, backup := a.start.backup, released := a.start.released } }
  let c := ((b.strapFields.setF Reg.FLK_CHAIN.position (a.fld Reg.FLK_CHAIN.position)).setF Reg.FLK_CHAIN.assigned
    (a.fld Reg.FLK_CHAIN.assigned)).setF Reg.TMB_STATUS.last_reset why
  let c2 := (List.range 32).foldl (fun d n => d.setF Reg.SPORT_EXP_CFG.generation (a.portGen n) n) c.encShown
  let d := (c2.setF Reg.PART_SESSION.session ((a.fld Reg.PART_SESSION.session + 1) % 65536)).setF Reg.PART_SESSION.cold 0
  let e := if a.flag Reg.TIME_STATUS.stepped then (d.setF Reg.TIME_STATUS.stepped 1).setF Reg.TIME_STATUS.time_state 3 else d
  let f := if byTumbler then e.bump Reg.TMB_STAT.warm_resets else e
  (f.afterReset).repeaterOn.bootGo bsFirmware

/-- The flank lanes enter repeater mode at power-on, once VSER is in range (R432). -/
def Dev.powerOnRepeater (s : Dev) : Dev :=
  if s.start.vser then ([0, 1].foldl (fun d l => d.setF Reg.FLK_STATUS.state fsRepeater l) s).alarm 15 4 0 0 else s

/-- A device cold reset (R368): everything but the fuses, and what the pins carry. -/
def State.coldReset (s : State) : State :=
  let a : Dev := { Dev.init with
    free := s.dev.free + 16, kmp := { KmpRec.init with nonceBase := s.dev.free }, strapPins := s.dev.strapPins, start := { StartRec.init with vser := s.dev.start.vser } }
  let b := a.refFields.powerOnRepeater
  { s with dev := if s.fuses.debugOpen then (b.setF Reg.DBG_STATUS.unlocked 1).alarmAt Reg.DBG_STATUS.unlocked 0 0 15 6 0 0 else b }

end Sys2Proof.Machine
end

