-- ==== Sys2Proof/Machine/Boot.lean ====
section
/-! DEFINITION. References, start-up and the Tumbler's watchdogs (R404–R406, R418–R422, R427–R435, R455). -/

namespace Sys2Proof.Machine

/-! ### Reference sources (R404–R406) -/

/-- The presence bit of a source: 0 the crystal, 1 REFCLK. -/
def presentFld (src : Nat) : Reg.Fld := if src = 0 then Reg.CLK_REF.xtal_present else Reg.CLK_REF.ext_present

/-- Is a source present (R405)? -/
def Dev.refPresent (s : Dev) (src : Nat) : Bool := s.flag (presentFld src)

/-- The device switches to a source (R406): an ALARM, and every island that ran from its PLL relocks. -/
def Dev.refSwitch (s : Dev) (src : Nat) : Dev :=
  let a := ((s.setF Reg.CLK_REF.in_use src).alarmAt Reg.CLK_REF.in_use 0 0 14 0 0 0)
  let b := { a with start := { a.start with refLost := none } }
  (List.range 521).foldl (fun d i => if 3 ≤ d.bootState ∧ (d.pll i).onHaven = false then d.relock i else d) b

/-- A source is lost (R405, R406). -/
def Dev.refLoss (s : Dev) (src : Nat) : Dev :=
  let z := s.setF (presentFld src) 0
  let a := z.bump Reg.CLK_STAT.ref_losses
  if s.fld Reg.CLK_REF.in_use ≠ src ∨ s.refPresent src = false ∨ s.bootState < bsStraps then z
  else if a.refPresent (1 - src) ∧ a.flag Reg.CLK_REF.ref_fallback then a.refSwitch (1 - src)
  else { a with start := { a.start with refLost := some a.now } }

/-- REF_SOURCE_LOST (R406). -/
def execRefSourceLost (src : Fin 2) (s : State) : Out := s.run (fun d => d.refLoss src.val)

/-- The TUMBLER state ends once the primary source is present, or the other one with ref_fallback (R422). -/
def Dev.tumblerExit (s : Dev) : Dev :=
  let p := s.fld Reg.CLK_REF.primary
  if s.bootState ≠ bsTumbler then s
  else if s.refPresent p then (s.setF Reg.CLK_REF.in_use p).bootGo bsStraps
  else if s.refPresent (1 - p) ∧ s.flag Reg.CLK_REF.ref_fallback then (s.setF Reg.CLK_REF.in_use (1 - p)).bootGo bsStraps
  else s

/-- A source is present again (R405, R406): a device held for want of one resumes start-up at FIRMWARE. -/
def Dev.refReturn (s : Dev) (src : Nat) : Dev :=
  let a := s.setF (presentFld src) 1
  if a.start.backup then
    let b := (a.rebase.setF Reg.CLK_REF.in_use src)
    let c := { b with start := { b.start with backup := false, refLost := none } }
    if a.start.hold = .reference then { c with start := { c.start with hold := .free } }.bootGo bsFirmware else c
  else if a.start.refLost.isSome then
    if a.fld Reg.CLK_REF.in_use = src then { a with start := { a.start with refLost := none } }
    else if a.flag Reg.CLK_REF.ref_fallback then a.refSwitch src
    else a
  else a.tumblerExit

/-- REF_SOURCE_PRESENT (R405). -/
def execRefSourcePresent (src : Fin 2) (s : State) : Out := s.run (fun d => d.refReturn src.val)

/-- 100 µs after the loss no source is present (R406): the device is held in warm reset, if it is not held already, and the timebase
counts on the backup oscillator. -/
def Dev.refHold (s : Dev) : Dev :=
  match s.start.refLost with
  | none => s
  | some t =>
    if s.refPresent 0 ∨ s.refPresent 1 ∨ s.start.backup then s
    else
      let a := (s.reach (t + 100 * Config.usPs)).rebase
      let b := if a.start.hold = .free then a.warmReset 2 true .reference else a
      ({ b with start := { b.start with backup := true } }).setF Reg.TIME_STATUS.time_state 3

/-- REF_ABSENT_HOLD (R406). -/
def execRefAbsentHold (s : State) : Out := s.run (fun d => d.refHold)

/-! ### Power-up to FIRMWARE (R9, R400, R422) -/

/-- POWER_UP (R422): everything at its reset value, the pins as they stand, the flank lanes in repeater mode. -/
def execPowerUp (straps : StrapPins) (s : State) : Out :=
  .next { s with dev := { s.dev with strapPins := straps, start := { s.dev.start with vser := true } } }.coldReset

/-- RESET_PIN (R368, R400). -/
def execResetPin (s : State) : Out := .next s.coldReset

/-- Does every voltage monitor read in range (R412, R422)? -/
def Dev.railsIn (s : Dev) : Bool := (List.range 24).all (fun i => !s.flag Reg.CLK_VMON.out i)

/-- POWER ends once RESET is released and every monitor is in range (R422, R454): the Tumbler leaves reset, and the timebase starts at 0. -/
def Dev.powerExit (s : Dev) : Dev :=
  if s.bootState = bsPower ∧ s.start.released ∧ s.railsIn then ({ s with tb := { TimeBase.init with ref := s.now } }.bootGo bsTumbler).tumblerExit
  else s

/-- RESET_RELEASE (R422). -/
def Dev.resetReleased (s : Dev) : Dev := ({ s with start := { s.start with released := true } }).powerExit

def execResetRelease (s : State) : Out := s.run (fun d => d.resetReleased)

/-- One monitor's sample (R412): its state turns after 4 consecutive samples against it. -/
def Dev.railSample (s : Dev) (i mv : Nat) : Dev :=
  let a := s.setF Reg.CLK_VMON.mv mv i
  let bad := decide (mv < s.fld Reg.CLK_VMON.lo i) || decide (s.fld Reg.CLK_VMON.hi i < mv)
  let out := s.flag Reg.CLK_VMON.out i
  let n := if bad = out then 0 else (Sparse.find i s.start.rails).getD 0 + 1
  let keep := fun (n : Nat) (d : Dev) => { d with start := { d.start with
    rails := if n = 0 then Sparse.erase i d.start.rails else Sparse.insert i n d.start.rails } }
  if n < 4 then keep n a
  else
    let b := keep 0 (a.setF Reg.CLK_VMON.out (if bad then 1 else 0) i)
    if bad then b.alarmAt Reg.CLK_VMON.out i 0 14 5 0 0 else b

/-- VMON_SAMPLE (R412). -/
def execVmonSample (readings : List (BitVec 12)) (s : State) : Out :=
  s.run (fun d => ((readings.take 24).zipIdx.foldl (fun d ri => d.railSample ri.2 ri.1.toNat) d).powerExit)

/-- TUMBLER_STATE_TIMEOUT (R422). -/
def Dev.tumblerLate (s : Dev) : Dev :=
  if s.bootState = bsTumbler then (s.reach (s.start.at_ + Config.msPs)).alarm 14 0 0 0 else s

def execTumblerStateTimeout (s : State) : Out := s.run (fun d => d.tumblerLate)

/-- The straps are latched (R400). -/
def Dev.latchStraps (s : Dev) : Dev :=
  if s.bootState = bsStraps then
    let a := { s with straps := s.strapPins }.strapFields
    (a.setF Reg.CLK_REF.primary (if a.straps.refsel then 1 else 0)).bootGo bsFirmware
  else s

/-- STRAPS_LATCH (R400). -/
def execStrapsLatch (s : State) : Out := s.run (fun d => d.latchStraps)

/-! ### FIRMWARE (R418–R420) -/

/-- Is a boot-record copy intact (R419)? -/
def recordIntact (bs : List Byte) : Bool :=
  bs.length == 192 && le bs 0 4 == 0x4B424F54 && le bs 0xBC 4 == crc32c (bs.take 0xBC)

/-- The boot record that the device uses (R419). -/
def bootRecord (b : BootRead) : Option (List Byte) :=
  let r0 := if recordIntact b.record0 then some b.record0 else none
  let r1 := if recordIntact b.record1 then some b.record1 else none
  match r0, r1 with
  | some x, some y => if (le y 4 4 + 2 ^ 32 - le x 4 4) % 2 ^ 32 < 2 ^ 31 ∧ le x 4 4 ≠ le y 4 4 then some y else some x
  | some x, none => some x
  | none, y => y

/-- P0's boot key (R419). -/
def bootKeyOf (bs : List Byte) : Option (BitVec 256) :=
  (gcmOpen (leBytes 32 Config.imageKey.toNat) (slice bs 0x48 12) (bs.take 0x48) (slice bs 0x54 32) (slice bs 0x74 16)).map (fun k =>
    BitVec.ofNat 256 (ofLeBytes k))

/-- A configuration with the link fields of a boot record: uplinks in use with their addresses, flank links as it says (R419). -/
def linkFields (c : RegFile) (bs : List Byte) : RegFile :=
  let fl := le bs 0x0B 1
  let upl := fun (c : RegFile) (u : Nat) =>
    ((((c.setF Reg.UPL_CTRL.enable 1 u).setF Reg.UPL_ADDR.mac (le bs (0x10 + 8 * u) 8) u).setF Reg.UPL_IPV4.ipv4 (le bs (0x20 + 4 * u) 4) u).setF
      Reg.UPL_IPV6_LO.ipv6 (le bs (0x28 + 16 * u) 8) u).setF Reg.UPL_IPV6_HI.ipv6 (le bs (0x30 + 16 * u) 8) u
  let flk := fun (c : RegFile) (l : Nat) =>
    ((c.setF Reg.FLK_CTRL.enable (fl / 2 ^ l % 2) l).setF Reg.FLK_CTRL.rate_max (fl / 4 % 4) l).setF Reg.FLK_CTRL.rate_min (fl / 16 % 4) l
  flk (flk (upl (upl c 0) 1) 0) 1

/-- The link fields where no boot record is intact: both uplinks in use with no address, both flank links off (R419). -/
def bareLinks (c : RegFile) : RegFile :=
  (((c.setF Reg.UPL_CTRL.enable 1 0).setF Reg.UPL_CTRL.enable 1 1).setF Reg.FLK_CTRL.enable 0 0).setF Reg.FLK_CTRL.enable 0 1

/-- A change of the configuration before the first commit: in force, and in the copies (R10, R274). -/
def Dev.preCommit (s : Dev) (f : RegFile → RegFile) : Dev :=
  { s with regs := f s.regs, img := { s.img with copies := s.img.copies.map (fun c => { c with active := f c.active }) } }

/-- What the boot record gives (R419): the link fields until the first commit, P0's boot key, the slots. -/
def Dev.useRecord (s : Dev) (r : Option (List Byte)) : Dev :=
  let a := s.setF Reg.CLK_BOOT.record_ok (if r.isSome then 1 else 0)
  match r with
  | some bs =>
    let b := { a with boot := ⟨true, bootKeyOf bs, le bs 0x09 1 % 2⟩ }
    if s.committed then b else { b.preCommit (fun c => linkFields c bs) with img := { (b.preCommit (fun c => linkFields c bs)).img with upRate := le bs 0x0A 1 } }
  | none =>
    let b := { a with boot := ⟨false, some Config.recoveryKey, 0⟩ }
    if s.committed then b else b.preCommit bareLinks

/-- The firmware that runs (R420): the selected slot, the other one, or the ROM's. -/
def Dev.chooseFirmware (s : Dev) (b : BootRead) (first : Nat) : Dev :=
  let ok := fun (k : Nat) => if k = 0 then b.slotAOk else b.slotBOk
  if 2 ≤ s.straps.boot.toNat then s.setF Reg.CLK_BOOT.fw_rom 1
  else if ok first then s.setF Reg.CLK_BOOT.fw_slot first
  else if ok (1 - first) then s.setF Reg.CLK_BOOT.fw_slot (1 - first)
  else (s.setF Reg.CLK_BOOT.fw_rom 1).alarmAt Reg.CLK_BOOT.fw_rom 0 0 14 6 0 0

/-- Firmware runs, and start-up moves to SELFTEST (R422). -/
def Dev.firmware (s : Dev) (b : BootRead) : Dev :=
  if s.bootState ≠ bsFirmware ∨ s.start.hold ≠ .free then s
  else
    let r := bootRecord b
    ((s.useRecord r).chooseFirmware b ((r.map (fun bs => le bs 0x08 1 % 2)).getD 0)).bootGo bsSelftest

/-- FIRMWARE_LOADED (R420). -/
def execFirmwareLoaded (boot : BootRead) (s : State) : Out := s.run (fun d => d.firmware boot)

/-! ### SELFTEST to IMAGE (R384, R420, R422) -/

/-- A physical tile has failed its test (R384): the lowest passing understudy serves its logical tile, or none does. -/
def Dev.assignUnd (s : Dev) (t : Nat) : Dev :=
  match s.freeUnds with
  | u :: _ => (s.setUnd u 2 t).setF Reg.TILE_STATE.serving u t
  | [] => { s with start := { s.start with unserved := s.start.unserved ++ [t] } }

/-- The tests of tiles (R384). -/
def Dev.tileTests (s : Dev) (failed : List Nat) : Dev :=
  let a := (failed.filter (fun t => decide (256 ≤ t))).foldl (fun d u => d.setUnd u 3 0) s
  let b := ((List.range 256).filter (fun t => failed.contains t)).foldl (fun d t => d.assignUnd t) a
  (b.setF Reg.INTG_SPARE.bist_failed failed.eraseDups.length).countSpare

/-- A memory whose fault cannot be repaired (R434): held in warm reset until a device cold reset. -/
def Dev.selftestHold (s : Dev) (m : Nat) : Dev :=
  (((s.warmReset 2 true .selftest).setF Reg.TMB_STATUS.selftest_hold 1).setF Reg.TMB_STATUS.failed_memory m).alarmAt
    Reg.TMB_STATUS.selftest_hold 0 0 15 5 0 0

/-- The self-test is done (R384, R422, R434). -/
def Dev.selftested (s : Dev) (uid : BitVec 64) (failed : List Nat) (bad : Option Nat) : Dev :=
  if s.bootState ≠ bsSelftest ∨ s.start.hold ≠ .free then s
  else match bad with
    | some m => s.selftestHold m
    | none => (s.tileTests failed).bootEnter uid bsCalibrate

/-- SELFTEST_DONE (R384). -/
def execSelftestDone (failedTiles : List (Fin 272)) (badMemory : Option Byte) (s : State) : Out :=
  s.runBoot (fun d => d.selftested s.fuses.uid (failedTiles.map Fin.val) (badMemory.map BitVec.toNat))

/-- links_wait ends (R422). -/
def Dev.linksLate (s : Dev) (uid : BitVec 64) : Dev :=
  if s.bootState = bsLinks ∧ s.start.hold = .free then
    (s.reach (s.start.at_ + s.fld Reg.CLK_BOOT.links_wait * Config.msPs)).bootEnter uid bsEnumerate
  else s

/-- LINKS_WAIT_TIMEOUT (R422). -/
def execLinksWaitTimeout (s : State) : Out := s.runBoot (fun d => d.linksLate s.fuses.uid)

/-- A boot image that has passed its checks is committed alone, as an idle commit (R273). -/
def Dev.commitBoot (s : Dev) (slot : Nat) (c : Staged) : Dev :=
  let a := { s with img := { s.img with staged := some c } }.commitNow none
  { (a.setF Reg.CLK_BOOT.img_slot slot).setF Reg.CLK_BOOT.img_kmp 0 with img := { a.img with awaiting := s.img.awaiting } }

/-- The image slots of the flash, in order (R264, R420). -/
def Dev.tryImages (s : Dev) (f : Fuses) (error : Option (Nat × Nat)) : List (Nat × List Byte) → Dev
  | [] => s.alarm 14 7 0 0
  | (slot, bs) :: rest =>
    match s.checkImage f 0 (bs.take (imageLength bs)) ((error.filter (fun e => e.1 == slot)).map (fun e => e.2)) with
    | .ok c => s.commitBoot slot c
    | .error e => (s.refuseImage e.1 e.2).tryImages f error rest

/-- The boot image is read (R420), perhaps with an uncorrectable error in the buffer: the slot that it strikes and its offset (R377). -/
def Dev.bootImage (s : Dev) (f : Fuses) (a b : List Byte) (error : Option (Nat × Nat)) : Dev :=
  if s.bootState ≠ bsImage ∨ s.start.hold ≠ .free ∨ s.straps.boot ≠ 0 then s
  else s.tryImages f error (if s.boot.imgSlot = 0 then [(0, a), (1, b)] else [(1, b), (0, a)])

/-- BOOT_IMAGE_LOADED (R420). -/
def execBootImageLoaded (slotA slotB : List Byte) (s : State) (bufferError : Option (Fin 2 × BitVec 24) := none) : Out :=
  s.runBoot (fun d => d.bootImage s.fuses slotA slotB (bufferError.map (fun e => (e.1.val, e.2.toNat))))

/-! ### Supplies (R324, R432, R455) -/

/-- VIO18_LOSS (R455): a device cold reset. -/
def execVio18Loss (s : State) : Out := .next s.coldReset

/-- VSER is out of range (R455): repeater mode and every link end. -/
def Dev.vserOut (s : Dev) : Dev :=
  let a := (({ s with start := { s.start with vser := false } }).setF Reg.TMB_REPEATER.active 0)
  let b := [0, 1].foldl (fun d l => if d.flkUp l then d.flkLeave l else d.flkStart l) a
  [0, 1].foldl (fun d u => if d.uplinkUp u then d.uplLeave u else d.uplRestart u) b

/-- VSER_LOSS (R455). -/
def execVserLoss (s : State) : Out := s.run (fun d => d.vserOut)

/-- Is the rest of the device in reset, or not yet at LINKS, or repeater mode forced (R432)? -/
def Dev.repeats (s : Dev) : Bool := decide (s.bootState < bsLinks) || s.start.hold != .free || s.flag Reg.TMB_REPEATER.force

/-- VSER is in range (R432): the flank lanes enter repeater mode while the rest of the device is held. -/
def Dev.vserIn (s : Dev) : Dev :=
  let a := { s with start := { s.start with vser := true } }
  if s.start.vser = false ∧ a.repeats then (a.setF Reg.TMB_REPEATER.active 0).repeaterOn else a

/-- VSER_IN_RANGE (R432). -/
def execVserInRange (s : State) : Out := s.run (fun d => d.vserIn)

/-- REPEATER_FORCE (R432). -/
def Dev.repeaterForce (s : Dev) (v : Bool) : Dev :=
  let a := s.setF Reg.TMB_REPEATER.force (if v then 1 else 0)
  if v then (if a.flag Reg.TMB_REPEATER.active then a else a.repeaterOn)
  else if a.flag Reg.TMB_REPEATER.active ∧ a.repeats = false then a.repeaterOff
  else a

def execRepeaterForce (v : Bool) (s : State) : Out := s.run (fun d => d.repeaterForce v)

/-! ### Watchdogs and the thermal shutdown (R428–R431) -/

/-- A device warm reset that a watchdog of the Tumbler starts, with its ALARM. -/
def Dev.watchdogReset (s : Dev) : Dev := (s.alarm 15 2 0 0).warmReset 2 true .free

/-- A steward core restarts (R428); after a fourth restart within 10 s, the device. -/
def Dev.coreRestart (s : Dev) (core : Nat) : Dev :=
  let a := s.countAnd Reg.TMB_STAT.core_restarts 0 0 2 15 0 0 0 0
  let recent := (s.tumbler.restarts ++ [s.now]).drop (s.tumbler.restarts.length - 3)
  let b := { a with tumbler := { a.tumbler with
    reports := Sparse.insert core a.now a.tumbler.reports, restarts := recent } }
  let c := if core = 2 then { b with kmp := { b.kmp with relays := [] } } else b
  if recent.length = 4 ∧ a.now ≤ recent.headD 0 + 10 * Config.secPs then c.watchdogReset else c

/-- CORE_REPORT (R428). -/
def execCoreReport (core : Fin 4) (s : State) : Out :=
  s.run (fun d => { d with tumbler := { d.tumbler with reports := Sparse.insert core.val d.now d.tumbler.reports } })

/-- Does the device run: out of POWER, TUMBLER and STRAPS, and not held? -/
def Dev.stewardsRun (s : Dev) : Bool := decide (bsFirmware < s.bootState) && s.start.hold == .free

/-- A core misses its report (R428). -/
def Dev.coreLate (s : Dev) (core : Nat) : Dev :=
  if s.stewardsRun then
    (s.reach ((Sparse.find core s.tumbler.reports).getD s.start.at_ + s.fld Reg.TMB_WDOG.wd_timeout * Config.msPs)).coreRestart core
  else s

/-- CORE_WATCHDOG (R428). -/
def execCoreWatchdog (core : Fin 4) (s : State) : Out := s.run (fun d => d.coreLate core.val)

/-- STEWARD_CORE_UNCORRECTABLE_ERROR (R377, R428). -/
def execStewardCoreUncorrectableError (core : Fin 4) (s : State) : Out :=
  s.run (fun d => if d.stewardsRun then d.coreRestart core.val else d)

/-- FABRIC_HEARTBEAT (R429). -/
def execFabricHeartbeat (s : State) : Out := s.run (fun d => { d with tumbler := { d.tumbler with heartbeat := d.now } })

/-- No heartbeat for fabric_timeout (R429). -/
def Dev.wedge (s : Dev) : Dev :=
  if s.stewardsRun = false ∨ s.isHalted 482 then s
  else
    let a := s.reach (s.tumbler.heartbeat + s.fld Reg.TMB_WDOG.fabric_timeout * Config.usPs)
    (a.countAnd Reg.TMB_STAT.wedges 0 0 2 15 0 0 1 0).warmReset 2 true .free

/-- FABRIC_WEDGE (R429). -/
def execFabricWedge (s : State) : Out := s.run (fun d => d.wedge)

/-- A sensor reaches 115 °C (R431): held in warm reset, after the third trip within an hour until a device cold reset. -/
def Dev.trip (s : Dev) : Dev :=
  let a := s.countAnd Reg.TMB_STAT.thermal_trips 0 0 2 15 0 0 3 0
  let recent := (s.tumbler.trips ++ [s.now]).drop (s.tumbler.trips.length - 2)
  let b := { a with tumbler := { a.tumbler with trips := recent } }
  let hold := if recent.length = 3 ∧ a.now ≤ recent.headD 0 + 3600 * Config.secPs then Hold.forever else Hold.thermal
  (b.warmReset 3 true hold).setF Reg.TMB_STATUS.thermal 1

/-- THERMAL_TRIP (R431). -/
def execThermalTrip (s : State) : Out := s.run (fun d => d.trip)

/-- Every sensor has read below thermal_resume for 10 s (R431): start-up resumes, unless the device is still held for want of a reference. -/
def Dev.cool (s : Dev) : Dev :=
  if s.start.hold = .thermal then
    let a := (s.reach ((s.tumbler.trips.getLast?.getD 0) + 10 * Config.secPs)).setF Reg.TMB_STATUS.thermal 0
    if a.start.backup then { a with start := { a.start with hold := .reference } }
    else { a with start := { a.start with hold := .free } }.bootGo bsFirmware
  else s

/-- THERMAL_RESUME (R431). -/
def execThermalResume (s : State) : Out := s.run (fun d => d.cool)

/-- The ALARM pin (R397, R435): asserted from power-up until the STRAPS state, then by the summary. -/
def Dev.alarmLevel (s : Dev) : Bool := decide (s.bootState < bsStraps) || s.alarmPin

/-! ### The pins (R460) -/

/-- What a pin of the device does: it is released or of high impedance, or it drives a level. -/
inductive PinOut where
  | highZ
  | level (b : Bool)
  deriving DecidableEq, Repr

/-- Is the device before FIRMWARE, or held in warm reset: the first and the last column of R460? -/
def Dev.pinsHeld (s : Dev) : Bool := decide (s.bootState < bsFirmware) || s.start.hold != .free

/-- TRGh and STBt: of high impedance until the commit of this start-up that enables the pin, then driven (R126, R130, R460). -/
def Dev.trgOut (s : Dev) (h : Nat) : PinOut :=
  if !s.pinsHeld && s.img.fresh && s.flag Reg.MARN_HEAD.enable h then .level (s.trgPin h) else .highZ
def Dev.stbOut (s : Dev) (t : Nat) : PinOut :=
  if !s.pinsHeld && s.img.fresh && s.flag Reg.MARN_STB.enable t then .level (s.stbPin t) else .highZ

/-- The open-drain flags, asserted low (R360, R397, R435, R460): INT0 to INT3 are released in reset, ALARM follows the Tumbler. -/
def Dev.intOut (s : Dev) (i : Nat) : PinOut := if !s.pinsHeld && s.intPin i then .level false else .highZ
def Dev.alarmOut (s : Dev) : PinOut := if s.alarmLevel then .level false else .highZ

/-- XSPI_RST_N, and XSPI_CS_N outside transfers (R460): the flash is not selected in RUN; from FIRMWARE to IMAGE its reads drive the pin. -/
def Dev.xspiReset (s : Dev) : PinOut := .level (!s.pinsHeld)
def Dev.xspiSelect (s : Dev) : Option PinOut :=
  if s.pinsHeld then some .highZ else if s.bootState = bsRun then some (.level true) else none

end Sys2Proof.Machine
end

