-- ==== Sys2Proof/Machine/Part.lean ====
section
/-! DEFINITION. Partition drain, abort and resume, notices, the completion writer, and requests of device resets (R353–R375, R445). -/

namespace Sys2Proof.Machine

/-! ### What a partition owns -/

/-- The queues of a partition that carry its lines: in use, not table regions. -/
def Dev.partQueues (s : Dev) (p : Nat) : List Nat := (queuesIn s.regs).filter (fun q => s.queueOwner q == p && s.qLive q)

/-- The instances of an enabled unit that a partition owns. -/
def Dev.partUnits (s : Dev) (p : Nat) (d : Reg.RegDef) (f own : Reg.Fld) : List Nat :=
  (enabledIn s.regs d f).filter (fun i => s.fld own i == p)

def Dev.partTiles (s : Dev) (p : Nat) : List Nat := s.partUnits p Reg.TILE_CTRL Reg.TILE_CTRL.enable Reg.TILE_CTRL2.owner
def Dev.partKals (s : Dev) (p : Nat) : List Nat := s.partUnits p Reg.KAL_CTRL Reg.KAL_CTRL.enable Reg.KAL_CTRL.owner
def Dev.partPgrs (s : Dev) (p : Nat) : List Nat := s.partUnits p Reg.PGR_CTRL Reg.PGR_CTRL.enable Reg.PGR_CTRL.owner
def Dev.partJigs (s : Dev) (p : Nat) : List Nat := s.partUnits p Reg.JIG_CTRL Reg.JIG_CTRL.enable Reg.JIG_CTRL.owner
def Dev.partCols (s : Dev) (p : Nat) : List Nat := s.partUnits p Reg.JIG_COL_CFG Reg.JIG_COL_CFG.enable Reg.JIG_CTRL.owner
def Dev.partAbas (s : Dev) (p : Nat) : List Nat := s.partUnits p Reg.ABA_CTRL Reg.ABA_CTRL.enable Reg.ABA_CTRL.owner
def Dev.partConjs (s : Dev) (p : Nat) : List Nat := s.partUnits p Reg.QFAB_CONJ_CFG Reg.QFAB_CONJ_CFG.enable Reg.QFAB_CONJ_CFG.owner

/-- The ports of a partition (R348). -/
def Dev.partPorts (s : Dev) (p : Nat) : List Nat := (List.range 32).filter (fun n => s.portOwner n == p)

/-- The enabled channels of a partition other than its completion channel. -/
def Dev.partChans (s : Dev) (p : Nat) : List Nat :=
  (s.partUnits p Reg.DMA_CH_CTRL Reg.DMA_CH_CTRL.enable Reg.DMA_CH_CFG.owner).filter (fun ch =>
    !(s.flag Reg.PART_CQ.cq_enable p && s.fld Reg.PART_CQ.cq_channel p == ch))

/-! ### Drain (R369) -/

/-- A stream of a port starts no new line: its open records are discarded, and its open block ends. -/
def Dev.drainStream (s : Dev) (n st : Nat) : Dev :=
  let a := s.modStream n st (fun r => { r with recs := [] })
  if (a.stream (4 * n + st)).opened then (a.portPut n st true bareStop).modStream n st (fun r => { r with opened := false }) else a

/-- A port at the start of a drain: its streams end, and a staged set that has not begun ends DRAINED. -/
def Dev.drainPort (s : Dev) (n : Nat) : Dev :=
  let a := (s.streamsOn n).foldl (fun d st => d.drainStream n st) s
  a.expAbortAll n caDrained false (fun e => e.phase == 1 || (e.phase == 3 && e.next == 0))

/-- A request that the partition's state leaves without effect (R371). -/
def Dev.partIgnored (s : Dev) (p : Nat) : Dev := s.log 12 p p (Reg.PART_CTRL.state.addr p 0 0)

/-- drain (R369, R371). -/
def Dev.partDrain (s : Dev) (p : Nat) : Dev :=
  let st := s.fld Reg.PART_CTRL.state p
  if st = psDraining then s
  else if st ≠ psRun then s.partIgnored p
  else
    let a := (s.partPorts p).foldl (fun d n => d.drainPort n) s
    let b := (s.partAbas p).foldl (fun d u => d.abaDrain u) a
    ((b.setF Reg.PART_CTRL.state psDraining p).setF Reg.PART_CTRL.drain 1 p).setPart p { b.part p with cause := 0, since := b.now }

/-- PARTITION_DRAIN (R369). -/
def execPartitionDrain (p : Part) (s : State) : Out := s.run (fun d => d.partDrain p.val)

/-! ### Abort (R370) -/

/-- The colons among some grains. -/
def colonsIn (cells : List Cell) : List Grain := (cells.filter (fun c => codeOf c.2 == cColon)).map (fun c => c.1)

/-- Where the lines of a queue that have not ended begin: a remote channel ends those that it has read (R370). -/
def Dev.openFrom (s : Dev) (q : Nat) : Nat := if s.chans.any (fun ch => ch.2.owed.any (fun o => o.q == q)) then s.rp q else s.lp q

/-- Where a line item is found: committed or being written in a queue; read from it and not released; in a unit, or held back behind a
full queue. -/
inductive Holding where
  | queued
  | read
  | inUnit
  deriving DecidableEq, Repr

/-- A line item where it is found: the queue that it may be named after, its colon, and how it is held there. -/
structure Held where
  queue : Nat
  tag : Grain
  how : Holding
  deriving DecidableEq, Repr

/-- The lines of a queue that have not ended. -/
def Dev.queueLines (s : Dev) (q : Nat) : List Held :=
  let lines := fun (h : Holding) (cells : List Cell) => (colonsIn cells).map (fun g => (⟨q, g, h⟩ : Held))
  lines .read (s.cellsFrom q (s.openFrom q) (s.ptrDiff q (s.rp q) (s.openFrom q))) ++
    lines .queued (s.cellsFrom q (s.rp q) (s.ptrDiff q (s.wp q) (s.rp q))) ++ lines .inUnit (s.queue q).held

/-- Lines that a tile holds and has not written. -/
def Dev.tileLines (s : Dev) (t : Nat) : List Held :=
  let q := s.fld Reg.TILE_CTRL.in_q t
  let held := (s.tile t).windows.flatMap (fun w => (w.2.filter (fun e => !e.emitted)).filterMap (fun e => e.line))
  (held.map (fun l => ⟨q, l.colon.1, .inUnit⟩)) ++ ((s.tile t).groups.filterMap (fun g => g.2.total)).map (fun l => ⟨q, l.colon.1, .inUnit⟩)

/-- Lines of the rows of groups. -/
def rowLines (q : Nat) (rows : List RingRow) : List Held :=
  ((rows.filter (fun r => !r.ended)).filterMap (fun r => r.line)).map (fun l => ⟨q, l.colon.1, .inUnit⟩)

/-- Lines that a Kaleidoscope unit holds in sets not emitted. -/
def Dev.kalLines (s : Dev) (u : Nat) : List Held :=
  (s.kal u).groups.flatMap (fun c => c.2.flatMap (fun g => rowLines (s.fld Reg.KAL_CTRL.in_q u) g.rows))

/-- Lines that a resampler holds in groups not emitted. -/
def Dev.pgrLines (s : Dev) (u : Nat) : List Held :=
  (List.range 4).flatMap (fun st => ((s.pgr (pgrInst u st)).groups.filter (fun g => !g.emitted)).flatMap (fun g =>
    rowLines (s.fld Reg.PGR_STREAM_A.in_q u st) g.rows))

/-- Lines in the stores of a port. -/
def Dev.portLines (s : Dev) (n : Nat) : List Held :=
  (s.streamsOn n).flatMap (fun st => (colonsIn ((s.stream (4 * n + st)).store.map (fun x => x.1))).map (fun g => ⟨s.streamQ n st, g, .queued⟩))

/-- What is found of the line items of a partition that have not ended. -/
def Dev.openLines (s : Dev) (p : Nat) : List Held :=
  ((s.partQueues p).filter (fun q => !s.copyQueue q)).flatMap s.queueLines ++ (s.partTiles p).flatMap s.tileLines ++
    (s.partKals p).flatMap s.kalLines ++ (s.partPgrs p).flatMap s.pgrLines ++ (s.partPorts p).flatMap s.portLines

/-- Each line item once, under the queue nearest the end of its path (R370): a line that is read and not released is found again in the
unit that has read it, or behind the queue that it goes to. The lines of a trigger share their tag (R98), so they are counted. -/
def lastHolders (xs : List Held) : List (Nat × Grain) :=
  let same := fun (x : Held) (h : Holding) (ys : List Held) => (ys.filter (fun y => y.how == h && tagNoFlags y.tag == tagNoFlags x.tag)).length
  (xs.zipIdx.filter (fun xi => xi.1.how != .read || decide (same xi.1 .inUnit xs ≤ same xi.1 .read (xs.take xi.2)))).map (fun xi =>
    (xi.1.queue, xi.1.tag))

/-- A queue is emptied: what it holds is discarded, and its memory is free (R63, R68, R370). -/
def Dev.emptyQueue (s : Dev) (q : Nat) : Dev :=
  let c := s.cp q
  let a := ((((s.setF Reg.QD_PROD.write_ptr c q).setF Reg.QD_CONS.read_ptr c q).setF Reg.QD_CONS.mark_ptr c q).setF
    Reg.QD_FILL.release_ptr c q)
  (a.setQueue q { QRec.init with lastBlock := (s.queue q).lastBlock }).pace q

/-- A port stops: its streams forget what they were writing. -/
def Dev.stopPort (s : Dev) (n : Nat) : Dev :=
  let a := (List.range 4).foldl (fun d st => d.modStream n st (fun r => { r with recs := [], store := [], opened := false })) s
  a.setPort n { a.port n with stopPending := false }

/-- A tile stops: it keeps its LUT pages and what its checks have seen. -/
def Dev.stopTile (s : Dev) (t : Nat) : Dev :=
  let r := s.tile t
  let a := match r.replay with
    | some x => s.endReplay t x.2
    | none => s
  a.setTile t { TileRec.init with pages := r.pages, loading := r.loading, lastUnd := r.lastUnd, mismatches := r.mismatches, noUnd := r.noUnd }

/-- The units of a partition forget every line that they hold; they start again at the next pilcrow (R191, R212, R229, R253). -/
def Dev.stopUnits (s : Dev) (p : Nat) : Dev :=
  let a := (s.partPorts p).foldl (fun d n => d.stopPort n) s
  let b := (s.partTiles p).foldl (fun d t => d.stopTile t) a
  let c := (s.partKals p).foldl (fun d u => d.setKal u { KalRec.init with skipping := true }) b
  let d := (s.partPgrs p).foldl (fun d u => (List.range 4).foldl (fun d st => d.setPgr (pgrInst u st) { PgrRec.init with skipping := true }) d) c
  let e := (s.partJigs p).foldl (fun d j => d.setJig j { JigRec.init with skipping := true }) d
  let f := (s.partCols p).foldl (fun d j => d.setMerge (1024 + j) MergeRec.init) e
  let g := (s.partConjs p).foldl (fun d i => d.setMerge i MergeRec.init) f
  (s.partAbas p).foldl (fun d u => d.abaDiscard u) g

/-- The descriptor queues of the channels keep their descriptors. -/
def Dev.isDescQueue (s : Dev) (q : Nat) : Bool :=
  s.regs.any (fun aw => (Reg.DMA_CH_CFG.locate aw.1).isSome && fieldOf Reg.DMA_CH_CFG.desc_q aw.2 == q && q != 0)

/-- Every open item of a partition ends ABORTED with a cause, and its queues and units are empty (R370). -/
def Dev.abortItems (s : Dev) (p cause : Nat) : Dev :=
  let ended := fun (d : Dev) => (s.partQueues p).foldl (fun e q => e.closeRuns q (fun _ => true)) d
  let a := (lastHolders (s.openLines p)).foldl (fun d x => d.endLine x.1 x.2 stAborted cause) s
  let b := ended a
  let keep := if s.flag Reg.PART_CQ.cq_enable p then [s.fld Reg.PART_CQ.cq_q p] else []
  let c := ((s.partQueues p).filter (fun q => !keep.contains q && !s.isDescQueue q)).foldl (fun d q => d.emptyQueue q) (b.stopUnits p)
  let e := (s.partChans p).foldl (fun d ch => d.chDisable ch cause) c
  (s.partPorts p).foldl (fun d n => d.expAbortAll n cause true (fun x => x.phase != 0)) (ended e)

/-- An abort takes over from any other state (R370, R371). -/
def Dev.abortNow (s : Dev) (p cause : Nat) : Dev :=
  let a := (s.setF Reg.PART_CTRL.state psAborting p).setPart p { s.part p with cause := cause, since := s.now }
  a.abortItems p cause

/-- abort (R370, R371). -/
def Dev.partAbort (s : Dev) (p cause : Nat) : Dev :=
  let st := s.fld Reg.PART_CTRL.state p
  if st = psAborting ∨ st = psStopped then s.partIgnored p
  else (s.setF Reg.PART_CTRL.abort 1 p).abortNow p cause

/-- PARTITION_ABORT (R370). -/
def execPartitionAbort (p : Part) (s : State) : Out := s.run (fun d => d.partAbort p.val caPartAbort)

/-- drain_timeout ms after the request, a drain becomes an abort (R369). -/
def Dev.drainExpires (s : Dev) (p : Nat) : Dev :=
  if s.fld Reg.PART_CTRL.state p ≠ psDraining then s
  else ((s.reach ((s.part p).since + s.fld Reg.PART_CTRL.drain_timeout p * Config.msPs)).bump Reg.PART_STAT2.drain_timeouts p).abortNow p
    caDrainTimeout

/-- DRAIN_TIMEOUT (R369). -/
def execDrainTimeout (p : Part) (s : State) : Out := s.run (fun d => d.drainExpires p.val)

/-! ### Stopped, and running again (R369–R372) -/

/-- Is an exposure set of a partition still armed? -/
def Dev.setsOpen (s : Dev) (p : Nat) : Bool :=
  (s.partPorts p).any (fun n => (List.range 4).any (fun k => (s.exp n k).phase != 0))

/-- Does a descriptor of a partition wait in a descriptor queue (R361)? That of the completion channel keeps its own. -/
def Dev.descsWaiting (s : Dev) (p : Nat) : Bool :=
  s.regs.any (fun aw => match Reg.DMA_CH_CFG.locate aw.1 with
    | none => false
    | some h =>
      let q := fieldOf Reg.DMA_CH_CFG.desc_q aw.2
      fieldOf Reg.DMA_CH_CFG.owner aw.2 == p && !(s.flag Reg.PART_CQ.cq_enable p && s.fld Reg.PART_CQ.cq_channel p == h.i) &&
        s.qLive q && s.qShape q == 5 && !s.qLineCommit q && s.ptrDiff q (s.cp q) (s.rp q) != 0)

/-- Has a partition an open item (R361): a line, a descriptor, an exposure set, or a record not yet in cq_q? -/
def Dev.itemsOpen (s : Dev) (p : Nat) : Bool :=
  !(s.openLines p).isEmpty || s.descsWaiting p || (s.partChans p).any (fun ch => !(s.chan ch).started.isEmpty || (s.chan ch).spill.isSome) || s.setsOpen p ||
    !(s.part p).buffer.isEmpty

/-- A partition reaches STOPPED (R371): its count, and notice 4. -/
def Dev.stopped (s : Dev) (p : Nat) (f : Reg.Fld) : Dev :=
  let a := ((s.setF Reg.PART_CTRL.state psStopped p).setF Reg.PART_CTRL.drain 0 p).setF Reg.PART_CTRL.abort 0 p
  ((a.setPart p { a.part p with tmbSince := none }).bump f p).notice p 4 0

/-- Is every record of the partition in cq_q, and every exposure set at its end? -/
def Dev.settled (s : Dev) (p : Nat) : Bool := (s.part p).buffer.isEmpty && !s.setsOpen p

/-- The test for STOPPED (R369, R370). -/
def Dev.stopCheck (s : Dev) (p : Nat) : Dev :=
  let st := s.fld Reg.PART_CTRL.state p
  if st = psDraining then
    if s.itemsOpen p then s
    else
      let a := (s.partQueues p).foldl (fun d q => d.closeRuns q (fun _ => true)) s
      if a.settled p then a.stopped p Reg.PART_STAT.drains else a
  else if st = psAborting ∧ s.settled p then s.stopped p Reg.PART_STAT.aborts
  else s

/-- PARTITION_STOPPED (R371). -/
def execPartitionStopped (p : Part) (s : State) : Out := s.run (fun d => d.stopCheck p.val)

/-- resume (R372). -/
def Dev.partResume (s : Dev) (p : Nat) : Dev :=
  if s.fld Reg.PART_CTRL.state p = psStopped then s.restartPart p (s.nextBound.map (fun b => b.block)) else s

/-- PARTITION_RESUME (R372). -/
def execPartitionResume (p : Part) (s : State) : Out := s.run (fun d => d.partResume p.val)

/-- COMPLETION_WRITER_RESUME (R365): records held back go to cq_q, and the units of the partition go on. -/
def Dev.writerResume (s : Dev) (p : Nat) : Dev :=
  let a := s.drainBuffer p (s.part p).buffer.length
  if (a.part p).buffer.length ≤ 64 then a.setPart p { a.part p with stalled := false } else a

def execCompletionWriterResume (p : Part) (s : State) : Out := s.run (fun d => d.writerResume p.val)

/-! ### Notices (R355–R359) -/

/-- The instant from which an unsent notice may be sent (R355). -/
def Dev.sendableAt (s : Dev) (p : Nat) (n : Notice) : Nat :=
  match Sparse.find n.cause (s.part p).lastSend with
  | some t => if n.cause < 64 then max n.created (t + s.fld Reg.PART_CAUSE.moderation p n.cause * Config.msPs) else n.created
  | none => n.created

/-- The unsent notices of a partition, the overflow notice among them. -/
def Dev.unsentNotices (s : Dev) (p : Nat) : List Notice := ((s.part p).notices ++ (s.part p).overNote.toList).filter (fun n => n.sentAt.isNone)

/-- The notice to send first: the highest severity, then the oldest. -/
def firstNotice : List Notice → Option Notice
  | [] => none
  | n :: rest =>
    match firstNotice rest with
    | none => some n
    | some m => if n.sev < m.sev ∨ (n.sev = m.sev ∧ m.created < n.created) then some m else some n

/-- The instant at which a transmission is next allowed (R359). -/
def Dev.sendAllowedAt (s : Dev) (p : Nat) : Option Nat :=
  let r := s.part p
  let burst := s.fld Reg.PART_SHARE.notice_burst p
  let rate := s.fld Reg.PART_SHARE.notice_rate p
  if r.sendSpent < burst then some s.now
  else if rate = 0 ∨ burst = 0 then none
  else some (r.sendRefill + ((r.sendSpent - burst + 1) * Config.msPs + rate - 1) / rate)

/-- The transmissions allowed again since the last refill. -/
def Dev.sendRefilled (s : Dev) (p : Nat) : Dev :=
  let r := s.part p
  let rate := s.fld Reg.PART_SHARE.notice_rate p
  let gained := (s.now - r.sendRefill) * rate / Config.msPs
  if r.sendSpent ≤ gained then s.setPart p { r with sendSpent := 0, sendRefill := s.now }
  else if gained = 0 then s
  else s.setPart p { r with sendSpent := r.sendSpent - gained, sendRefill := r.sendRefill + gained * Config.msPs / rate }

/-- The detail of a notice as it is sent: the counts of the overflow notice. -/
def Dev.noticeDetail (s : Dev) (p : Nat) (n : Notice) : Nat :=
  if n.cause = 0xFF then ((s.part p).overflow.mapIdx (fun i x => x * 2 ^ (16 * i))).sum else n.detail.toNat

/-- The payload of a NOTICE (R358). -/
def Dev.noticePayload (s : Dev) (p : Nat) (n : Notice) : List Byte :=
  leBytes 4 n.id ++ leBytes 1 n.cause ++ leBytes 1 n.sev ++ leBytes 2 n.count ++ leBytes 8 n.seconds ++ leBytes 4 (bits n.bracket 39 8) ++
    leBytes 2 n.epoch ++ leBytes 2 0 ++ leBytes 8 (s.noticeDetail p n)

/-- A notice is sent: the message, and the instant of its sending. -/
def Dev.sendNotice (s : Dev) (p : Nat) (n : Notice) : Dev :=
  let a := (s.sendRefilled p).kmpEmit p koNotice (s.fld Reg.PART_NOTICE_CFG.notice_flow p) (s.noticePayload p n)
  let r := a.part p
  let sent := fun (m : Notice) => if m.id = n.id then { m with sentAt := some a.now } else m
  a.setPart p { r with notices := r.notices.map sent, overNote := r.overNote.map sent, sendSpent := r.sendSpent + 1 }

/-- May a partition send notices now, over some uplink? -/
def Dev.noticesOn (s : Dev) (p : Nat) : Bool := s.flag Reg.PART_NOTICE_CFG.notice_en p && !s.liveUplinks.isEmpty

/-- The first sendable notice goes out (R355, R356, R359). -/
def Dev.noticeOut (s : Dev) (p : Nat) : Dev :=
  let due := (s.unsentNotices p).map (s.sendableAt p)
  match s.noticesOn p, due.min?, s.sendAllowedAt p with
  | true, some t, some u =>
    let a := s.reach (max t u)
    match firstNotice ((a.unsentNotices p).filter (fun n => decide (a.sendableAt p n ≤ a.now))) with
    | none => s
    | some n =>
      let b := a.sendNotice p n
      b.setPart p { b.part p with lastSend := Sparse.insert n.cause b.now (b.part p).lastSend }
  | _, _, _ => s

/-- NOTICE_SEND (R356). -/
def execNoticeSend (p : Part) (s : State) : Out := s.run (fun d => d.noticeOut p.val)

/-- A notice that stands, by its notice_id. -/
def Dev.noticeById (s : Dev) (p id : Nat) : Option Notice := ((s.part p).notices ++ (s.part p).overNote.toList).find? (fun n => n.id == id)

/-- A notice not acknowledged is sent again (R356). -/
def Dev.noticeAgain (s : Dev) (p id : Nat) : Dev :=
  match s.noticesOn p, (s.noticeById p id).bind (fun n => n.sentAt.map (fun t => (n, t))), s.sendAllowedAt p with
  | true, some (n, t), some u =>
    ((s.reach (max (t + s.fld Reg.PART_NOTICE_CFG.retry p * Config.msPs) u)).bump Reg.PART_NOTICE_STAT2.retries p).sendNotice p n
  | _, _, _ => s

/-- NOTICE_RETRY (R356). -/
def execNoticeRetry (p : Part) (noticeId : BitVec 32) (s : State) : Out := s.run (fun d => d.noticeAgain p.val noticeId.toNat)

/-- A notice is acknowledged (R356, R357): it no longer stands; the overflow counts clear with theirs. -/
def Dev.noticeAcked (s : Dev) (p id : Nat) : Dev :=
  let r := s.part p
  if r.notices.any (fun n => n.id == id) then (s.setPart p { r with notices := r.notices.filter (fun n => n.id != id) }).syncNotices p
  else if r.overNote.any (fun n => n.id == id) then (s.setPart p { r with overNote := none, overflow := [0, 0, 0, 0] }).syncNotices p
  else s

/-- NOTICE_ACK_WRITE (R356). -/
def execNoticeAckWrite (p : Part) (noticeId : BitVec 32) (s : State) : Out := s.run (fun d => d.noticeAcked p.val noticeId.toNat)

/-! ### Requests of device resets (R374, R445) -/

/-- The byte that confirms a device reset (R445). -/
def resetConfirm : Byte := 0xC5

/-- A reset request without its confirmation. -/
def Dev.unconfirmed (s : Dev) : Dev := s.log 15 0 0 (Reg.TMB_RESET.warm.addr 0 0 0)

/-- The enabled partitions. -/
def Dev.partsOn (s : Dev) : List Nat := (List.range 16).filter (fun p => s.flag Reg.PART_CTRL.enable p)

/-- A device warm reset begins (R374): every partition is aborted, and the completion channels run for warm_flush ms. -/
def Dev.warmBegin (s : Dev) : Dev :=
  let a := s.partsOn.foldl (fun d p => if d.fld Reg.PART_CTRL.state p = psStopped then d else d.abortNow p caWarmReset) s
  { a with start := { a.start with flushFrom := some s.now } }

/-- WARM_RESET_REQUEST (R374). -/
def Dev.warmRequest (s : Dev) (confirm : Byte) : Dev :=
  if confirm ≠ resetConfirm then s.unconfirmed else if s.start.flushFrom.isSome then s else s.warmBegin

def execWarmResetRequest (confirm : Byte) (s : State) : Out := s.run (fun d => d.warmRequest confirm)

/-- WARM_FLUSH_END (R374): the Tumbler resets the rest of the device. -/
def Dev.flushEnds (s : Dev) : Dev :=
  match s.start.flushFrom with
  | none => s
  | some t => (s.reach (t + s.fld Reg.PART_GLOBAL.warm_flush * Config.msPs)).warmReset 1 false .free

def execWarmFlushEnd (s : State) : Out := s.run (fun d => d.flushEnds)

/-- COLD_RESET_REQUEST (R368, R445). -/
def execColdResetRequest (confirm : Byte) (s : State) : Out :=
  if confirm = resetConfirm then .next s.coldReset else s.run (fun d => d.unconfirmed)

/-- A partition that the Tumbler aborts has 1 ms to stop (R445). -/
def Dev.tmbAbort (s : Dev) (p : Nat) : Dev :=
  let a := s.partAbort p caPartAbort
  if a.fld Reg.PART_CTRL.state p = psAborting then
    a.setPart p { a.part p with tmbSince := (a.part p).tmbSince.orElse (fun _ => some s.now) }
  else a

/-- TMB_PARTITION_ABORT (R445). -/
def execTmbPartitionAbort (mask : BitVec 16) (s : State) : Out :=
  s.run (fun d => ((List.range 16).filter mask.getLsbD).foldl (fun d p => d.tmbAbort p) d)

/-- TMB_ABORT_TIMEOUT (R445): the abort becomes a device warm reset. -/
def Dev.tmbAbortExpires (s : Dev) (p : Nat) : Dev :=
  match (s.part p).tmbSince with
  | none => s
  | some t => (s.reach (t + Config.msPs)).warmReset 2 true .free

def execTmbAbortTimeout (p : Part) (s : State) : Out := s.run (fun d => d.tmbAbortExpires p.val)

end Sys2Proof.Machine
end

