-- ==== Sys2Proof/Machine/Integ.lean ====
section
/-! DEFINITION. Integrity: the scrubber, check units, twin digests, events, the alarm summary and the event rings (R378–R399). -/

namespace Sys2Proof.Machine

/-- The instance of the integrity sources that are not check units (R475). -/
def integInst : Nat := 0x8000

/-- The highest slot of queue memory (R378). -/
def lastSlot : Nat := 8388607

/-! ### The scrubber (R378, R379) -/

/-- The enabled queue or table region that holds a slot. -/
def Dev.holderOf (s : Dev) (slot : Nat) : Option Nat :=
  (queuesIn s.regs).find? (fun q => decide (s.fld Reg.QD_BASE.base q * 64 ≤ slot) && decide (slot < s.fld Reg.QD_BASE.base q * 64 + s.qSize q))

/-- An uncorrectable slot is recorded (R379). -/
def Dev.eccLast (s : Dev) (slot : Nat) : Dev :=
  let h := s.holderOf slot
  (((s.setF Reg.INTG_ECC_LAST.slot slot).setF Reg.INTG_ECC_LAST.queue (h.getD 0)).setF Reg.INTG_ECC_LAST.owned
    (if h.isSome then 1 else 0)).setF Reg.INTG_ECC_LAST.valid 1

/-- An upset that has struck a slot: 1 leaves a single-bit error in it, 2 an uncorrectable one (log entry 70). -/
def Dev.upset (s : Dev) (slot found : Nat) : Dev :=
  if found = 2 ∨ (found = 1 ∧ s.slotErr slot = .single) then s.setSlotErr slot .double
  else if found = 1 ∧ s.slotErr slot = .clean then s.setSlotErr slot .single
  else s

/-- The scrubber reads its next slot (R378, R379). -/
def Dev.scrubRead (s0 : Dev) (found : Nat) : Dev :=
  let slot := s0.scrub.next
  let s := s0.upset slot found
  let a := s.reach (s.scrub.since + s.fld Reg.INTG_CTRL.scrub_period * Config.xcPs)
  let b := { a with scrub := { a.scrub with next := if slot = lastSlot then 0 else slot + 1, since := a.now } }
  match b.slotErr slot with
  | .clean => b
  | .single => { b with scrub := { b.scrub with due := b.scrub.due ++ [slot] } }
  | .double => (b.eccLast slot).countAnd Reg.INTG_SCRUB_STAT.uncorrectable 0 0 2 13 integInst 0 2 slot

/-- SCRUB_READ (R378). -/
def execScrubRead (s : State) (found : Fin 3 := 0) : Out := s.run (fun d => d.scrubRead found.val)

/-- The oldest corrected slot is written back, unless another write has reached it (R379). -/
def Dev.scrubBack (s : Dev) : Dev :=
  match s.scrub.due with
  | [] => s
  | slot :: rest =>
    let a := { s with scrub := { s.scrub with due := rest } }
    if a.slotErr slot = .single then (a.setSlotErr slot .clean).bump Reg.INTG_SCRUB_STAT.corrected
    else a.bump Reg.INTG_SCRUB_STAT.abandoned

/-- SCRUB_WRITEBACK (R379). -/
def execScrubWriteback (s : State) : Out := s.run (fun d => d.scrubBack)

/-! ### Check units (R380–R383) -/

/-- What a check unit computes: width, polynomial, reflection of input and output, initial value, final XOR (R380). -/
structure CrcSpec where
  width : Nat
  poly : Nat
  reflIn : Bool
  reflOut : Bool
  init : Nat
  xorout : Nat
  deriving DecidableEq, Repr

/-- The algorithm that CHK_CFG selects (R380). -/
def Dev.chkSpec (s : Dev) (u : Nat) : CrcSpec :=
  let alg := s.fld Reg.CHK_CFG.algorithm u
  if alg = 0 then ⟨32, 0x1EDC6F41, true, true, 0xFFFFFFFF, 0xFFFFFFFF⟩
  else if alg = 1 then ⟨32, 0x04C11DB7, true, true, 0xFFFFFFFF, 0xFFFFFFFF⟩
  else if alg = 2 then ⟨64, 0x42F0E1EBA9EA3693, false, false, 0, 0⟩
  else
    let w := s.fld Reg.CHK_CFG.width u + 1
    ⟨w, s.fld Reg.CHK_POLY.poly u % 2 ^ w, s.flag Reg.CHK_CFG.reflect_in u, s.flag Reg.CHK_CFG.reflect_out u,
      s.fld Reg.CHK_INIT.init u % 2 ^ w, s.fld Reg.CHK_XOROUT.xorout u % 2 ^ w⟩

/-- result: value XOR xorout, reflected once more where the reflections differ (R382). -/
def Dev.chkResult (s : Dev) (u : Nat) : Nat :=
  let c := s.chkSpec u
  let v := (s.fld Reg.CHK_VALUE.value u % 2 ^ c.width) ^^^ c.xorout
  if c.reflOut != c.reflIn then reflectBits c.width v else v

/-- The states of a scan (R403). -/
def ckIdle : Nat := 0
def ckRunning : Nat := 1
def ckPaused : Nat := 2
def ckDone : Nat := 3
def ckRange : Nat := 4
def ckEcc : Nat := 5

/-- The state of a check unit. -/
def Dev.chkState (s : Dev) (u : Nat) : Nat := s.fld Reg.CHK_CTRL.status u
def Dev.chkGo (s : Dev) (u st : Nat) : Dev := s.setF Reg.CHK_CTRL.status st u

/-- Slot i of a scan (R381). -/
def Dev.chkSlot (s : Dev) (u i : Nat) : Nat := s.fld Reg.CHK_SCAN.start u + i * (s.fld Reg.CHK_SCAN.stride u + 1)

/-- May a unit's owner scan a slot (R381)? -/
def Dev.chkMay (s : Dev) (u slot : Nat) : Bool :=
  let p := s.fld Reg.CHK_CFG.owner u
  decide (slot ≤ lastSlot) && (p == 0 || (s.holderOf slot).any (fun q => s.queueOwner q == p))

/-- May a whole scan run (R381)? -/
def Dev.chkAllowed (s : Dev) (u : Nat) : Bool :=
  let n := s.fld Reg.CHK_SCAN.length u
  decide (s.chkSlot u (n - 1) ≤ lastSlot) && (s.fld Reg.CHK_CFG.owner u == 0 || (List.range n).all (fun i => s.chkMay u (s.chkSlot u i)))

/-- go (R381, R382). -/
def Dev.checkGo (s : Dev) (u : Nat) : Dev :=
  if s.fld Reg.CHK_CFG.enable u = 0 then s
  else if s.chkState u = ckRunning then s.log 13 u (s.fld Reg.CHK_CFG.owner u) (Reg.CHK_CTRL.go.addr u 0 0)
  else if s.chkAllowed u then
    (((s.setF Reg.CHK_VALUE.value (s.chkSpec u).init u).setF Reg.CHK_CTRL.done_slots 0 u).chkGo u
      (if s.fld Reg.CHK_SCAN.length u = 0 then ckDone else ckRunning))
  else s.chkGo u ckRange

/-- CHECK_GO (R381). -/
def execCheckGo (u : Fin 64) (s : State) : Out := s.run (fun d => d.checkGo u.val)

/-- CHECK_PAUSE (R382). -/
def execCheckPause (u : Fin 64) (s : State) : Out :=
  s.run (fun d => if d.chkState u.val = ckRunning then d.chkGo u.val ckPaused else d)

/-- resume (R382): the scan goes on at the slot after the last one fed. -/
def Dev.checkResume (s : Dev) (u : Nat) : Dev :=
  let st := s.chkState u
  if s.fld Reg.CHK_CFG.enable u = 0 ∨ (st ≠ ckPaused ∧ st ≠ ckIdle ∧ st ≠ ckDone) then s
  else if s.fld Reg.CHK_CTRL.done_slots u < s.fld Reg.CHK_SCAN.length u then s.chkGo u ckRunning
  else s

/-- CHECK_RESUME (R382). -/
def execCheckResume (u : Fin 64) (s : State) : Out := s.run (fun d => d.checkResume u.val)

/-- The bytes that a slot gives a scan (R381). -/
def Dev.chkBytes (s : Dev) (u : Nat) (c : Cell) : List Byte :=
  grainBytes c.1 ++ (if s.flag Reg.CHK_CFG.with_mark u then [c.2.setWidth 8] else [])

/-- A running scan feeds its next slot, and stops after the last or with ECC (R381–R383). -/
def Dev.checkSlot (s : Dev) (u : Nat) : Dev :=
  if s.chkState u ≠ ckRunning then s
  else
    let i := s.fld Reg.CHK_CTRL.done_slots u
    let slot := s.chkSlot u i
    let c := s.chkSpec u
    if !s.chkMay u slot then s.chkGo u ckRange
    else if s.slotErr slot = .double then (s.chkGo u ckEcc).alarmAt Reg.CHK_CTRL.status u 0 13 1 u (s.fld Reg.CHK_CFG.owner u) slot
    else
      let v := crcFeed c.width c.poly c.reflIn (s.fld Reg.CHK_VALUE.value u % 2 ^ c.width) (s.chkBytes u (s.slotCell slot))
      let a := (s.setF Reg.CHK_VALUE.value v u).setF Reg.CHK_CTRL.done_slots (i + 1) u
      if s.fld Reg.CHK_SCAN.length u ≤ i + 1 then a.chkGo u ckDone else a

/-- CHECK_SCAN_SLOT (R383). -/
def execCheckScanSlot (u : Fin 64) (s : State) : Out := s.run (fun d => d.checkSlot u.val)

/-! ### Twin digests (R329, R389–R391) -/

/-- The bytes of a digest entry (R389). -/
def Digest.bytes (d : Digest) : List Byte :=
  leBytes 6 d.index ++ leBytes 1 d.ordinal ++
    leBytes 1 ((if d.touched then 1 else 0) + (if d.ellipsis then 2 else 0) + (if d.halfSeam then 4 else 0)) ++ leBytes 8 d.digest

/-- A digest entry read from its bytes, received at an instant. -/
def digestFrom (now : Nat) (bs : List Byte) : Digest :=
  let f := ofLeBytes (slice bs 7 1)
  { index := ofLeBytes (slice bs 0 6), ordinal := ofLeBytes (slice bs 6 1), touched := f.testBit 0, ellipsis := f.testBit 1
    halfSeam := f.testBit 2, digest := ofLeBytes (slice bs 8 8), at_ := now, queue := 0, colonPtr := none }

/-- The payload of a TWIN_DIGEST (R389). -/
def twinPayload (ds : List Digest) : List Byte := leBytes 2 ds.length ++ List.replicate 6 0 ++ ds.flatMap Digest.bytes

/-- The entries in the payload of a TWIN_DIGEST, where it keeps to its layout. -/
def twinEntries (now : Nat) (bs : List Byte) : Option (List Digest) :=
  let n := ofLeBytes (slice bs 0 2)
  if bs.length = 8 + 16 * n ∧ n ≤ 67 then some ((List.range n).map (fun i => digestFrom now (slice bs (8 + 16 * i) 16))) else none

/-- A TWIN_DIGEST goes to the twin: by the uplinks, or round the ring where both are out of RUN (R323, R329). -/
def Dev.twinSend (s : Dev) (ds : List Digest) : Dev :=
  let flow := s.fld Reg.FLK_TWIN.twin_flow
  let a := { s with twin := { s.twin with sentAt := s.now } }
  if a.liveUplinks.isEmpty then
    let m := a.kmpMake 0 koTwin flow (twinPayload ds)
    m.2.ringSend chTwin (some s.twinAddr) (.twinTraffic m.1)
  else a.kmpEmit 0 koTwin flow (twinPayload ds)

/-- The waiting entries go out when 67 wait, or twin_batch after the oldest (R389). -/
def Dev.twinBatch (s : Dev) : Dev :=
  match s.flag Reg.FLK_TWIN.twin_en, s.twin.unsent with
  | true, d :: rest =>
    let ds := d :: rest
    let a := if 67 ≤ ds.length then s else s.reach (d.at_ + s.fld Reg.INTG_CTRL.twin_batch * Config.usPs)
    { a with twin := { a.twin with unsent := ds.drop 67 } }.twinSend (ds.take 67)
  | _, _ => s

/-- TWIN_DIGEST_SEND (R389). -/
def execTwinDigestSend (s : State) : Out := s.run (fun d => d.twinBatch)

/-- TWIN_HEARTBEAT (R329). -/
def Dev.twinBeat (s : Dev) : Dev :=
  if s.flag Reg.FLK_TWIN.twin_en then (s.reach (s.twin.sentAt + Config.msPs)).twinSend [] else s

def execTwinHeartbeat (s : State) : Out := s.run (fun d => d.twinBeat)

/-- The uplink that twin traffic came by, which its command does not name: the one in RUN, or an open one of the two. -/
def Dev.twinUplink (s : Dev) : Nat × Dev :=
  match s.liveUplinks with
  | [u] => (u, s)
  | _ => let x := s.drawFree 1; (x.1.toNat, x.2)

/-- The window in which the sequence numbers of the twin's messages are kept (R294). -/
def twinWindow : Nat := 16

/-- A TWIN_DIGEST arrives (R293, R294, R329, R390). -/
def Dev.twinIn (s : Dev) (source : Nat) (m : KmpMsg) : Dev :=
  if m.opcode ≠ BitVec.ofNat 8 koTwin ∨ s.flag Reg.FLK_TWIN.twin_en = false then s
  else
    let u := s.twinUplink
    if !s.kmpAuthentic m ∨ m.part ≠ 0 then u.2.bump Reg.UPL_STAT2.auth_fail u.1
    else if !s.seqFresh twinWindow m.sequence.toNat then u.2.bump Reg.UPL_STAT2.replay u.1
    else
      let a := s.seqMark twinWindow m.sequence.toNat
      if source ≠ s.twinAddr then a.alarm 10 5 2 0
      else match twinEntries a.now m.payload with
        | none => (u.2.seqMark twinWindow m.sequence.toNat).kmpReply u.1 m ksLength []
        | some ds => ds.foldl (fun d t => d.twinDigestIn t) a.twinHeard

/-- TWIN_DIGEST (R390). -/
def execTwinDigest (source : BitVec 7) (msg : KmpMsg) (s : State) : Out := s.run (fun d => d.twinIn source.toNat msg)

/-- The first entry to expire unmatched, and all others that expire with it (R390). -/
def Dev.digestExpire (s : Dev) : Dev :=
  match ((s.twin.own ++ s.twin.theirs).map (fun d => d.at_)).min? with
  | none => s
  | some t =>
    let w := s.fld Reg.INTG_CTRL.twin_window * Config.msPs
    let a := s.reach (t + w)
    let stays := fun (d : Digest) => decide (a.now < d.at_ + w)
    let n := (a.twin.own ++ a.twin.theirs).length
    let b := { a with twin := { a.twin with own := a.twin.own.filter stays, theirs := a.twin.theirs.filter stays } }
    b.bump Reg.INTG_TWIN_STAT.unmatched 0 0 0 (n - (b.twin.own ++ b.twin.theirs).length)

/-- DIGEST_ENTRY_EXPIRE (R390). -/
def execDigestEntryExpire (s : State) : Out := s.run (fun d => d.digestExpire)

/-! ### Events (R394–R398) -/

/-- The owner of an event source (R392, R475). -/
def Dev.sourceOwner (s : Dev) (kind inst : Nat) : Nat :=
  let low := inst % 0x8000
  if kind = 0 then (if inst < 0x8000 then s.queueOwner inst else s.fld Reg.QFAB_CONJ_CFG.owner low)
  else if kind = 1 then s.portOwner inst
  else if kind = 3 then s.fld Reg.TILE_CTRL2.owner inst
  else if kind = 4 then s.fld Reg.KAL_CTRL.owner inst
  else if kind = 5 then s.fld Reg.PGR_CTRL.owner (inst / 4)
  else if kind = 6 then s.fld Reg.JIG_CTRL.owner low
  else if kind = 7 ∧ inst < 0x8000 then s.fld Reg.ABA_CTRL.owner inst
  else if kind = 7 then s.queueOwner (s.fld Reg.ABA_TAP.src_q low)
  else if kind = 9 ∧ inst < 0x8000 then s.fld Reg.DMA_CH_CFG.owner inst
  else if kind = 12 then inst % 16
  else if kind = 13 ∧ inst < 0x8000 then s.fld Reg.CHK_CFG.owner inst
  else 0

/-- A source gains its tokens, and writes the summary record that waits for one (R395). -/
def Dev.tokenRefill (s : Dev) (kind inst : Nat) : Dev :=
  let key := unitKey kind inst
  let rate := s.fld Reg.INTG_EVT_CFG.evt_rate
  if (s.evtSrc key).spent = 0 ∨ rate = 0 then s
  else ((s.reach ((s.evtSrc key).refilledAt + (Config.msPs + rate - 1) / rate)).refill key).summaryRecord kind inst (s.sourceOwner kind inst)

/-- EVENT_TOKEN_REFILL (R395). -/
def execEventTokenRefill (kind : Fin 16) (inst : BitVec 16) (s : State) : Out := s.run (fun d => d.tokenRefill kind.val inst.toNat)

/-- ALARM_HOLDOFF_EXPIRE (R395). -/
def execAlarmHoldoffExpire (condition : BitVec 8) (s : State) : Out :=
  s.run (fun d => (d.reach (d.alarmHold condition.toNat)).setAlarmHold condition.toNat 0)

/-- The waiting records of a partition are pushed: 29, or those that wait 100 µs after the oldest (R398). -/
def Dev.pushOut (s : Dev) (p : Nat) : Dev :=
  let recs := (s.part p).pushed
  if recs.isEmpty then s
  else
    let a := if 29 ≤ recs.length then s else s.reach ((s.part p).pushSince + 100 * Config.usPs)
    (a.setPart p { a.part p with pushed := recs.drop 29, pushSince := a.now }).kmpEmit p koEvent (s.fld Reg.INTG_EVT_RING.evt_flow p)
      (eventPayload (recs.take 29))

/-- EVENT_PUSH (R398). -/
def execEventPush (p : Part) (s : State) : Out := s.run (fun d => d.pushOut p.val)

/-- Summary bits are cleared by P0; a bit that is set in the same fc stays (R12, R397). -/
def Dev.alarmClear (s : Dev) (i : Nat) (mask coincident : Word) : Dev :=
  s.setF Reg.INTG_ALARM.summary ((BitVec.ofNat 64 (s.fld Reg.INTG_ALARM.summary i) &&& ~~~ mask) ||| coincident).toNat i

/-- ALARM_CLEAR (R397). -/
def execAlarmClear (i : Fin 4) (mask : Word) (coincident : Word) (s : State) : Out := s.run (fun d => d.alarmClear i.val mask coincident)

/-- The host moves a ring's tail on, up to the head (R394, R402). -/
def Dev.tailWrite (s : Dev) (p tail : Nat) : Dev :=
  let old := s.fld Reg.INTG_EVT_TAIL.tail p
  if (tail + 8192 - old) % 8192 ≤ s.ringFill p then s.setF Reg.INTG_EVT_TAIL.tail tail p
  else s.log 13 integInst p (Reg.INTG_EVT_TAIL.tail.addr p 0 0)

/-- EVENT_TAIL_WRITE (R394). -/
def execEventTailWrite (p : Part) (tail : BitVec 13) (s : State) : Out := s.run (fun d => d.tailWrite p.val tail.toNat)

end Sys2Proof.Machine
end

