-- ==== Sys2Proof/Machine/HostAccess.lean ====
section
/-! DEFINITION. Accesses from outside: register reads and writes under their access codes, rights, invalid values, the latched
timebase and the queue-memory window (R10–R15, R81–R83, R350, R471–R474, R479, R480). -/

namespace Sys2Proof.Machine

/-- The state that an outcome leaves. -/
def State.after (s : State) (o : Out) : State :=
  match o with
  | .next t => t
  | _ => s

/-! ### The word that an access names (R471) -/

/-- The 8-aligned address of an access, and the bits that it covers. -/
def wordAddr (a : Nat) : Nat := a - a % 8
def accessMask (a : Nat) (wide : Bool) : Nat := if wide then 2 ^ 64 - 1 else if a % 8 = 4 then (2 ^ 32 - 1) * 2 ^ 32 else 2 ^ 32 - 1

/-- Is an access aligned? -/
def aligned (a : Nat) (wide : Bool) : Bool := if wide then a % 8 == 0 else a % 4 == 0

/-- A value in its place in the word, and the part of a word that an access returns. -/
def placed (a : Nat) (wide : Bool) (v : Word) : Word :=
  if wide then v else if a % 8 = 4 then v <<< 32 else v &&& BitVec.ofNat 64 (2 ^ 32 - 1)
def taken (a : Nat) (wide : Bool) (w : Word) : Word :=
  if wide then w else if a % 8 = 4 then w >>> 32 else w &&& BitVec.ofNat 64 (2 ^ 32 - 1)

/-- The bank that a unit's window addresses (R172). -/
def Dev.bankSel (s : Dev) (w : Reg.Window) (u : Nat) : Nat :=
  match w with
  | .wTILE => s.fld Reg.TILE_BANK_SEL.bank u
  | .wKAL => s.fld Reg.KAL_BANK_SEL.bank u
  | _ => s.fld Reg.PGR_BANK_SEL.bank u

/-- The key of the word at a bus address, with its register: none where nothing is mapped (R473). -/
def Dev.locate (s : Dev) (a : Nat) : Option (Nat × Reg.Hit) :=
  if 2 ^ 40 ≤ a then none
  else if a = 0 then (Reg.findReg (Reg.TMB_ID.part_code.addr 0 0 0)).map (fun h => (Reg.TMB_ID.part_code.addr 0 0 0, h))
  else
    let banked := fun (h : Reg.Hit) =>
      let key := 2 ^ 40 * (s.bankSel (Reg.windowOf a) h.i + 1) + a
      (Reg.findReg key).map (fun g => (key, g))
    match (Reg.windowOf a).table.findSome? (fun r => if r.banked then (r.locate (2 ^ 40 + a)).map (fun h => (r, h)) else none) with
    | some x => banked x.2
    | none => (Reg.findReg a).bind (fun h => if h.reg.banked then none else some (a, h))

/-! ### Rights (R350, R375, R402, R445, R446) -/

/-- Is a word one of a partition's own PART registers, or of its event ring? -/
def ownWord (a : Nat) (h : Reg.Hit) (p : Nat) : Bool :=
  (Reg.windowOf a == .wPART && h.reg.c0 == 16 && h.i == p) ||
    ([Reg.INTG_EVT_RING, Reg.INTG_EVT_HEAD, Reg.INTG_EVT_TAIL, Reg.INTG_EVT_STAT].contains h.reg && h.i == p)

/-- May a partition read a word (R350)? -/
def Dev.mayRead (s : Dev) (p a : Nat) (h : Reg.Hit) : Bool :=
  p == 0 || [Reg.Window.wGLB, .wTMB, .wMARN, .wTIME, .wFLK, .wUPL].contains (Reg.windowOf (a % 2 ^ 40)) || h.reg == Reg.IMG_STATUS ||
    s.regs.hostOwner a == some p || ownWord a h p

/-- May a partition write a value to the word at a key (R350, R276, R375, R446)? The words of a bank window are its unit's (R172). -/
def Dev.mayWrite (s : Dev) (who : Requester) (a : Nat) (h : Reg.Hit) (v : Word) : Bool :=
  let p := who.part.val
  if Reg.windowOf (a % 2 ^ 40) = .wDBG then who.path == .debug
  else p == 0 || s.regs.hostOwner a == some p ||
    (ownWord a h p && [Reg.PART_CTRL, Reg.PART_CAUSE, Reg.PART_NOTICE_ACK, Reg.INTG_EVT_TAIL].contains h.reg) ||
    (h.reg == Reg.IMG_CTRL && fieldOf Reg.IMG_CTRL.commit v == 0)

/-- Would a request of a partition that drains or aborts write an RW or W1S field of one of its units (R371)? DEDUCED (log entry 136): of
the resources that are always P0's, Marionette, the links, the timebase, the clocks and calibration count as its units. -/
def Dev.busyFor (s : Dev) (who : Requester) (a : Nat) (h : Reg.Hit) (m : Nat) : Bool :=
  let p := who.part.val
  let st := s.fld Reg.PART_CTRL.state p
  who.path == .kmp && (st == psDraining || st == psAborting) && s.regs.hostOwner a == some p &&
    h.reg.fields.any (fun f => (f.acc == .rw || f.acc == .w1s) && fieldMask f &&& m != 0)

/-- An access that is refused counts against the partition that asked over KMP (R350, R473). -/
def Dev.refused (s : Dev) (who : Requester) : Dev :=
  if who.path = .kmp then s.bump Reg.PART_STAT2.range_refusals who.part.val else s

/-- The source kind and instance of a window, for an event of a refused write (R475). -/
def windowSource (a : Nat) (h : Reg.Hit) : Nat × Nat :=
  match Reg.windowOf (a % 2 ^ 40) with
  | .wQD => (0, h.i)
  | .wQFAB => (0, if Reg.QFAB_CONJ_CFG.base ≤ h.reg.base then 0x8000 + h.i else 0)
  | .wSPORT => (1, h.i)
  | .wMARN => (2, 0)
  | .wTILE => (3, h.i)
  | .wKAL => (4, h.i)
  | .wPGR => (5, 4 * h.i + if h.reg.c1 = 4 then h.j else 0)
  | .wJIG => (6, if Reg.JIG_COL_CFG.base ≤ h.reg.base then 0x8000 + h.i else h.i)
  | .wABA => (7, if h.reg = Reg.ABA_TAP ∨ h.reg = Reg.ABA_TAP_STAT then 0x8000 + h.i else h.i)
  | .wIMG => (8, 0)
  | .wUPL => (9, if h.reg.c0 = 2 then 0x8000 + h.i else 0)
  | .wDMA => (9, h.i)
  | .wFLK => (10, if h.reg.c0 = 2 then h.i else 2)
  | .wTIME => (11, 0)
  | .wPART => (12, if h.reg.c0 = 16 then h.i else 0)
  | .wINTG => (13, 0x8000)
  | .wCHK => (13, h.i)
  | .wCLK => (14, if h.reg = Reg.CLK_FREQ then h.i else 0)
  | .wCAL => (14, if h.reg.c0 = 62 then 0x8000 + h.i else 0)
  | _ => (15, 0)

/-- The LOG event of a register write that is ignored (R475, R476). -/
def Dev.ignored (s : Dev) (who : Requester) (a : Nat) (h : Reg.Hit) : Dev :=
  let w := windowSource a h
  s.log w.1 w.2 who.part.val (a % 2 ^ 40)

/-! ### Fields whose writes have effects of their own -/

/-- The effect of a write to a field: the register's instance, who writes, the value. -/
abbrev FieldAct := Reg.Hit → Requester → Nat → State → State

/-- A device operation as a field's effect. -/
def devAct (f : Reg.Hit → Requester → Nat → Dev → Dev) : FieldAct := fun h w v s => { s with dev := f h w v s.dev }

/-- A cause is enabled or disabled; the first enabling of cause 15 in a session is its first notice (R353). -/
def Dev.causeEnable (s : Dev) (p c v : Nat) : Dev :=
  let a := s.setF Reg.PART_CAUSE.enable v p c
  if c = 15 ∧ v = 1 ∧ (a.part p).sessionNoted = false then (a.setPart p { a.part p with sessionNoted := true }).notice p 15 0 else a

/-- The running value of a check unit: a write while the scan runs is ignored (R382). -/
def Dev.chkValue (s : Dev) (who : Requester) (h : Reg.Hit) (v : Nat) : Dev :=
  if s.chkState h.i = ckRunning then s.ignored who (Reg.CHK_VALUE.value.addr h.i 0 0) h else s.setF Reg.CHK_VALUE.value v h.i

/-- role: an active master yields; a listener becomes active only under R103. -/
def Dev.roleWrite (s : Dev) (n v : Nat) : Dev := if v = 1 then s.setF Reg.SPORT_CCI_CFG.role 1 n else s

/-- RW fields whose writes start something. -/
def rwActs : List (Reg.Fld × FieldAct) :=
  [(Reg.MARN_CTRL.run, fun _ _ v s => s.after (if v = 1 then execRunSet s else execRunClear s)),
   (Reg.MARN_CTRL.running, fun _ _ v s => s.after (execRunningWrite (v == 1) s)),
   (Reg.MARN_RATE.rate, fun _ _ v s => s.after (execRateWrite (BitVec.ofNat 32 v) s)),
   (Reg.MARN_HEAD_MID.mid_offset_next, fun h _ v s => s.after (execMidOffsetNextWrite (Fin.ofNat 32 h.i) (BitVec.ofNat 20 v) s)),
   (Reg.SPORT_CCI_CFG.role, devAct (fun h _ v d => d.roleWrite h.i v)),
   (Reg.DMA_CH_CTRL.enable, devAct (fun h _ v d => if v = 1 then d.chEnable h.i else d.chDisable h.i caDisabled)),
   (Reg.DMA_CH_QP.psn, devAct (fun h _ v d => d.psnWrite h.i h.j v)),
   (Reg.IMG_COMMIT_TAG.commit_tag, devAct (fun _ _ v d => (d.setF Reg.IMG_COMMIT_TAG.commit_tag v).tagWritten)),
   (Reg.PART_CAUSE.enable, devAct (fun h _ v d => d.causeEnable h.i h.j v)),
   (Reg.INTG_EVT_TAIL.tail, devAct (fun h _ v d => d.tailWrite h.i v)),
   (Reg.CHK_VALUE.value, devAct (fun h w v d => d.chkValue w h v)),
   (Reg.TMB_REPEATER.force, devAct (fun _ _ v d => d.repeaterForce (v == 1)))]

/-- The channel's descriptor words before the fourth are kept; the fourth appends them (R298). -/
def Dev.descWord (s : Dev) (ch i v : Nat) : Dev :=
  if i = 3 then s.pushDesc ch v else s.modChan ch (fun r => { r with words := r.words.set i v })

/-- The partitions whose bit is set in a mask. -/
def maskBits (n v : Nat) : List Nat := (List.range n).filter (fun i => v.testBit i)

/-- The debug port locks (R443), unless the debug_open fuse keeps it open. -/
def State.debugLock (s : State) : State :=
  if s.fuses.debugOpen then s else { s with dev := s.dev.setF Reg.DBG_STATUS.unlocked 0 }

/-- W1S, W1C and WO fields, but for those of TMB_RESET: the effect of writing a value to them (the bits that are 1). -/
def startActs : List (Reg.Fld × FieldAct) :=
  [(Reg.SPORT_CCI_CFG.takeover, devAct (fun h _ _ d => d.cciTakeover h.i)),
   (Reg.SPORT_CCI_CMD.go, devAct (fun h _ _ d => d.cciGo h.i)),
   (Reg.SPORT_EXP_SLOT.arm, devAct (fun h _ _ d => d.expArm h.i h.j)),
   (Reg.SPORT_EXP_SLOT.cancel, devAct (fun h _ _ d => d.expCancel h.i h.j)),
   (Reg.MARN_CTRL.restart, fun _ _ _ s => s.after (execEncoderRestart s)),
   (Reg.TILE_COMMIT_CTL.arm, fun h _ _ s => s.after (execTileCommitArm (Fin.ofNat 256 h.i) s)),
   (Reg.TILE_COMMIT_CTL.cancel, fun h _ _ s => s.after (execTileCommitCancel (Fin.ofNat 256 h.i) s)),
   (Reg.TILE_BANK_SEL.copy, fun h _ _ s => s.after (execTileBankCopy (Fin.ofNat 256 h.i) s)),
   (Reg.TILE_LUT_LOAD.go, fun h _ _ s => s.after (execLutPageLoad (Fin.ofNat 256 h.i) s)),
   (Reg.KAL_COMMIT_CTL.arm, fun h _ _ s => s.after (execKalCommitArm (Fin.ofNat 32 h.i) s)),
   (Reg.KAL_COMMIT_CTL.cancel, fun h _ _ s => s.after (execKalCommitCancel (Fin.ofNat 32 h.i) s)),
   (Reg.KAL_BANK_SEL.copy, fun h _ _ s => s.after (execKalBankCopy (Fin.ofNat 32 h.i) s)),
   (Reg.PGR_COMMIT_CTL.arm, fun h _ _ s => s.after (execPgrCommitArm (Fin.ofNat 32 h.i) s)),
   (Reg.PGR_COMMIT_CTL.cancel, fun h _ _ s => s.after (execPgrCommitCancel (Fin.ofNat 32 h.i) s)),
   (Reg.PGR_BANK_SEL.copy, fun h _ _ s => s.after (execPgrBankCopy (Fin.ofNat 32 h.i) s)),
   (Reg.ABA_SCREEN.reseed, fun h _ v s => s.after (execAbacusReseed (Fin.ofNat 64 h.i) (BitVec.ofNat 16 v) s)),
   (Reg.IMG_CTRL.load_start, devAct (fun _ w _ d => d.startLoad w.part.val false)),
   (Reg.IMG_CTRL.load_end, devAct (fun _ w _ d => d.endLoad w.part.val)),
   (Reg.IMG_CTRL.discard, devAct (fun _ w _ d => d.discardImage w.part.val)),
   (Reg.IMG_CTRL.commit, devAct (fun _ _ _ d => d.requestCommit)),
   (Reg.IMG_ROLLBACK.burn, fun _ _ _ s => s.after (execRollbackBurn s)),
   (Reg.IMG_KEYS.revoke, fun _ _ v s => s.after (execKeyRevoke (BitVec.ofNat 4 v) s)),
   (Reg.DMA_CH_QP.connect, devAct (fun h _ _ d => d.qpConnect h.i h.j)),
   (Reg.DMA_DESC_PUSH.word, devAct (fun h _ v d => d.descWord h.i h.j v)),
   (Reg.FLK_CHAIN.renumber, fun _ _ _ s => s.after (execRenumber s)),
   (Reg.FLK_CHAIN.force_renumber, fun _ _ _ s => s.after (execForceRenumber s)),
   (Reg.TIME_CTRL.restep, fun _ _ _ s => s.after (execRestepRequest s)),
   (Reg.PART_CTRL.abort, devAct (fun h _ _ d => d.partAbort h.i caPartAbort)),
   (Reg.PART_CTRL.drain, devAct (fun h _ _ d => d.partDrain h.i)),
   (Reg.PART_CTRL.resume, devAct (fun h _ _ d => d.partResume h.i)),
   (Reg.PART_NOTICE_ACK.notice_id, devAct (fun h _ v d => d.noticeAcked h.i v)),
   (Reg.INTG_ALARM.summary, devAct (fun h _ v d => d.alarmClear h.i (BitVec.ofNat 64 v) 0)),
   (Reg.CHK_CTRL.go, devAct (fun h _ _ d => d.checkGo h.i)),
   (Reg.CHK_CTRL.pause, devAct (fun h _ _ d => if d.chkState h.i = ckRunning then d.chkGo h.i ckPaused else d)),
   (Reg.CHK_CTRL.resume, devAct (fun h _ _ d => d.checkResume h.i)),
   (Reg.CLK_MEAS_SEL.go, devAct (fun _ _ _ d => d.clockMeasure)),
   (Reg.CAL_BLK.run, devAct (fun h _ _ d => d.calRun h.i)),
   (Reg.DBG_STATUS.step_refused, devAct (fun _ _ _ d => d.setF Reg.DBG_STATUS.step_refused 0)),
   (Reg.DBG_CTRL.relock, fun _ _ _ s => s.debugLock),
   (Reg.DBG_HIT.hit, devAct (fun _ _ v d => d.setF Reg.DBG_HIT.hit (d.fld Reg.DBG_HIT.hit &&& (2 ^ 16 - 1 - v))))]

/-- A write to TMB_RESET (R445): aborts by bit; warm or cold with the confirmation in the same write. -/
def State.tmbReset (s : State) (w : Word) : State :=
  let a := s.after (execTmbPartitionAbort (BitVec.ofNat 16 (fieldOf Reg.TMB_RESET.abort w)) s)
  let confirm : Byte := BitVec.ofNat 8 (fieldOf Reg.TMB_RESET.confirm w)
  if fieldOf Reg.TMB_RESET.cold w = 1 then a.after (execColdResetRequest confirm a)
  else if fieldOf Reg.TMB_RESET.warm w = 1 then a.after (execWarmResetRequest confirm a)
  else a

/-! ### Writes (R10–R15, R471–R474, R479) -/

/-- The RW bits of a word that a write changes outright: not those of fields with an effect of their own. -/
def plainMask (h : Reg.Hit) : Nat := maskOf (h.reg.fields.filter (fun f => f.acc == .rw && (rwActs.find? (fun x => x.1 == f)).isNone))

/-- Fields that a write of a word would give an invalid value (R479); a write of the value that an RWL field has gives it none (R10). -/
def invalidRw (h : Reg.Hit) (old new : Word) (m : Nat) : Nat :=
  maskOf (h.reg.fields.filter (fun f => (f.acc == .rw || (f.acc == .rwl && fieldOf f new != fieldOf f old)) && fieldMask f &&& m != 0 &&
    !validField f new))

/-- Is a commit of a unit armed, so that its shadow takes no write (R167, R189, R211)? -/
def Dev.shadowHeld (s : Dev) (key : Nat) (h : Reg.Hit) : Bool :=
  match winOf (windowSource key h).1 with
  | none => false
  | some w => s.fld w.status h.i == 1

/-- A write to a word of a bank window (R167, R172, R479): the shadow takes every value, but none while a commit is armed; an active
bank takes none. -/
def Dev.bankWrite (s : Dev) (who : Requester) (key : Nat) (h : Reg.Hit) (m : Nat) (v : Word) : Dev :=
  if key < 17 * 2 ^ 40 ∨ s.shadowHeld key h then s.ignored who key h
  else { s with regs := s.regs.setWord key (mergeWord (m &&& maskOf (h.reg.fields.filter (fun f => f.acc == .rw))) (s.regs.word key) v) }

/-- The RWL bits of a write before the first commit (R10, R350): the configuration changes at once, in force and in the copies. -/
def Dev.rwlWrite (s : Dev) (key m : Nat) (v : Word) : Dev :=
  let put := fun (c : RegFile) => c.setWord key (mergeWord m (c.word key) v)
  let new := s.preCommit put
  let reached := (s.marn.bounds.filter (fun x => x.epoch.isSome)).length
  if new.regs = s.regs then s else (new.configChanged s ((s.gridIndex + 1) % 2 ^ 48) reached).channelsChanged

/-- The values of fields with an effect of their own, in the order of a table. -/
def State.runActs (s : State) (acts : List (Reg.Fld × FieldAct)) (h : Reg.Hit) (who : Requester) (v : Word) (m : Nat)
    (which : Reg.Fld → Bool) : State :=
  acts.foldl (fun t x => if h.reg.fields.contains x.1 && fieldMask x.1 &&& m != 0 && which x.1 then x.2 h who (fieldOf x.1 v) t else t) s

/-- The bits of an exposure slot's entry or commit_index that a write may not change: those of a slot that is armed (R111). -/
def Dev.slotHeld (s : Dev) (h : Reg.Hit) : Nat :=
  if (h.reg = Reg.SPORT_EXP_ENTRY ∨ h.reg = Reg.SPORT_EXP_SLOT) ∧ s.fld Reg.SPORT_EXP_SLOT.status h.i h.j ≠ 0 then
    maskOf (h.reg.fields.filter (fun f => f.acc == .rw))
  else 0

/-- A write that is allowed, to a mapped word: RWL fields, plain RW fields, RW fields with effects, then the fields that start
actions. -/
def State.writeWord (s : State) (who : Requester) (key : Nat) (h : Reg.Hit) (m : Nat) (v : Word) : State :=
  if h.reg.banked then { s with dev := s.dev.bankWrite who key h m v }
  else
    let held := s.dev.slotHeld h &&& m
    let touched := (if h.reg = Reg.SPORT_EXP_ENTRY then held else (mergeWord held (s.dev.regs.word key) v ^^^ s.dev.regs.word key).toNat) != 0
    let old := s.dev.regs.word key
    let new := mergeWord m old v
    let bad := invalidRw h old new m
    let rwl := rwlMask key &&& m
    let changes := (new ^^^ old).toNat &&& rwl != 0
    let locked := changes && (s.dev.committed || who.part.val != 0)
    let isKey := h.reg == Reg.PART_KEY
    let d0 := if !changes || locked || isKey then s.dev else s.dev.rwlWrite key (rwl - (rwl &&& bad)) v
    let free := (plainMask h &&& m) - (plainMask h &&& m &&& (bad ||| held))
    let d1 := if free = 0 then d0 else { d0 with regs := d0.regs.setWord key (mergeWord free (d0.regs.word key) v) }
    let d2 := if locked || isKey || bad != 0 || touched then d1.ignored who key h else d1
    let ok := fun (f : Reg.Fld) => fieldMask f &&& bad == 0 && (f.acc != .rw || fieldOf f new != fieldOf f old || f == Reg.INTG_EVT_TAIL.tail ||
      f == Reg.IMG_COMMIT_TAG.commit_tag || f == Reg.MARN_CTRL.running || f == Reg.CHK_VALUE.value)
    let t0 := { s with dev := d2 }.runActs rwActs h who new m ok
    let set := v &&& BitVec.ofNat 64 m
    let starts := fun (f : Reg.Fld) => f.acc == .wo || fieldOf f set != 0
    let t1 := t0.runActs startActs h who set m starts
    if h.reg = Reg.TMB_RESET then t1.tmbReset set else t1

/-- Is the debug port unlocked (R443)? -/
def Dev.dbgOpen (s : Dev) : Bool := s.flag Reg.DBG_STATUS.unlocked

/-- The device while it carries out a request of a partition (R392); none at its end. -/
def Dev.askedBy (s : Dev) (p : Option Nat) : Dev := { s with kmp := { s.kmp with asker := p } }

/-- The partition to which the events of a request are attributed (R392). -/
def askerOf (who : Requester) : Option Nat := if who.path = .kmp then some who.part.val else none

/-- Has a word that a partition wrote begun an abort of that partition or a device warm reset, which ends the request with BUSY (R370, R374)? -/
def Dev.cutOff (old new : Dev) (who : Requester) : Bool :=
  let p := who.part.val
  who.path == .kmp && ((new.fld Reg.PART_CTRL.state p == psAborting && old.fld Reg.PART_CTRL.state p != psAborting) ||
    (new.start.flushFrom.isSome && old.start.flushFrom.isNone))

/-- A register write by a partition over KMP, or through the debug port: the state after it and its status. -/
def State.regWrite (s : State) (who : Requester) (a : Nat) (wide : Bool) (value : Word) : State × Nat :=
  if !aligned a wide then (s, if who.path = .kmp then ksAlign else ksRange)
  else if who.path = .debug ∧ !s.dev.dbgOpen then (s, ksRange)
  else
    let m := accessMask a wide
    let v := placed a wide value
    match s.dev.locate (wordAddr a) with
    | none => ({ s with dev := s.dev.refused who }, ksRange)
    | some (key, h) =>
      if !s.dev.mayWrite who key h v then ({ s with dev := s.dev.refused who }, ksRange)
      else if s.dev.busyFor who key h m then (s, ksBusy)
      else
        let t := { s with dev := s.dev.askedBy (askerOf who) }.writeWord who key h m v
        ({ t with dev := t.dev.askedBy none }, if s.dev.cutOff t.dev who then ksBusy else ksOk)

/-! ### Reads (R10, R13, R351, R480) -/

/-- The index of a path's latches (R480). -/
def pathIx (p : Path) : Nat := if p = .kmp then 0 else 1

/-- What a latched word of the timebase reads, from the value that its path holds. -/
def timeWords (v : Nat) : Word × Word := (BitVec.ofNat 64 (tbSeconds v), BitVec.ofNat 64 (tbNanos v + tbFraction v * 2 ^ 32))

/-- A read of TIME_NOW (base 0) or TMB_TIME (base 2): one that covers the low half latches the timebase (R480). -/
def Dev.timeRead (s : Dev) (base : Nat) (path : Path) (acc : HalfAccess) : Word × Dev :=
  let ix := base + pathIx path
  let held := (Sparse.find ix s.latches).getD 0
  let now := s.tbNow
  let latched := { s with latches := Sparse.insert ix now s.latches }
  match acc with
  | .full => ((timeWords now).1, latched)
  | .low => ((timeWords now).1 &&& BitVec.ofNat 64 (2 ^ 32 - 1), latched)
  | .high => ((timeWords held).1 >>> 32, s)

/-- The value that a path holds. -/
def Dev.heldTime (s : Dev) (base : Nat) (path : Path) : Nat := (Sparse.find (base + pathIx path) s.latches).getD 0

/-- What a tile shows of itself (R172). -/
def Dev.tileShown (s : Dev) (t : Nat) : Nat :=
  if s.isHalted t then 3
  else if 256 ≤ t then (if s.undState t = 2 then 1 else 0)
  else if s.fld Reg.TILE_CTRL.enable t = 0 then 0
  else if s.fld Reg.TILE_STATE.serving t ≠ t then 2
  else 1

/-- Seconds that remain of a lockout (R446). -/
def Dev.lockoutLeft (s : Dev) : Nat :=
  match s.dbg.lockUntil with
  | none => 0
  | some t => (t - s.now + Config.secPs - 1) / Config.secPs

/-- W1S fields whose action takes time and is held elsewhere in State: the bits that still stand at 1 (R10). -/
def startedBits : List (Reg.Fld × (Dev → Reg.Hit → Nat)) :=
  let one := fun (b : Bool) => if b then 1 else 0
  [(Reg.MARN_CTRL.restart, fun d _ => one d.marn.restartWaits),
   (Reg.TILE_LUT_LOAD.go, fun d h => one (d.tile h.i).loading.isSome),
   (Reg.IMG_CTRL.load_end, fun d _ => one (d.fld Reg.IMG_STATUS.state == 2 && d.img.loader.isSome)),
   (Reg.IMG_CTRL.commit, fun d _ => one d.img.request.isSome),
   (Reg.IMG_ROLLBACK.burn, fun d _ => one d.img.burning.isSome),
   (Reg.FLK_CHAIN.renumber, fun d _ => one (d.isRoot && d.fld Reg.FLK_CHAIN.enum_state == esRunning && d.chain.asked == some false)),
   (Reg.FLK_CHAIN.force_renumber, fun d _ => one (d.isRoot && d.fld Reg.FLK_CHAIN.enum_state == esRunning && d.chain.asked == some true)),
   (Reg.TIME_CTRL.restep, fun d _ => one (d.isRoot && d.flag Reg.TIME_STATUS.restep_pending)),
   (Reg.CHK_CTRL.go, fun d h => one (d.chkState h.i == ckRunning || d.chkState h.i == ckPaused)),
   (Reg.CLK_MEAS_SEL.go, fun d _ => one d.start.measuring.isSome),
   (Reg.TMB_RESET.warm, fun d _ => one d.start.flushFrom.isSome),
   (Reg.TMB_RESET.abort, fun d _ => ((List.range 16).map (fun p => if (d.part p).tmbSince.isSome then 2 ^ p else 0)).sum)]

/-- A word with the W1S bits of actions in progress. -/
def Dev.startedIn (s : Dev) (h : Reg.Hit) (w : Word) : Word :=
  startedBits.foldl (fun v x => if h.reg.fields.contains x.1 then putField x.1 v (x.2 s h) else v) w

/-- Fields that show what other state holds: the fuses, copies of other registers, results that follow from several fields. -/
def State.shown (s : State) (h : Reg.Hit) (word : Word) : Word :=
  let d := s.dev
  let w := d.startedIn h word
  let r := h.reg
  if r = Reg.TMB_UID then s.fuses.uid
  else if r = Reg.TMB_ALARM then BitVec.ofNat 64 (d.fld Reg.INTG_ALARM.summary h.i)
  else if r = Reg.TMB_EVT_HEAD then BitVec.ofNat 64 (d.fld Reg.INTG_EVT_HEAD.head h.i)
  else if r = Reg.IMG_ROLLBACK then putField Reg.IMG_ROLLBACK.count w s.fuses.rollback
  else if r = Reg.IMG_KEYS then putField Reg.IMG_KEYS.revoked (putField Reg.IMG_KEYS.programmed w s.fuses.programmed.toNat) s.fuses.revoked.toNat
  else if r = Reg.DBG_STATUS then
    putField Reg.DBG_STATUS.lockout (putField Reg.DBG_STATUS.halted (putField Reg.DBG_STATUS.fuse_open w
      (if s.fuses.debugOpen then 1 else 0)) (if d.halted.isEmpty then 0 else 1)) d.lockoutLeft
  else if r = Reg.TILE_STATE then putField Reg.TILE_STATE.state w (d.tileShown h.i)
  else if r = Reg.CHK_RESULT then BitVec.ofNat 64 (d.chkResult h.i)
  else if r = Reg.CAL_BLK then putField Reg.CAL_BLK.sensor w (Config.calSensor h.i).toNat
  else if r = Reg.CAL_TRIM then
    let c := d.cal (d.fld Reg.CAL_TRIM_SEL.block)
    let i := d.fld Reg.CAL_TRIM_SEL.index
    putField Reg.CAL_TRIM.target (putField Reg.CAL_TRIM.code w (ofSigned 12 (c.codes.getD i 0))) (ofSigned 12 (c.targets.getD i (c.codes.getD i 0)))
  else if r = Reg.PART_KEY then 0
  else if (r = Reg.QD_PROD ∨ r = Reg.QD_CONS) ∧ d.flag Reg.QD_BASE.table h.i then 0
  else if r = Reg.QD_FILL ∧ d.flag Reg.QD_BASE.table h.i then putField Reg.QD_FILL.release_ptr w 0
  else w

/-- RC fields inside the bits of an access are cleared (R10, R13). -/
def Dev.clearRc (s : Dev) (key : Nat) (h : Reg.Hit) (m : Nat) : Dev :=
  let rc := maskOf (h.reg.fields.filter (fun f => f.acc == .rc)) &&& m
  if rc = 0 then s else { s with regs := s.regs.setWord key (mergeWord rc (s.regs.word key) 0) }

/-- The part of a word that an access covers, as TIME_NOW_READ names it. -/
def halfOf (a : Nat) (wide : Bool) : HalfAccess := if wide then .full else if a % 8 = 4 then .high else .low

/-- The word that a read finds: Marionette's registers follow the position model to the instant of the read (R124, R137). -/
def Dev.liveWord (s : Dev) (key : Nat) : Word := if Reg.windowOf key = .wMARN then s.marnSync.regs.word key else s.regs.word key

/-- A read of a mapped word that is allowed: the part read, and the state after it. -/
def State.readWord (s : State) (who : Requester) (a : Nat) (wide : Bool) (key : Nat) (h : Reg.Hit) : Word × State :=
  let time := fun (base : Nat) => let x := s.dev.timeRead base who.path (halfOf a wide); (x.1, { s with dev := x.2 })
  if h.reg = Reg.TIME_NOW then time 0
  else if h.reg = Reg.TMB_TIME then time 2
  else if h.reg = Reg.TIME_NOW_NS then (taken a wide (timeWords (s.dev.heldTime 0 who.path)).2, s)
  else if h.reg = Reg.TMB_TIME_NS then (taken a wide (BitVec.ofNat 64 (tbNanos (s.dev.heldTime 2 who.path))), s)
  else (taken a wide (s.shown h (s.dev.liveWord key)), { s with dev := s.dev.clearRc key h (accessMask a wide) })

/-- Is a word of the TMB window, which the locked debug port may read (R437)? -/
def tmbWord (a : Nat) : Bool := Reg.windowOf a == .wTMB || Reg.windowOf a == .wGLB

/-- A register read: the value, the state after it, the status. -/
def State.regRead (s : State) (who : Requester) (a : Nat) (wide : Bool) : Word × State × Nat :=
  if !aligned a wide then (0, s, if who.path = .kmp then ksAlign else ksRange)
  else if who.path = .debug ∧ !s.dev.dbgOpen ∧ !tmbWord (wordAddr a) then (0, s, ksRange)
  else match s.dev.locate (wordAddr a) with
    | none => (0, { s with dev := s.dev.refused who }, ksRange)
    | some (key, h) =>
      if !s.dev.mayRead who.part.val key h then (0, { s with dev := s.dev.refused who }, ksRange)
      else let x := s.readWord who a wide key h; (x.1, x.2, ksOk)

/-! ### The queue-memory window (R81–R83) -/

/-- The first address of the window. -/
def windowBase : Nat := 0x100000000

/-- Is an address in the queue-memory window? -/
def inWindow (a : Nat) : Bool := decide (windowBase ≤ a) && decide (a ≤ 0x107FFFFFF)

/-- The slot of an address. -/
def slotOf (a : Nat) : Nat := (a - windowBase) / 16

/-- May a requester reach a slot (R83)? -/
def Dev.mayReach (s : Dev) (who : Requester) (slot : Nat) : Bool :=
  who.part.val == 0 || (s.holderOf slot).any (fun q => s.queueOwner q == who.part.val)

/-- The bytes of a slot image that an access covers, as a number (R81: bytes 10–15 read zero). -/
def Dev.windowBytes (s : Dev) (a n : Nat) : Nat :=
  ofLeBytes ((List.range n).map (fun i => if (a + i) % 16 < 10 then memGet s.mem (a - windowBase + i) else 0))

/-- The ALARM of an access to an uncorrectable slot (R83). -/
def Dev.windowEcc (s : Dev) (who : Requester) (slot : Nat) : Dev := s.alarm 0 3 ((s.holderOf slot).getD 0) who.part.val slot

/-- A window access that may not take place, with its status. -/
def Dev.windowBars (s : Dev) (who : Requester) (a : Nat) (wide : Bool) : Option (Dev × Nat) :=
  if !aligned a wide then some (s, if who.path = .kmp then ksAlign else ksRange)
  else if !inWindow a ∨ !s.mayReach who (slotOf a) ∨ (who.path = .debug ∧ !s.dbgOpen) then some (s.refused who, ksRange)
  else if s.slotErr (slotOf a) = .double then some (s.windowEcc who (slotOf a), ksEcc)
  else none

/-- A window read (R83). -/
def Dev.windowRead (s : Dev) (who : Requester) (a : Nat) (wide : Bool) : Word × Dev × Nat :=
  match s.windowBars who a wide with
  | some x => (0, x.1, x.2)
  | none => (BitVec.ofNat 64 (s.windowBytes a (if wide then 8 else 4)), s, ksOk)

/-- Bytes written to a slot image; bytes 10–15 of each image are left (R81). -/
def putImage (m : List Host.Cell) (k : Nat) : List Byte → List Host.Cell
  | [] => m
  | b :: rest => putImage (if k % 16 < 10 then memSet m k b else m) (k + 1) rest

/-- A window write (R82, R83): the bytes that it covers, under fresh check bits. -/
def Dev.windowWrite (s : Dev) (who : Requester) (a : Nat) (wide : Bool) (value : Word) : Dev × Nat :=
  match s.windowBars who a wide with
  | some x => x
  | none =>
    ({ s with mem := putImage s.mem (a - windowBase) (leBytes (if wide then 8 else 4) value.toNat) }.setSlotErr (slotOf a) .clean, ksOk)

/-! ### Any access -/

/-- A read of the whole address space. -/
def State.hostRead (s : State) (who : Requester) (a : Nat) (wide : Bool) : Word × State × Nat :=
  if inWindow a then let x := s.dev.windowRead who a wide; (x.1, { s with dev := x.2.1 }, x.2.2) else s.regRead who a wide

/-- A write to the whole address space. -/
def State.hostWrite (s : State) (who : Requester) (a : Nat) (wide : Bool) (value : Word) : State × Nat :=
  if inWindow a then let x := s.dev.windowWrite who a wide value; ({ s with dev := x.1 }, x.2) else s.regWrite who a wide value

/-- What the access answered is kept. -/
def State.answered (s : State) (value : Word) (status : Nat) : State := { s with dev := { s.dev with lastRead := value, lastStatus := status } }

/-- REGISTER_WRITE (R10). -/
def execRegisterWrite (who : Requester) (addr : Addr) (wide : Bool) (value : Word) (s : State) : Out :=
  let x := s.hostWrite who addr.toNat wide value
  .next (x.1.answered 0 x.2)

/-- The increments that the device makes in the fc of a read stay in the fields after it (R12). -/
def Dev.keepIncrements (s : Dev) (key : Nat) (h : Reg.Hit) (incs : List (Nat × Nat)) : Dev :=
  { s with regs := s.regs.setWord key (incs.foldl (fun w x =>
    match h.reg.fields.find? (fun f => f.acc == .rc && f.lo == x.1) with
    | none => w
    | some f => putField f w (min (fieldOf f w + x.2) (2 ^ f.width - 1))) (s.regs.word key)) }

/-- RC_READ (R10, R12): the read, and then the increments made in its fc, each given by the lowest bit of its field. -/
def execRcRead (who : Requester) (addr : Addr) (wide : Bool) (coincident : List (Nat × Nat)) (s : State) : Out :=
  let x := s.hostRead who addr.toNat wide
  let kept : State := match s.dev.locate (wordAddr addr.toNat) with
    | some (key, h) => if x.2.2 = ksOk then { x.2.1 with dev := x.2.1.dev.keepIncrements key h coincident } else x.2.1
    | none => x.2.1
  .next (kept.answered x.1 x.2.2)

/-- TIME_NOW_READ (R480). -/
def execTimeNowRead (path : Path) (acc : HalfAccess) (s : State) : Out :=
  let x := s.dev.timeRead 0 path acc
  .next ({ s with dev := x.2 }.answered x.1 ksOk)

/-- TMB_TIME_READ (R480). -/
def execTmbTimeRead (path : Path) (acc : HalfAccess) (s : State) : Out :=
  let x := s.dev.timeRead 2 path acc
  .next ({ s with dev := x.2 }.answered x.1 ksOk)

/-- QUEUE_WINDOW_READ (R83). -/
def execQueueWindowRead (who : Requester) (addr : Addr) (wide : Bool) (s : State) : Out :=
  let x := s.dev.windowRead who addr.toNat wide
  .next ({ s with dev := x.2.1 }.answered x.1 x.2.2)

/-- QUEUE_WINDOW_WRITE (R82). -/
def execQueueWindowWrite (who : Requester) (addr : Addr) (wide : Bool) (value : Word) (s : State) : Out :=
  let x := s.dev.windowWrite who addr.toNat wide value
  .next ({ s with dev := x.1 }.answered 0 x.2)

end Sys2Proof.Machine
end

