-- ==== Sys2Proof/Machine/Debug.lean ====
section
/-! DEFINITION. The debug port: TAP instructions, the access register, halts, steps, breakpoints and locking (R436–R446). -/

namespace Sys2Proof.Machine

/-! ### Instructions (R436, R437) -/

def diExtest : Nat := 0x00
def diSample : Nat := 0x01
def diIdcode : Nat := 0x02
def diClamp : Nat := 0x03
def diHighz : Nat := 0x04
def diChallenge : Nat := 0x10
def diResponse : Nat := 0x11
def diTmb : Nat := 0x20
def diMem : Nat := 0x21
def diCfg : Nat := 0x22
def diHalt : Nat := 0x30
def diStep : Nat := 0x32
def diBreak : Nat := 0x33
def diBypass : Nat := 0xFF

/-- The 32-bit identification code (R437). -/
def idcodeValue : Nat := 0x272329E3

/-- The record of the debug port replaced by a function of it. -/
def Dev.modDbg (s : Dev) (f : DbgRec → DbgRec) : Dev := { s with dbg := f s.dbg }

/-- An instruction takes effect, with what the boundary scan then drives. -/
def Dev.select (s : Dev) (code : Nat) (scan : ScanMode) : Dev := s.modDbg (fun r => { r with instr := code, scan := scan })

/-- The 1-bit bypass register is selected. It captures 0. -/
def Dev.selectBypass (s : Dev) : Dev := (s.select diBypass .off).modDbg (fun r => { r with capture := 0 })

/-- An instruction that R443 locks: bypass while the port is locked (R436). -/
def Dev.unlockedSelect (s : Dev) (code : Nat) (scan : ScanMode) (f : Dev → Dev) : Dev :=
  if s.dbgOpen then f (s.select code scan) else s.selectBypass

/-- Bits as a number, the first the lowest. -/
def ofBits : List Bool → Nat
  | [] => 0
  | b :: rest => b.toNat + 2 * ofBits rest

/-- A capture of the boundary-scan register. -/
def Dev.captureBoundary (s : Dev) : Dev := s.modDbg (fun r => { r with capture := ofBits r.boundary })

/-- TAP_RESET (R436): Test-Logic-Reset selects IDCODE and ends the boundary scan; nothing else is touched. -/
def execTapReset (s : State) : Out := s.run (fun d => d.select diIdcode .off)

/-- EXTEST (R437, R442). -/
def execExtest (s : State) : Out := s.run (fun d => d.unlockedSelect diExtest .extest (fun e => e.captureBoundary))

/-- SAMPLE_PRELOAD (R437, R442): the boundary-scan register holds what is sampled, or shifted in. -/
def execSamplePreload (pins : List Bool) (s : State) : Out :=
  s.run (fun d => ((d.select diSample .off).modDbg (fun r => { r with boundary := pins })).captureBoundary)

/-- IDCODE (R437). -/
def execIdcode (s : State) : Out := s.run (fun d => (d.select diIdcode .off).modDbg (fun r => { r with capture := idcodeValue }))

/-- CLAMP (R437). -/
def execClamp (s : State) : Out := s.run (fun d => d.unlockedSelect diClamp .clamp (fun e => e.modDbg (fun r => { r with capture := 0 })))

/-- HIGHZ (R437). -/
def execHighz (s : State) : Out := s.run (fun d => d.unlockedSelect diHighz .highz (fun e => e.modDbg (fun r => { r with capture := 0 })))

/-- BYPASS (R437). -/
def execBypass (s : State) : Out := s.run (fun d => d.selectBypass)

/-! ### Locking (R443, R444) -/

/-- DBG_CHALLENGE (R443): every capture draws a new challenge. -/
def execDbgChallenge (s : State) : Out :=
  s.run (fun d =>
    let c := Config.random d.free
    { d.select diChallenge .off with
      free := d.free + 1
      dbg := { d.dbg with instr := diChallenge, scan := .off, challenge := some c, capture := c.toNat + s.fuses.uid.toNat * 2 ^ 256 } })

/-- The response that a challenge asks for (R443): numbers as bytes, least significant first. -/
def responseTo (c : BitVec 256) (uid : Word) : BitVec 256 :=
  BitVec.ofNat 256 (ofLeBytes (hmac256 (leBytes 32 Config.debugKey.toNat) (leBytes 32 c.toNat ++ leBytes 8 uid.toNat)))

/-- Is a lockout running (R444)? -/
def Dev.lockedOut (s : Dev) : Bool := (s.dbg.lockUntil.map (fun t => decide (s.now < t))).getD false

/-- The lockout after the n-th consecutive refusal, in seconds (R444). -/
def lockoutSeconds (n : Nat) : Option Nat := if n < 4 then none else some (min 64 (2 ^ (n - 4)))

/-- A refused response (R444). -/
def Dev.refuseResponse (s : Dev) : Dev :=
  let n := s.dbg.refused + 1
  let lock := ((lockoutSeconds n).map (fun t => some (s.now + t * Config.secPs))).getD s.dbg.lockUntil
  ((s.modDbg (fun r => { r with refused := n, lockUntil := lock })).setF Reg.DBG_STATUS.failures (min 15 n)).alarmAt
    Reg.DBG_STATUS.failures 0 0 15 7 0 0

/-- An accepted response unlocks the port (R443, R444). -/
def Dev.acceptResponse (s : Dev) : Dev :=
  (((s.modDbg (fun r => { r with refused := 0 })).setF Reg.DBG_STATUS.failures 0).setF Reg.DBG_STATUS.unlocked 1).alarmAt
    Reg.DBG_STATUS.unlocked 0 0 15 6 0 0

/-- A response shifted in (R443, R444): ignored during a lockout; each challenge answers one response. -/
def State.debugResponse (s : State) (response : BitVec 256) : State :=
  let d := s.dev.select diResponse .off
  if d.lockedOut then { s with dev := d }
  else
    let e := d.modDbg (fun r => { r with challenge := none })
    if response = 0 then { s with dev := e }.debugLock
    else if (d.dbg.challenge.map (fun c => responseTo c s.fuses.uid == response)).getD false then { s with dev := e.acceptResponse }
    else { s with dev := e.refuseResponse }

/-- DBG_RESPONSE (R443, R444). -/
def execDbgResponse (response : BitVec 256) (s : State) : Out := .next (s.debugResponse response)

/-- DEBUG_LOCKOUT_END (R444). -/
def execDebugLockoutEnd (s : State) : Out :=
  s.run (fun d => match d.dbg.lockUntil with
    | none => d
    | some t => (d.reach t).modDbg (fun r => { r with lockUntil := none }))

/-- DEBUG_RELOCK (R443, R446): only the unlocked port can write relock. -/
def execDebugRelock (s : State) : Out := .next (if s.dev.dbgOpen then s.debugLock else s)

/-! ### The access register (R438) -/

/-- TMB_ACCESS (R438). -/
def execTmbAccess (s : State) : Out := s.run (fun d => d.select diTmb .off)

/-- MEM_ACCESS (R438). -/
def execMemAccess (s : State) : Out := s.run (fun d => d.unlockedSelect diMem .off (fun e => e))

/-- CFG_ACCESS (R438). -/
def execCfgAccess (s : State) : Out := s.run (fun d => d.unlockedSelect diCfg .off (fun e => e))

/-- Status codes of the access register. -/
def daDone : Nat := 0
def daBusy : Nat := 1
def daRange : Nat := 2
def daEcc : Nat := 3

/-- The status that a capture loads. -/
def DbgRec.shownStatus (r : DbgRec) : Nat := if r.op.isSome then daBusy else r.status

/-- Capture-DR of the access register: the status, and the data of a completed read. -/
def Dev.captureAccess (s : Dev) : Dev :=
  s.modDbg (fun r => { r with capture := (if r.op.isSome then 0 else r.data.toNat) * 2 ^ 43 + r.shownStatus * 2 ^ 107 })

/-- The window that the instruction in effect gives the access register: none where another register is selected, or bypass. -/
def Dev.accessWindow (s : Dev) : Option Nat :=
  if s.dbg.instr = diTmb then some 0
  else if s.dbgOpen = false then none
  else if s.dbg.instr = diMem then some 1
  else if s.dbg.instr = diCfg then some 2
  else none

/-- A scan of the access register: the capture, and the operation that its update starts; one that finds the previous still busy is
ignored. -/
def Dev.accessScan (s : Dev) (f : Nat → Option DbgOp) : Dev :=
  match s.accessWindow with
  | none => s
  | some w =>
    let a := s.captureAccess
    if s.dbg.op.isSome then a else a.modDbg (fun r => { r with op := f w })

/-- ACCESS_POLL (R438). -/
def execAccessPoll (s : State) : Out := s.run (fun d => d.accessScan (fun _ => none))

/-- ACCESS_READ (R438). -/
def execAccessRead (wide : Bool) (address : BitVec 40) (s : State) : Out :=
  s.run (fun d => d.accessScan (fun w => some ⟨w, false, wide, address.toNat, 0⟩))

/-- ACCESS_WRITE (R438). -/
def execAccessWrite (wide : Bool) (address : BitVec 40) (data : Word) (s : State) : Out :=
  s.run (fun d => d.accessScan (fun w => some ⟨w, true, wide, address.toNat, data⟩))

/-- The debug port asks with the rights of P0. -/
def debugWho : Requester := ⟨0, .debug⟩

/-- The status of the access register for one of a host access. -/
def accessStatus (ks : Nat) : Nat := if ks = ksOk then daDone else if ks = ksEcc then daEcc else if ks = ksBusy then daBusy else daRange

/-- Is the whole fabric halted (R438, R439)? -/
def Dev.fabricHalted (s : Dev) : Bool := fabricIslands.all (fun i => s.isHalted i)

/-- The configuration word that a CFG_ACCESS names: its copy and its register address, where they exist. -/
def Dev.cfgTarget (o : DbgOp) : Option (Nat × Nat) :=
  let copy := o.address / 2 ^ 38
  let a := wordAddr (o.address % 2 ^ 38)
  if copy < 3 ∧ aligned o.address o.wide = true ∧ rwlMask a ≠ 0 then some (copy, a) else none

/-- A CFG_ACCESS (R438): the active half of one copy; the key reads as zero and takes no write (R351); written only while the fabric is halted. -/
def Dev.cfgOp (s : Dev) (o : DbgOp) : Word × Dev × Nat :=
  match Dev.cfgTarget o with
  | none => (0, s, daRange)
  | some (k, a) =>
    let c := s.img.copies.getD k .init
    let w := c.active.word a
    if o.write then
      if s.fabricHalted then
        match (Reg.findReg a).filter (fun h => h.reg == Reg.PART_KEY) with
        | some h => (0, s.ignored debugWho a h, daDone)
        | none =>
        let new := mergeWord (rwlMask a &&& accessMask o.address o.wide) w (placed o.address o.wide o.data)
        (0, { s with img := { s.img with copies := s.img.copies.set k { c with active := c.active.setWord a new } } }, daDone)
      else (0, s, daRange)
    else
      let isKey := (Reg.findReg a).any (fun h => h.reg == Reg.PART_KEY)
      (if isKey then 0 else taken o.address o.wide w, s, daDone)

/-- A TMB_ACCESS or MEM_ACCESS (R438, R446). -/
def State.hostOp (s : State) (o : DbgOp) : Word × State × Nat :=
  let a := if o.win = 0 then 0x10000 + o.address else o.address
  if o.win = 0 ∧ Reg.windowOf a ≠ .wTMB then (0, s, daRange)
  else if o.write then let x := s.hostWrite debugWho a o.wide o.data; (0, x.1, accessStatus x.2)
  else let x := s.hostRead debugWho a o.wide; (x.1, x.2.1, accessStatus x.2.2)

/-- An operation of the access register, carried out. -/
def State.debugOp (s : State) (o : DbgOp) : Word × State × Nat :=
  if o.win = 2 then let x := s.dev.cfgOp o; (x.1, { s with dev := x.2.1 }, x.2.2) else s.hostOp o

/-- The operation in progress completes. -/
def State.accessDone (s : State) : State :=
  match s.dev.dbg.op with
  | none => s
  | some o =>
    let x := s.debugOp o
    { x.2.1 with dev := x.2.1.dev.modDbg (fun r => { r with op := none, status := x.2.2, data := x.1 }) }

/-- ACCESS_COMPLETE (R438). -/
def execAccessComplete (s : State) : Out := .next s.accessDone

/-! ### Halts (R439) -/

/-- The islands that a HALT names: the fabric, or one island of it. -/
def haltScope (scopeIsland : Bool) (island : Nat) : List Nat :=
  if scopeIsland then (if fabricIslands.contains island then [island] else []) else fabricIslands

/-- Islands begin to halt: each finishes the grain in progress. -/
def Dev.haltBegin (s : Dev) (is : List Nat) : Dev :=
  s.modDbg (fun r => { r with halting := r.halting ++ is.filter (fun i => !r.halting.contains i && !s.isHalted i) })

/-- HALT (R439). -/
def execHaltUpdate (scopeIsland : Bool) (island : BitVec 10) (s : State) : Out :=
  s.run (fun d => d.unlockedSelect diHalt .off (fun e => e.haltBegin (haltScope scopeIsland island.toNat)))

/-- ISLAND_HALTED (R439). -/
def execIslandHalted (island : Fin 521) (s : State) : Out :=
  s.run (fun d =>
    if d.dbg.halting.contains island.val then
      (d.haltIslands [island.val]).modDbg (fun r => { r with halting := r.halting.filter (fun i => i != island.val) })
    else d)

/-- A port that resumes closes the records whose time ran out while it was halted (R439, R96). -/
def Dev.portResume (s : Dev) (n : Nat) : Dev :=
  if s.portRuns n then (List.range 4).foldl (fun d st => d.closeExpired n st) s else s

/-- Islands resume. Grains that a STEP still allows are forgotten. -/
def Dev.haltEnd (s : Dev) (is : List Nat) : Dev :=
  let ports := (List.range 32).filter (fun n => is.contains (483 + n) && s.isHalted (483 + n))
  let a := { s with
    halted := s.halted.filter (fun i => !is.contains i)
    dbg := { s.dbg with
      halting := s.dbg.halting.filter (fun i => !is.contains i)
      credit := s.dbg.credit.filter (fun x => if x.1 < 65536 then !is.contains x.1 else !is.contains 482) } }
  ports.foldl (fun d n => d.portResume n) a

/-- HALT_RELEASE (R439). -/
def execHaltRelease (scopeIsland : Bool) (island : BitVec 10) (s : State) : Out :=
  s.run (fun d => d.unlockedSelect diHalt .off (fun e => e.haltEnd (haltScope scopeIsland island.toNat)))

/-! ### Steps (R440) -/

/-- What reads a queue where no unit's registers name it as an input: a conjunction, a DMA channel, a seam stream, or a port alone. -/
def Dev.otherTurn (s : Dev) (q : Nat) : Dev :=
  match (List.range 1024).find? (fun c => (s.cfg 0 (0x8000 + c)).flag Reg.QFAB_CONJ_CFG.enable c && (conjInputs (s.cfg 0 (0x8000 + c)) c).contains q) with
  | some c => s.conjTurn c
  | none =>
    match s.chans.find? (fun cr => cr.2.srcQ == some q) with
    | some cr => s.assemble cr.1
    | none =>
      match [0, 1].find? (fun l => (List.range 16).any (fun k => s.flag Reg.FLK_SEAM.tx_en l k && s.fld Reg.FLK_SEAM.tx_q l k == q)) with
      | some l => s.seamRead l
      | none => s.portRead q

/-- One turn of a queue's consumer, the unit of an island. -/
def Dev.consumerTurn (s : Dev) (isl q : Nat) : Dev :=
  if isl < 272 then s.tileTurn isl false none
  else if isl < 304 then s.kalCopy (isl - 272)
  else if isl < 336 then
    ((List.range 4).filter (fun st => s.pgrIn (isl - 304) st == q)).foldl (fun d st => d.pgrCopy (isl - 304) st) s
  else if isl < 352 then (s.roundOpen (isl - 336)).roundReady (isl - 336) 0
  else if isl < 416 then s.abaTurn (isl - 352) 0
  else s.otherTurn q

/-- Turns of a consumer while they read no more grains of the queue than the step still allows; what is left waits. A breakpoint that
halts the consumer ends them. -/
def Dev.stepTurns (s : Dev) (isl q : Nat) : Nat → Nat → Dev × Nat
  | 0, left => (s, left)
  | fuel + 1, left =>
    let t := s.consumerTurn isl q
    let n := s.ptrDiff q (t.rp q) (s.rp q)
    if n = 0 ∨ left < n then (s, left) else t.stepTurns isl q fuel (left - n)

/-- A step of the consumer of a queue: its island and queue memory run for it, and are halted again. -/
def Dev.stepRun (s : Dev) (key isl q n : Nat) : Dev :=
  let left := (Sparse.find key s.dbg.credit).getD 0 + n
  let free := { s with halted := s.halted.filter (fun i => i != isl && i != 482) }
  let r := free.stepTurns isl q left left
  { r.1 with
    halted := s.halted ++ r.1.halted.filter (fun i => !s.halted.contains i)
    dbg := { r.1.dbg with credit := if r.2 = 0 then Sparse.erase key r.1.dbg.credit else Sparse.insert key r.2 r.1.dbg.credit } }

/-- A step of a halted tile, or of the consumer of a halted queue (R440): refused where the target is not halted. -/
def Dev.step (s : Dev) (tile : Bool) (target n : Nat) : Dev :=
  if tile then
    if target < 272 ∧ s.isHalted target = true then s.stepRun target target ((s.tileCfg target).fld Reg.TILE_CTRL.in_q target) n
    else s.setF Reg.DBG_STATUS.step_refused 1
  else if s.isHalted 482 then s.stepRun (65536 + target) (s.portIsland true target) target n
  else s.setF Reg.DBG_STATUS.step_refused 1

/-- STEP (R440). -/
def execStepUpdate (tile : Bool) (target : BitVec 15) (n : BitVec 16) (s : State) : Out :=
  s.run (fun d => d.unlockedSelect diStep .off (fun e => e.step tile target.toNat n.toNat))

/-! ### Breakpoints (R441) -/

/-- BREAK (R441). -/
def execBreakUpdate (index : Fin 16) (enable port : Bool) (queue : QId) (code : BitVec 6) (codeAny : Bool) (value mask : Grain)
    (s : State) : Out :=
  s.run (fun d => d.unlockedSelect diBreak .off (fun e =>
    e.setBreakAt index.val ⟨enable, port, queue.val, code.toNat, codeAny, value, mask⟩))

end Sys2Proof.Machine
end

