-- ==== Sys2Proof/Machine/Kmp.lean ====
section
/-! DEFINITION. KMP requests: HELLO, bursts of reads and writes, image chunks, SYNC, acknowledgements, unknown opcodes, and the
relay to other devices of the row (R291–R297). -/

namespace Sys2Proof.Machine

/-- A status and the payload of the response that carries it. -/
abbrev Answer := Nat × List Byte

/-- How a request is carried out: the state after it, and its answer. -/
abbrev Service := State → KmpMsg → State × Answer

/-- The requester that a message names (R350). -/
def kmpWho (m : KmpMsg) : Requester := ⟨Fin.ofNat 16 m.part.toNat, .kmp⟩

/-- Does the length field give the payload's length? -/
def kmpLengthOk (m : KmpMsg) : Bool := m.length.toNat == m.payload.length

/-- An operation of the device alone as a service. -/
def devService (f : Dev → KmpMsg → Dev × Answer) : Service := fun s m => let x := f s.dev m; ({ s with dev := x.1 }, x.2)

/-! ### The requests (R292) -/

/-- HELLO: part code, stepping, chain address and the session nonces. -/
def Dev.hello (s : Dev) (m : KmpMsg) : Dev × Answer :=
  if kmpLengthOk m && m.payload.isEmpty then
    (s, ksOk, leBytes 2 0x7232 ++ [0xA2, BitVec.ofNat 8 s.chainAddr] ++ (List.range 16).flatMap (fun p => s.kmpNonce p))
  else (s, ksLength, [])

/-- The first 16 bytes of a burst's response: its address, and the words completed. -/
def burstHead (a done : Nat) : List Byte := leBytes 8 a ++ leBytes 2 done ++ List.replicate 6 0

/-- Words read in address order, up to the first that fails: the state, the words as bytes, how many, the status. -/
def State.readBurst (s : State) (who : Requester) (wide : Bool) (size : Nat) : Nat → Nat → State × List Byte × Nat × Nat
  | _, 0 => (s, [], 0, ksOk)
  | a, n + 1 =>
    let x := s.hostRead who a wide
    if x.2.2 = ksOk then
      let r := x.2.1.readBurst who wide size (a + size) n
      (r.1, leBytes size x.1.toNat ++ r.2.1, r.2.2.1 + 1, r.2.2.2)
    else (x.2.1, [], 0, x.2.2)

/-- Words written in address order, up to the first that fails or that cuts the request off: the state, how many, the status. -/
def State.writeBurst (s : State) (who : Requester) (wide : Bool) (size : Nat) : Nat → List Nat → State × Nat × Nat
  | _, [] => (s, 0, ksOk)
  | a, w :: rest =>
    let x := s.hostWrite who a wide (BitVec.ofNat 64 w)
    if x.2 = ksOk then
      let r := x.1.writeBurst who wide size (a + size) rest
      (r.1, r.2.1 + 1, r.2.2)
    else (x.1, if s.dev.cutOff x.1.dev who then 1 else 0, x.2)

/-- The bytes of a word, and the longest burst (R292). -/
def wordSize (wide : Bool) : Nat := if wide then 8 else 4
def burstMax (wide : Bool) : Nat := if wide then 128 else 256

/-- The address and the count of a burst. -/
def burstAddr (m : KmpMsg) : Nat := le m.payload 0 8 % 2 ^ 40
def burstCount (m : KmpMsg) : Nat := le m.payload 8 2

/-- Has a burst its layout (R292): a count within its limit, and the words that a write carries? -/
def burstOk (m : KmpMsg) (wide write : Bool) : Bool :=
  kmpLengthOk m && decide (1 ≤ burstCount m) && decide (burstCount m ≤ burstMax wide) &&
    m.payload.length == 16 + (if write then burstCount m * wordSize wide else 0)

/-- A read burst (R292, R295, R296). -/
def serveRead (wide : Bool) : Service := fun s m =>
  if burstOk m wide false then
    let r := s.readBurst (kmpWho m) wide (wordSize wide) (burstAddr m) (burstCount m)
    (r.1, r.2.2.2, burstHead (burstAddr m) r.2.2.1 ++ r.2.1)
  else (s, ksLength, [])

/-- A write burst (R292, R295, R296). -/
def serveWrite (wide : Bool) : Service := fun s m =>
  if burstOk m wide true then
    let words := (List.range (burstCount m)).map (fun i => le m.payload (16 + i * wordSize wide) (wordSize wide))
    let r := s.writeBurst (kmpWho m) wide (wordSize wide) (burstAddr m) words
    (r.1, r.2.2, burstHead (burstAddr m) r.2.1)
  else (s, ksLength, [])

/-- IMAGE_CHUNK (R292). -/
def Dev.chunk (s : Dev) (m : KmpMsg) : Dev × Answer :=
  if kmpLengthOk m && decide (9 ≤ m.payload.length) && decide (m.payload.length ≤ 1032) then
    let x := s.appendImage m.part.toNat (le m.payload 0 4) (m.payload.drop 8)
    (x.1, x.2, [])
  else (s, ksLength, [])

/-- SYNC (R132, R292): an edge at the position carried, or where the position model stands. -/
def Dev.syncRequest (s : Dev) (m : KmpMsg) : Dev × Answer :=
  if !kmpLengthOk m || m.payload.length != 16 then (s, ksLength, [])
  else if 1 < le m.payload 0 1 then (s, ksRange, [])
  else
    let a := s.marnSync
    let x : Int := if le m.payload 1 1 = 0 then a.exactAt a.now else toSigned 64 (le m.payload 8 8) * 2 ^ 32 * speedUnit
    (((a.askedBy (some (m.part.toNat % 16))).syncAt (le m.payload 0 1) x).askedBy none, ksOk, [])

/-- NOTICE_ACK (R356, R358). -/
def Dev.ackRequest (s : Dev) (m : KmpMsg) : Dev × Answer :=
  if kmpLengthOk m && m.payload.length == 8 then (s.noticeAcked m.part.toNat (le m.payload 0 4), ksOk, []) else (s, ksLength, [])

/-- The opcodes that a device receives (R292). -/
def servedOpcodes : List Nat := [koHello, koRead32, koRead64, koWrite32, koWrite64, koImage, koSync, koNoticeAck, koTwin]

/-- The service of an opcode: any other answers OPCODE (R296). -/
def serviceOf (op : Nat) : Service :=
  if op = koHello then devService Dev.hello
  else if op = koRead32 then serveRead false
  else if op = koRead64 then serveRead true
  else if op = koWrite32 then serveWrite false
  else if op = koWrite64 then serveWrite true
  else if op = koImage then devService Dev.chunk
  else if op = koSync then devService Dev.syncRequest
  else if op = koNoticeAck then devService Dev.ackRequest
  else fun s _ => (s, ksOpcode, [])

/-! ### Acceptance (R293, R294) -/

/-- A request that is for this device: discarded and counted, or carried out. HELLO is unauthenticated. -/
def State.accept (s : State) (u : Nat) (m : KmpMsg) : State × Option Answer :=
  let serve := fun (t : State) => let r := serviceOf m.opcode.toNat t m; (r.1, some r.2)
  if m.opcode.toNat = koHello then serve s
  else if !s.dev.kmpAuthentic m then ({ s with dev := s.dev.bump Reg.UPL_STAT2.auth_fail u }, none)
  else if !s.dev.seqFresh m.part.toNat m.sequence.toNat then ({ s with dev := s.dev.bump Reg.UPL_STAT2.replay u }, none)
  else serve { s with dev := s.dev.seqMark m.part.toNat m.sequence.toNat }

/-- A response leaves by its uplink, while that is in RUN. -/
def Dev.kmpAnswer (s : Dev) (u : Nat) (m : KmpMsg) (a : Answer) : Dev := if s.uplinkUp u then s.kmpReply u m a.1 a.2 else s

/-- Is a destination this device (R291)? -/
def Dev.kmpHere (s : Dev) (m : KmpMsg) : Bool := m.destination == 0xFF || m.destination.toNat == s.chainAddr

/-- Is KMP served on an uplink: it is in RUN, the stewards work and enable is set (R427, UPL_KMP)? -/
def Dev.kmpServed (s : Dev) (u : Nat) : Bool := s.uplinkUp u && s.stewardsRun && s.flag Reg.UPL_KMP.enable

/-- A request for another device goes over the chain, or is UNREACHABLE at once in the other row (R297). -/
def Dev.kmpForward (s : Dev) (u : Nat) (m : KmpMsg) : Dev :=
  if m.destination.toNat / 64 ≠ s.fld Reg.FLK_CHAIN.row then s.kmpReply u m ksUnreachable []
  else { s.ringSend chKmp (some m.destination.toNat) (.kmp m) with
         kmp := { s.kmp with relays := s.kmp.relays ++ [⟨u, m, s.now⟩] } }

/-- A request arrives by an uplink. -/
def State.kmpArrive (s : State) (u : Nat) (m : KmpMsg) : State :=
  if !s.dev.kmpServed u then s
  else if !s.dev.kmpHere m then { s with dev := s.dev.kmpForward u m }
  else
    let r := s.accept u m
    match r.2 with
    | none => r.1
    | some a => { r.1 with dev := r.1.dev.kmpAnswer u m a }

/-- A request of one opcode: the command names no message of another. -/
def State.kmpRequest (s : State) (op u : Nat) (m : KmpMsg) : State := if m.opcode.toNat = op then s.kmpArrive u m else s

/-- KMP_HELLO (R292, R293). -/
def execKmpHello (u : Uplink) (msg : KmpMsg) (s : State) : Out := .next (s.kmpRequest koHello u.val msg)

/-- KMP_READ32 (R292). -/
def execKmpRead32 (u : Uplink) (msg : KmpMsg) (s : State) : Out := .next (s.kmpRequest koRead32 u.val msg)

/-- KMP_READ64 (R292). -/
def execKmpRead64 (u : Uplink) (msg : KmpMsg) (s : State) : Out := .next (s.kmpRequest koRead64 u.val msg)

/-- KMP_WRITE32 (R292). -/
def execKmpWrite32 (u : Uplink) (msg : KmpMsg) (s : State) : Out := .next (s.kmpRequest koWrite32 u.val msg)

/-- KMP_WRITE64 (R292). -/
def execKmpWrite64 (u : Uplink) (msg : KmpMsg) (s : State) : Out := .next (s.kmpRequest koWrite64 u.val msg)

/-- IMAGE_CHUNK (R292). -/
def execImageChunk (u : Uplink) (msg : KmpMsg) (s : State) : Out := .next (s.kmpRequest koImage u.val msg)

/-- KMP_SYNC (R132). -/
def execKmpSync (u : Uplink) (msg : KmpMsg) (s : State) : Out := .next (s.kmpRequest koSync u.val msg)

/-- NOTICE_ACK (R356). -/
def execNoticeAck (u : Uplink) (msg : KmpMsg) (s : State) : Out := .next (s.kmpRequest koNoticeAck u.val msg)

/-- KMP_UNKNOWN_OPCODE (R296). -/
def execKmpUnknownOpcode (u : Uplink) (msg : KmpMsg) (s : State) : Out :=
  .next (if servedOpcodes.contains msg.opcode.toNat then s else s.kmpArrive u.val msg)

/-! ### The relay (R297) -/

/-- A response that comes back over the chain leaves by the uplink of its request, to the address and port that it came from, with
relayed set (R291, R297). -/
def Dev.relayResponse (s : Dev) (origin : Nat) (m : KmpMsg) : Dev :=
  match s.kmp.relays.find? (fun r => r.msg.destination.toNat == origin && r.msg.sequence == m.sequence && r.msg.part == m.part &&
      r.msg.opcode == m.opcode) with
  | none => s
  | some r =>
    let a := { s with kmp := { s.kmp with relays := s.kmp.relays.filter (fun x => x != r) } }
    if a.uplinkUp r.uplink then a.kmpSend r.uplink { m with flags := m.flags ||| 2, peerIp := r.msg.peerIp, peerPort := r.msg.peerPort } else a

/-- The uplink whose counters take a relayed request that is discarded is open. -/
def State.relayAccept (s : State) (m : KmpMsg) : State × Option Answer :=
  let x := s.dev.drawFree 1
  { s with dev := x.2 }.accept x.1.toNat m

/-- A relayed request is carried out, and its response goes back by the same channel, marked relayed under its tag. -/
def State.relayRequest (s : State) (origin : Nat) (m : KmpMsg) : State :=
  if !(s.dev.stewardsRun && s.dev.flag Reg.UPL_KMP.enable) then s
  else
    let r := s.relayAccept m
    match r.2 with
    | none => r.1
    | some a =>
      let x := r.1.dev.kmpResponse { m with flags := m.flags ||| 2 } a.1 a.2
      { r.1 with dev := x.2.ringSend chKmp (some origin) (.kmp x.1) }

/-- What a relayed message does at its destination. -/
def State.relayed (s : State) (origin : Nat) (m : KmpMsg) : State :=
  if m.flags.getLsbD 0 then { s with dev := s.dev.relayResponse origin m } else s.relayRequest origin m

/-- KMP_RELAY_MESSAGE (R297, R314, R315): the destination acts on the first copy. -/
def execKmpRelayMessage (link : Link) (msg : RingMsg) (s : State) : Out :=
  match msg.body with
  | .kmp m =>
    if msg.channel.val ≠ chKmp then .next s
    else
      let a : State := { s with dev := s.dev.ringIn link.val msg (fun d => d) }
      let first := s.dev.flkUp link.val && msg.frame.all (fun h => h.seq.toNat == (s.dev.flank link.val).rxSeq) && !s.dev.isOrigin msg &&
        (s.dev.firstCopy msg).isNone && (msg.broadcast || s.dev.isDest msg)
      .next (if first then a.relayed msg.origin.toNat m else a)
  | _ => .next s

/-- KMP_RELAY_TIMEOUT (R297): the request that has waited longest. -/
def execKmpRelayTimeout (s : State) : Out :=
  s.run (fun d => match d.kmp.relays with
    | [] => d
    | r :: rest =>
      let a := d.reach (r.since + d.fld Reg.UPL_KMP.kmp_relay_timeout * Config.usPs)
      { a with kmp := { a.kmp with relays := rest } }.kmpAnswer r.uplink r.msg (ksUnreachable, []))

end Sys2Proof.Machine
end

