-- ==== Sys2Proof/Machine/Dispatch.lean ====
section
/-! DEFINITION. One arm per command: the meaning of each row of spec/opcode_table.json. -/

namespace Sys2Proof.Machine

/-- The effect of a command on everything but the queue of waiting commands. -/
def exec (i : Instr) (s : State) : Host.Outcome State Fault Refusal :=
  match i with
  | .registerWrite who addr wide value => Sys2Proof.Machine.execRegisterWrite who addr wide value s
  | .rcRead who addr wide coincident => Sys2Proof.Machine.execRcRead who addr wide coincident s
  | .timeNowRead path acc => Sys2Proof.Machine.execTimeNowRead path acc s
  | .tmbTimeRead path acc => Sys2Proof.Machine.execTmbTimeRead path acc s
  | .queueWrite q g m => Sys2Proof.Machine.execQueueWrite q g m s
  | .queueDiscard q => Sys2Proof.Machine.execQueueDiscard q s
  | .queueRead q => Sys2Proof.Machine.execQueueRead q s
  | .queueMark q => Sys2Proof.Machine.execQueueMark q s
  | .queueRewind q => Sys2Proof.Machine.execQueueRewind q s
  | .queueRelease q => Sys2Proof.Machine.execQueueRelease q s
  | .writeWaitResume q => Sys2Proof.Machine.execWriteWaitResume q s
  | .bankArbitration bank write presented => Sys2Proof.Machine.execBankArbitration bank write presented s
  | .conjunctionSelect c => Sys2Proof.Machine.execConjunctionSelect c s
  | .conjunctionRoundTimeout c => Sys2Proof.Machine.execConjunctionRoundTimeout c s
  | .queueWindowRead who addr wide => Sys2Proof.Machine.execQueueWindowRead who addr wide s
  | .queueWindowWrite who addr wide value => Sys2Proof.Machine.execQueueWindowWrite who addr wide value s
  | .tapCopyResume a => Sys2Proof.Machine.execTapCopyResume a s
  | .longPacket port pkt => Sys2Proof.Machine.execLongPacket port pkt s
  | .frameStart port vc => Sys2Proof.Machine.execFrameStart port vc s
  | .frameEnd port vc => Sys2Proof.Machine.execFrameEnd port vc s
  | .frameTimeout port vc => Sys2Proof.Machine.execFrameTimeout port vc s
  | .shortPacketIgnored port vc kind => Sys2Proof.Machine.execShortPacketIgnored port vc kind s
  | .deskewBurst port skew => Sys2Proof.Machine.execDeskewBurst port skew s
  | .triggerWindowClose port strm => Sys2Proof.Machine.execTriggerWindowClose port strm s
  | .interLineTimeout port strm => Sys2Proof.Machine.execInterLineTimeout port strm s
  | .portOwnGrainFlush port strm => Sys2Proof.Machine.execPortOwnGrainFlush port strm s
  | .cciCmdGo port => Sys2Proof.Machine.execCciCmdGo port s
  | .cciTransactionEnd port acked readData => Sys2Proof.Machine.execCciTransactionEnd port acked readData s
  | .cciStretchTimeout port => Sys2Proof.Machine.execCciStretchTimeout port s
  | .cciTakeover port => Sys2Proof.Machine.execCciTakeover port s
  | .cciYield port => Sys2Proof.Machine.execCciYield port s
  | .cciIdleWaitEnd port => Sys2Proof.Machine.execCciIdleWaitEnd port s
  | .cciBusObserved port tr acked readData => Sys2Proof.Machine.execCciBusObserved port tr acked readData s
  | .expSlotArm port slot => Sys2Proof.Machine.execExpSlotArm port slot s
  | .expSlotCancel port slot => Sys2Proof.Machine.execExpSlotCancel port slot s
  | .encoderEdge e a b held => Sys2Proof.Machine.execEncoderEdge e a b s held
  | .zEdge e held => Sys2Proof.Machine.execZEdge e s held
  | .accelWindowEnd e => Sys2Proof.Machine.execAccelWindowEnd e s
  | .encStall e => Sys2Proof.Machine.execEncStall e s
  | .runningWrite v => Sys2Proof.Machine.execRunningWrite v s
  | .runningPinChange pin level => Sys2Proof.Machine.execRunningPinChange pin level s
  | .xcheckSpanEnd => Sys2Proof.Machine.execXcheckSpanEnd s
  | .encoderRestart => Sys2Proof.Machine.execEncoderRestart s
  | .positionSampleTake => Sys2Proof.Machine.execPositionSampleTake s
  | .positionSampleReceive link msg => Sys2Proof.Machine.execPositionSampleReceive link msg s
  | .positionSampleApply => Sys2Proof.Machine.execPositionSampleApply s
  | .positionHoldover => Sys2Proof.Machine.execPositionHoldover s
  | .triggerStop => Sys2Proof.Machine.execTriggerStop s
  | .stopBlockEnd port => Sys2Proof.Machine.execStopBlockEnd port s
  | .triggerFire head => Sys2Proof.Machine.execTriggerFire head s
  | .triggerPulseEnd head => Sys2Proof.Machine.execTriggerPulseEnd head s
  | .midpointCapture head => Sys2Proof.Machine.execMidpointCapture head s
  | .strobeStart strobe => Sys2Proof.Machine.execStrobeStart strobe s
  | .strobeEnd strobe => Sys2Proof.Machine.execStrobeEnd strobe s
  | .runSet => Sys2Proof.Machine.execRunSet s
  | .runClear => Sys2Proof.Machine.execRunClear s
  | .syncEdge syna synb held heldB => Sys2Proof.Machine.execSyncEdge syna synb s held heldB
  | .syncMessage link msg => Sys2Proof.Machine.execSyncMessage link msg s
  | .kmpSync u msg => Sys2Proof.Machine.execKmpSync u msg s
  | .rateWrite rate => Sys2Proof.Machine.execRateWrite rate s
  | .midOffsetNextWrite head v => Sys2Proof.Machine.execMidOffsetNextWrite head v s
  | .tileLine t mismatch errs pages => Sys2Proof.Machine.execTileLine t mismatch s errs pages
  | .understudyReplay t mismatch errs pages => Sys2Proof.Machine.execUnderstudyReplay t mismatch s errs pages
  | .tileCommitArm t => Sys2Proof.Machine.execTileCommitArm t s
  | .tileCommitCancel t => Sys2Proof.Machine.execTileCommitCancel t s
  | .tileBankCopy t => Sys2Proof.Machine.execTileBankCopy t s
  | .lutPageLoad t => Sys2Proof.Machine.execLutPageLoad t s
  | .lutLoadDone t => Sys2Proof.Machine.execLutLoadDone t s
  | .kalInputCopy u => Sys2Proof.Machine.execKalInputCopy u s
  | .kalSetEmit u c mismatches errs => Sys2Proof.Machine.execKalSetEmit u c mismatches s errs
  | .kalCommitArm u => Sys2Proof.Machine.execKalCommitArm u s
  | .kalCommitCancel u => Sys2Proof.Machine.execKalCommitCancel u s
  | .kalBankCopy u => Sys2Proof.Machine.execKalBankCopy u s
  | .pgrInputCopy u strm => Sys2Proof.Machine.execPgrInputCopy u strm s
  | .pgrOutputEmit u strm mismatches errs => Sys2Proof.Machine.execPgrOutputEmit u strm mismatches s errs
  | .pgrCommitArm u => Sys2Proof.Machine.execPgrCommitArm u s
  | .pgrCommitCancel u => Sys2Proof.Machine.execPgrCommitCancel u s
  | .pgrBankCopy u => Sys2Proof.Machine.execPgrBankCopy u s
  | .roundOpen j => Sys2Proof.Machine.execRoundOpen j s
  | .roundReady j mismatches errs => Sys2Proof.Machine.execRoundReady j mismatches s errs
  | .seamDeadline j => Sys2Proof.Machine.execSeamDeadline j s
  | .collectorRound j => Sys2Proof.Machine.execCollectorRound j s
  | .collectorDeadline j => Sys2Proof.Machine.execCollectorDeadline j s
  | .blockDeadline j => Sys2Proof.Machine.execBlockDeadline j s
  | .abacusLine a mismatches errs => Sys2Proof.Machine.execAbacusLine a mismatches s errs
  | .abacusReseed a mask => Sys2Proof.Machine.execAbacusReseed a mask s
  | .loadStart p partImage => Sys2Proof.Machine.execLoadStart p partImage s
  | .loadEnd p => Sys2Proof.Machine.execLoadEnd p s
  | .imageDiscard p => Sys2Proof.Machine.execImageDiscard p s
  | .imageChunk u msg => Sys2Proof.Machine.execImageChunk u msg s
  | .imageChecksDone bufferError => Sys2Proof.Machine.execImageChecksDone s bufferError
  | .chainCommitRequest => Sys2Proof.Machine.execChainCommitRequest s
  | .commitReadyMessage link msg => Sys2Proof.Machine.execCommitReadyMessage link msg s
  | .commitReadyTimeout => Sys2Proof.Machine.execCommitReadyTimeout s
  | .commitAnnouncement link msg => Sys2Proof.Machine.execCommitAnnouncement link msg s
  | .chainCommitSwitch => Sys2Proof.Machine.execChainCommitSwitch s
  | .queueDisableSwitch q => Sys2Proof.Machine.execQueueDisableSwitch q s
  | .configCheck found => Sys2Proof.Machine.execConfigCheck s found
  | .rollbackBurn => Sys2Proof.Machine.execRollbackBurn s
  | .rollbackBurnDone => Sys2Proof.Machine.execRollbackBurnDone s
  | .keyRevoke mask => Sys2Proof.Machine.execKeyRevoke mask s
  | .uplinkSignalDetect u => Sys2Proof.Machine.execUplinkSignalDetect u s
  | .uplinkTrained u => Sys2Proof.Machine.execUplinkTrained u s
  | .uplinkAligned u => Sys2Proof.Machine.execUplinkAligned u s
  | .uplinkTrainTimeout u => Sys2Proof.Machine.execUplinkTrainTimeout u s
  | .uplinkAlignTimeout u => Sys2Proof.Machine.execUplinkAlignTimeout u s
  | .uplinkRedetectWaitEnd u => Sys2Proof.Machine.execUplinkRedetectWaitEnd u s
  | .uplinkLeaveRun u => Sys2Proof.Machine.execUplinkLeaveRun u s
  | .uplinkFecLimit u codewords corrected => Sys2Proof.Machine.execUplinkFecLimit u codewords s corrected
  | .pfcFrame u prio pause => Sys2Proof.Machine.execPfcFrame u prio pause s
  | .pfcWatchdog u prio => Sys2Proof.Machine.execPfcWatchdog u prio s
  | .pauseFrame u => Sys2Proof.Machine.execPauseFrame u s
  | .frameDiscard u => Sys2Proof.Machine.execFrameDiscard u s
  | .arpRequest u target senderMac senderIp => Sys2Proof.Machine.execArpRequest u target senderMac senderIp s
  | .neighbourSolicitation u target senderMac senderIp => Sys2Proof.Machine.execNeighbourSolicitation u target senderMac senderIp s
  | .cnpReceive u ch => Sys2Proof.Machine.execCnpReceive u ch s
  | .rateRecover u ch => Sys2Proof.Machine.execRateRecover u ch s
  | .roceAck u ch psn => Sys2Proof.Machine.execRoceAck u ch psn s
  | .roceNak u ch psn kind => Sys2Proof.Machine.execRoceNak u ch psn kind s
  | .roceRetryTimeout u ch => Sys2Proof.Machine.execRoceRetryTimeout u ch s
  | .dwrrVisit u struck => Sys2Proof.Machine.execDwrrVisit u s struck
  | .descriptorPush ch word3 => Sys2Proof.Machine.execDescriptorPush ch word3 s
  | .channelEnable ch => Sys2Proof.Machine.execChannelEnable ch s
  | .channelDisable ch => Sys2Proof.Machine.execChannelDisable ch s
  | .qpConnect ch u => Sys2Proof.Machine.execQpConnect ch u s
  | .channelReady ch => Sys2Proof.Machine.execChannelReady ch s
  | .lineRecordAssemble ch => Sys2Proof.Machine.execLineRecordAssemble ch s
  | .localDescriptorCopy ch => Sys2Proof.Machine.execLocalDescriptorCopy ch s
  | .kmpHello u msg => Sys2Proof.Machine.execKmpHello u msg s
  | .kmpRead32 u msg => Sys2Proof.Machine.execKmpRead32 u msg s
  | .kmpRead64 u msg => Sys2Proof.Machine.execKmpRead64 u msg s
  | .kmpWrite32 u msg => Sys2Proof.Machine.execKmpWrite32 u msg s
  | .kmpWrite64 u msg => Sys2Proof.Machine.execKmpWrite64 u msg s
  | .kmpUnknownOpcode u msg => Sys2Proof.Machine.execKmpUnknownOpcode u msg s
  | .kmpRelayMessage link msg => Sys2Proof.Machine.execKmpRelayMessage link msg s
  | .kmpRelayTimeout => Sys2Proof.Machine.execKmpRelayTimeout s
  | .flankHeadersSeen l partner rates => Sys2Proof.Machine.execFlankHeadersSeen l partner s rates
  | .flankPolaritySettled l inverted => Sys2Proof.Machine.execFlankPolaritySettled l inverted s
  | .flankLaneOrderFound l laneMap => Sys2Proof.Machine.execFlankLaneOrderFound l laneMap s
  | .flankEqualiseResult l marginMet partnerMax partnerMin => Sys2Proof.Machine.execFlankEqualiseResult l marginMet partnerMax partnerMin s
  | .flankAligned l => Sys2Proof.Machine.execFlankAligned l s
  | .flankStateTimeout l => Sys2Proof.Machine.execFlankStateTimeout l s
  | .flankBackoffEnd l => Sys2Proof.Machine.execFlankBackoffEnd l s
  | .flankLeaveRun l => Sys2Proof.Machine.execFlankLeaveRun l s
  | .flankFrameSend l => Sys2Proof.Machine.execFlankFrameSend l s
  | .flankAckFrame l ackSeq => Sys2Proof.Machine.execFlankAckFrame l ackSeq s
  | .flankNakFrame l ackSeq => Sys2Proof.Machine.execFlankNakFrame l ackSeq s
  | .flankFrameDiscard l reason => Sys2Proof.Machine.execFlankFrameDiscard l reason s
  | .flankAckTimeout l => Sys2Proof.Machine.execFlankAckTimeout l s
  | .seamCopyReceive l k cells frame => Sys2Proof.Machine.execSeamCopyReceive l k cells s frame
  | .enumerateMessage link msg => Sys2Proof.Machine.execEnumerateMessage link msg s
  | .chainDoneMessage link msg => Sys2Proof.Machine.execChainDoneMessage link msg s
  | .enumTimeout => Sys2Proof.Machine.execEnumTimeout s
  | .renumber => Sys2Proof.Machine.execRenumber s
  | .forceRenumber => Sys2Proof.Machine.execForceRenumber s
  | .presenceSend => Sys2Proof.Machine.execPresenceSend s
  | .presenceMessage link msg => Sys2Proof.Machine.execPresenceMessage link msg s
  | .deviceAbsent position => Sys2Proof.Machine.execDeviceAbsent position s
  | .joinSend => Sys2Proof.Machine.execJoinSend s
  | .joinMessage link msg => Sys2Proof.Machine.execJoinMessage link msg s
  | .twinBeaconSend => Sys2Proof.Machine.execTwinBeaconSend s
  | .twinBeacon link msg => Sys2Proof.Machine.execTwinBeacon link msg s
  | .twinLost => Sys2Proof.Machine.execTwinLost s
  | .eventRelayMessage link msg => Sys2Proof.Machine.execEventRelayMessage link msg s
  | .ptpSync port msg => Sys2Proof.Machine.execPtpSync port msg s
  | .ptpFollowUp port msg => Sys2Proof.Machine.execPtpFollowUp port msg s
  | .ptpDelayResp port msg => Sys2Proof.Machine.execPtpDelayResp port msg s
  | .ptpAnnounce port msg => Sys2Proof.Machine.execPtpAnnounce port msg s
  | .ptpDiscard port => Sys2Proof.Machine.execPtpDiscard port s
  | .delayReqSend => Sys2Proof.Machine.execDelayReqSend s
  | .announceTimeout u => Sys2Proof.Machine.execAnnounceTimeout u s
  | .timeFrame link frame => Sys2Proof.Machine.execTimeFrame link frame s
  | .timePortTimeout => Sys2Proof.Machine.execTimePortTimeout s
  | .timeSourceSelect => Sys2Proof.Machine.execTimeSourceSelect s
  | .restepRequest => Sys2Proof.Machine.execRestepRequest s
  | .restepAnnouncement link msg => Sys2Proof.Machine.execRestepAnnouncement link msg s
  | .restepApply => Sys2Proof.Machine.execRestepApply s
  | .timeWaitTimeout => Sys2Proof.Machine.execTimeWaitTimeout s
  | .partitionDrain p => Sys2Proof.Machine.execPartitionDrain p s
  | .partitionAbort p => Sys2Proof.Machine.execPartitionAbort p s
  | .partitionResume p => Sys2Proof.Machine.execPartitionResume p s
  | .drainTimeout p => Sys2Proof.Machine.execDrainTimeout p s
  | .partitionStopped p => Sys2Proof.Machine.execPartitionStopped p s
  | .noticeSend p => Sys2Proof.Machine.execNoticeSend p s
  | .noticeRetry p noticeId => Sys2Proof.Machine.execNoticeRetry p noticeId s
  | .noticeAck u msg => Sys2Proof.Machine.execNoticeAck u msg s
  | .noticeAckWrite p noticeId => Sys2Proof.Machine.execNoticeAckWrite p noticeId s
  | .completionWriterResume p => Sys2Proof.Machine.execCompletionWriterResume p s
  | .warmResetRequest confirm => Sys2Proof.Machine.execWarmResetRequest confirm s
  | .coldResetRequest confirm => Sys2Proof.Machine.execColdResetRequest confirm s
  | .tmbPartitionAbort mask => Sys2Proof.Machine.execTmbPartitionAbort mask s
  | .tmbAbortTimeout p => Sys2Proof.Machine.execTmbAbortTimeout p s
  | .warmFlushEnd => Sys2Proof.Machine.execWarmFlushEnd s
  | .scrubRead found => Sys2Proof.Machine.execScrubRead s found
  | .scrubWriteback => Sys2Proof.Machine.execScrubWriteback s
  | .checkGo u => Sys2Proof.Machine.execCheckGo u s
  | .checkPause u => Sys2Proof.Machine.execCheckPause u s
  | .checkResume u => Sys2Proof.Machine.execCheckResume u s
  | .checkScanSlot u => Sys2Proof.Machine.execCheckScanSlot u s
  | .twinDigestSend => Sys2Proof.Machine.execTwinDigestSend s
  | .twinHeartbeat => Sys2Proof.Machine.execTwinHeartbeat s
  | .twinDigest source msg => Sys2Proof.Machine.execTwinDigest source msg s
  | .digestEntryExpire => Sys2Proof.Machine.execDigestEntryExpire s
  | .eventTokenRefill kind inst => Sys2Proof.Machine.execEventTokenRefill kind inst s
  | .alarmHoldoffExpire condition => Sys2Proof.Machine.execAlarmHoldoffExpire condition s
  | .eventPush p => Sys2Proof.Machine.execEventPush p s
  | .alarmClear k mask coincident => Sys2Proof.Machine.execAlarmClear k mask coincident s
  | .eventTailWrite p tail => Sys2Proof.Machine.execEventTailWrite p tail s
  | .refSourceLost src => Sys2Proof.Machine.execRefSourceLost src s
  | .refSourcePresent src => Sys2Proof.Machine.execRefSourcePresent src s
  | .refAbsentHold => Sys2Proof.Machine.execRefAbsentHold s
  | .pllBandHeld island => Sys2Proof.Machine.execPllBandHeld island s
  | .pllAttemptTimeout island => Sys2Proof.Machine.execPllAttemptTimeout island s
  | .frequencyGuardTrip island => Sys2Proof.Machine.execFrequencyGuardTrip island s
  | .tempSample readings => Sys2Proof.Machine.execTempSample readings s
  | .vmonSample readings => Sys2Proof.Machine.execVmonSample readings s
  | .clockMeasure => Sys2Proof.Machine.execClockMeasure s
  | .clockMeasureDone khz => Sys2Proof.Machine.execClockMeasureDone khz s
  | .calRun b => Sys2Proof.Machine.execCalRun b s
  | .calPeriodExpire b => Sys2Proof.Machine.execCalPeriodExpire b s
  | .calPreconditionMet b => Sys2Proof.Machine.execCalPreconditionMet b s
  | .calMeasureDone b codes => Sys2Proof.Machine.execCalMeasureDone b codes s
  | .calTimeout b => Sys2Proof.Machine.execCalTimeout b s
  | .calTrimStep b => Sys2Proof.Machine.execCalTrimStep b s
  | .powerUp straps => Sys2Proof.Machine.execPowerUp straps s
  | .resetPin => Sys2Proof.Machine.execResetPin s
  | .resetRelease => Sys2Proof.Machine.execResetRelease s
  | .strapsLatch => Sys2Proof.Machine.execStrapsLatch s
  | .firmwareLoaded boot => Sys2Proof.Machine.execFirmwareLoaded boot s
  | .selftestDone failedTiles badMemory => Sys2Proof.Machine.execSelftestDone failedTiles badMemory s
  | .linksWaitTimeout => Sys2Proof.Machine.execLinksWaitTimeout s
  | .bootImageLoaded slotA slotB bufferError => Sys2Proof.Machine.execBootImageLoaded slotA slotB s bufferError
  | .vio18Loss => Sys2Proof.Machine.execVio18Loss s
  | .vserLoss => Sys2Proof.Machine.execVserLoss s
  | .coreReport core => Sys2Proof.Machine.execCoreReport core s
  | .coreWatchdog core => Sys2Proof.Machine.execCoreWatchdog core s
  | .fabricHeartbeat => Sys2Proof.Machine.execFabricHeartbeat s
  | .fabricWedge => Sys2Proof.Machine.execFabricWedge s
  | .thermalTrip => Sys2Proof.Machine.execThermalTrip s
  | .thermalResume => Sys2Proof.Machine.execThermalResume s
  | .repeaterForce v => Sys2Proof.Machine.execRepeaterForce v s
  | .tapReset => Sys2Proof.Machine.execTapReset s
  | .extest => Sys2Proof.Machine.execExtest s
  | .samplePreload pins => Sys2Proof.Machine.execSamplePreload pins s
  | .idcode => Sys2Proof.Machine.execIdcode s
  | .clamp => Sys2Proof.Machine.execClamp s
  | .highz => Sys2Proof.Machine.execHighz s
  | .bypass => Sys2Proof.Machine.execBypass s
  | .dbgChallenge => Sys2Proof.Machine.execDbgChallenge s
  | .dbgResponse response => Sys2Proof.Machine.execDbgResponse response s
  | .debugLockoutEnd => Sys2Proof.Machine.execDebugLockoutEnd s
  | .debugRelock => Sys2Proof.Machine.execDebugRelock s
  | .tmbAccess => Sys2Proof.Machine.execTmbAccess s
  | .memAccess => Sys2Proof.Machine.execMemAccess s
  | .cfgAccess => Sys2Proof.Machine.execCfgAccess s
  | .accessPoll => Sys2Proof.Machine.execAccessPoll s
  | .accessRead wide address => Sys2Proof.Machine.execAccessRead wide address s
  | .accessWrite wide address data => Sys2Proof.Machine.execAccessWrite wide address data s
  | .accessComplete => Sys2Proof.Machine.execAccessComplete s
  | .haltUpdate scopeIsland island => Sys2Proof.Machine.execHaltUpdate scopeIsland island s
  | .haltRelease scopeIsland island => Sys2Proof.Machine.execHaltRelease scopeIsland island s
  | .islandHalted island => Sys2Proof.Machine.execIslandHalted island s
  | .stepUpdate tile target n => Sys2Proof.Machine.execStepUpdate tile target n s
  | .breakUpdate index enable port queue code codeAny value mask => Sys2Proof.Machine.execBreakUpdate index enable port queue code codeAny value mask s
  | .sensorLinkStart port => Sys2Proof.Machine.execSensorLinkStart port s
  | .i3cInBandInterrupt port => Sys2Proof.Machine.execI3cInBandInterrupt port s
  | .tumblerStateTimeout => Sys2Proof.Machine.execTumblerStateTimeout s
  | .vserInRange => Sys2Proof.Machine.execVserInRange s
  | .stewardCoreUncorrectableError core => Sys2Proof.Machine.execStewardCoreUncorrectableError core s

end Sys2Proof.Machine
end

