-- ==== Sys2Proof/Safety.lean ====
section
/-! DEFINITION. What a run may be relied on for, in the terms that statements use: fuses that only gain bits, queues in order,
memory in canonical form. -/

namespace Sys2Proof.Machine

/-- Have a device's fuses at least the bits of others: no slot revoked or count burnt is ever lost, and what manufacture set stays
(R258, R261, R262)? -/
def Fuses.covers (g f : Fuses) : Prop :=
  f.rollback ≤ g.rollback ∧ f.revoked &&& g.revoked = f.revoked ∧ g.programmed = f.programmed ∧ g.uid = f.uid ∧
    g.debugOpen = f.debugOpen

/-- The fuses of a state cover some fuses: with those of an earlier state, that nothing was unburnt since. -/
def State.FusesSince (f : Fuses) (s : State) : Prop := s.fuses.covers f

/-- A step that ends neither in a fault nor in a refusal. -/
def Completes (o : Host.Outcome State Fault Refusal) : Prop := ∃ t, o = .next t

/-- The command completes, and its whole effect is that the device becomes `d`: the fuses and the waiting commands stay. -/
def Yields (c : Instr) (s : State) (d : Dev) : Prop := exec c s = .next { s with dev := d }

/-! ### Frames and ring messages that arrive (R312, R314, R315) -/

/-- A frame of a link in RUN that is the next in sequence. -/
def InSequence (s : Dev) (l : Link) (f : Option FrameSeq) : Prop :=
  s.flkUp l.val = true ∧ ∀ h, f = some h → h.seq.toNat = (s.flank l.val).rxSeq

/-- The device once such a frame is accepted: what it acknowledges is freed. -/
def accepted (s : Dev) (l : Link) (f : Option FrameSeq) : Dev :=
  match f.bind (fun h => h.ack) with
  | none => s.flkAccept l.val
  | some n => (s.flkAccept l.val).acked l.val n.toNat

/-- The device once a ring message is accepted and forwarded. -/
def passedOn (s : Dev) (l : Link) (m : RingMsg) : Dev := (accepted s l m.frame).ringForward l.val m

/-- A message of the ring in sequence, of another origin, of which no copy came before: the one on which a receiver acts. -/
def FirstCopy (s : Dev) (l : Link) (m : RingMsg) : Prop :=
  InSequence s l m.frame ∧ (passedOn s l m).isOrigin m = false ∧ (passedOn s l m).firstCopy m = none

/-- The device as it acts on a first copy, which it remembers. -/
def heardFirst (s : Dev) (l : Link) (m : RingMsg) : Dev := (passedOn s l m).keepCopy m

end Sys2Proof.Machine
end

