-- ==== Sys2Proof/Certificates/Slice0/Obligations.lean ====
section
/-! DEFINITION. The statements for the provers. A statement is an `Obligations.<Name>`; one that covers several groups of commands
is the conjunction of the claims named in it, which stand before it. Every clause of the form `Yields c s d`, or that there is a
next state, says that the command completes, for all states and operands that meet the clause's hypotheses. -/

open Sys2Proof Sys2Proof.Machine

/-! ### Accesses from outside -/

/-- An access outside queue memory that R350, R443, R471 and R473 allow. The write of a mapped word, which no drain or abort keeps back (R371), takes effect
with its events attributed to the partition that asks over KMP, and answers OK; it answers BUSY where it has begun an abort of the partition
that asks over KMP, or a device warm reset (R370, R374). The read of a mapped word answers what it finds, and OK; the increments that the
command gives, made in the fc of the read, stand in the word after it (R12). -/
def Obligations.HostAccessCompletes : Prop :=
  (∀ (s : State) (who : Requester) (a : Addr) (wide : Bool) (v : Word) (key : Nat) (h : Reg.Hit),
    inWindow a.toNat = false → aligned a.toNat wide = true → (who.path = .debug → s.dev.dbgOpen = true) →
    s.dev.locate (wordAddr a.toNat) = some (key, h) → s.dev.mayWrite who key h (placed a.toNat wide v) = true →
    s.dev.busyFor who key h (accessMask a.toNat wide) = false →
    let t := ({ s with dev := s.dev.askedBy (askerOf who) } : State).writeWord who key h (accessMask a.toNat wide) (placed a.toNat wide v)
    (s.dev.cutOff t.dev who = false →
      exec (.registerWrite who a wide v) s = .next (({ t with dev := t.dev.askedBy none } : State).answered 0 ksOk)) ∧
    (s.dev.cutOff t.dev who = true →
      exec (.registerWrite who a wide v) s = .next (({ t with dev := t.dev.askedBy none } : State).answered 0 ksBusy))) ∧
  (∀ (s : State) (who : Requester) (a : Addr) (wide : Bool) (incs : List (Nat × Nat)) (key : Nat) (h : Reg.Hit),
    inWindow a.toNat = false → aligned a.toNat wide = true →
    (who.path = .debug → s.dev.dbgOpen = true ∨ tmbWord (wordAddr a.toNat) = true) →
    s.dev.locate (wordAddr a.toNat) = some (key, h) → s.dev.mayRead who.part.val key h = true →
    exec (.rcRead who a wide incs) s =
      .next ({ (s.readWord who a.toNat wide key h).2 with
        dev := (s.readWord who a.toNat wide key h).2.dev.keepIncrements key h incs }.answered (s.readWord who a.toNat wide key h).1 ksOk))

/-- R10, R13: a 64-bit read of a port's counters by P0 returns the word as it stood, clears all its RC fields, and changes
nothing else. -/
def Obligations.RcReadClears : Prop :=
  ∀ (s : State) (n : Port),
    exec (.rcRead ⟨0, .kmp⟩ (BitVec.ofNat 40 (Reg.SPORT_STAT.base + n.val * 4096)) true []) s =
      .next { s with dev := { s.dev with
        regs := s.dev.regs.setWord (Reg.SPORT_STAT.base + n.val * 4096) 0
        lastRead := s.dev.regs.word (Reg.SPORT_STAT.base + n.val * 4096), lastStatus := ksOk } }

/-- R480: a 64-bit read of TIME_NOW or TMB_TIME, or one of the low half, returns the seconds of the timebase now and latches the
whole timebase for its path; a read of the high half returns the held one and latches nothing. The paths, and the two
registers, have latches of their own. -/
def Obligations.TimeReadsLatch : Prop :=
  ∀ (s : State) (path : Path),
    let ix := if path = .kmp then 0 else 1
    let low32 : Word := 0xFFFFFFFF#64
    let seconds := fun (v : Nat) => BitVec.ofNat 64 (v / (1000000000 * 2 ^ 32))
    let keep := fun (i : Nat) (w : Word) => { s.dev with
      latches := Sparse.insert i s.dev.tbNow s.dev.latches, lastRead := w, lastStatus := ksOk }
    let held := fun (i : Nat) => { s.dev with
      lastRead := seconds ((Sparse.find i s.dev.latches).getD 0) >>> 32, lastStatus := ksOk }
    Yields (.timeNowRead path .full) s (keep ix (seconds s.dev.tbNow)) ∧
    Yields (.timeNowRead path .low) s (keep ix (seconds s.dev.tbNow &&& low32)) ∧
    Yields (.timeNowRead path .high) s (held ix) ∧
    Yields (.tmbTimeRead path .full) s (keep (2 + ix) (seconds s.dev.tbNow)) ∧
    Yields (.tmbTimeRead path .low) s (keep (2 + ix) (seconds s.dev.tbNow &&& low32)) ∧
    Yields (.tmbTimeRead path .high) s (held (2 + ix))

/-- R81–R83: a window access that nothing bars (`windowBars`: alignment, rights, the lock, a double error). A read answers the bytes of the slot images
that it covers, and OK, and changes nothing else. A write answers OK; it stores the bytes that it covers, but for bytes 10–15 of each image, under
fresh check bits of its slot; no other byte of queue memory, no other slot's check bits, no register and no queue pointer changes, and memory keeps
its canonical form. -/
def Obligations.WindowAccess : Prop :=
  (∀ (s : State) (who : Requester) (a : Addr), s.dev.windowBars who a.toNat true = none →
    Yields (.queueWindowRead who a true) s { s.dev with
      lastRead := BitVec.ofNat 64 (s.dev.windowBytes a.toNat 8), lastStatus := ksOk }) ∧
  (∀ (s : State) (who : Requester) (a : Addr), s.dev.windowBars who a.toNat false = none →
    Yields (.queueWindowRead who a false) s { s.dev with
      lastRead := BitVec.ofNat 64 (s.dev.windowBytes a.toNat 4), lastStatus := ksOk }) ∧
  (∀ (s : State) (who : Requester) (a : Addr) (wide : Bool) (v : Word), s.dev.windowBars who a.toNat wide = none →
    ∃ t, exec (.queueWindowWrite who a wide v) s = .next t ∧ t.fuses = s.fuses ∧ t.pending = s.pending ∧ t.dev.lastStatus = ksOk ∧
      t.dev.slotErr (slotOf a.toNat) = .clean ∧ (∀ q, q ≠ slotOf a.toNat → t.dev.slotErr q = s.dev.slotErr q) ∧
      t.dev.regs = s.dev.regs ∧ t.dev.queues = s.dev.queues ∧
      (∀ i, i < (if wide then 8 else 4) → (a.toNat + i) % 16 < 10 →
        memGet t.dev.mem (a.toNat - windowBase + i) = BitVec.ofNat 8 (v.toNat / 256 ^ i)) ∧
      (∀ k, (k < a.toNat - windowBase ∨ a.toNat - windowBase + (if wide then 8 else 4) ≤ k) → memGet t.dev.mem k = memGet s.dev.mem k) ∧
      (∀ k, 10 ≤ k % 16 → memGet t.dev.mem k = memGet s.dev.mem k) ∧
      (Memory.wf s.dev.mem → Memory.wf t.dev.mem))

/-! ### Queues -/

/-- R60: the consumer's operations on a live queue of an island that runs. Mark moves mark_ptr to read_ptr, rewind read_ptr to mark_ptr, each
with the grammar position there, and paced_high follows a rewind. Release moves release_ptr and mark_ptr to read_ptr, with queue memory, the
other pointers and the other queues as they were. -/
def Claim.ConsumerOperations : Prop :=
  ∀ (s : State) (q : QId), s.dev.qMoves q.val = true →
    Yields (.queueMark q) s ((s.dev.setF Reg.QD_CONS.mark_ptr (s.dev.fld Reg.QD_CONS.read_ptr q.val) q.val).setQueue q.val
      { s.dev.queue q.val with gramMark := (s.dev.queue q.val).gram }) ∧
    Yields (.queueRewind q) s (((s.dev.setF Reg.QD_CONS.read_ptr (s.dev.fld Reg.QD_CONS.mark_ptr q.val) q.val).setQueue q.val
      { s.dev.queue q.val with gram := (s.dev.queue q.val).gramMark }).pace q.val) ∧
    (∃ t, exec (.queueRelease q) s = .next t ∧ t.fuses = s.fuses ∧ t.pending = s.pending ∧
      t.dev.fld Reg.QD_FILL.release_ptr q.val = s.dev.fld Reg.QD_CONS.read_ptr q.val ∧
      t.dev.fld Reg.QD_CONS.mark_ptr q.val = s.dev.fld Reg.QD_CONS.read_ptr q.val ∧
      t.dev.fld Reg.QD_CONS.read_ptr q.val = s.dev.fld Reg.QD_CONS.read_ptr q.val ∧
      t.dev.fld Reg.QD_PROD.write_ptr q.val = s.dev.fld Reg.QD_PROD.write_ptr q.val ∧
      t.dev.fld Reg.QD_PROD.commit_ptr q.val = s.dev.fld Reg.QD_PROD.commit_ptr q.val ∧
      t.dev.mem = s.dev.mem ∧ (∀ p, p ≠ q.val → t.dev.queue p = s.dev.queue p))

/-- R61: a read of a queue with nothing to read returns the idle grain and leaves the queue as it was. -/
def Claim.EmptyReadIsIdle : Prop :=
  ∀ (s : State) (q : QId), s.dev.fill q.val = 0 → Yields (.queueRead q) s { s.dev with lastGrain := (0, mkCode cIdle) }

/-- R46, R60: a read of a queue that holds a grain, of a slot whose code is clean, where no breakpoint is set and the stream grammar
(R51) takes the grain: it delivers the grain stored, moves the read pointer on by one, and lets paced_high follow (R56). -/
def Claim.QueueReadDelivers : Prop :=
  ∀ (s : State) (q : QId) (g : GramPos), s.dev.qMoves q.val = true → s.dev.fill q.val ≠ 0 → s.dev.breaks = [] →
    s.dev.slotErr (s.dev.slotAt q.val (s.dev.fld Reg.QD_CONS.read_ptr q.val)) = .clean →
    gramStep (s.dev.queue q.val).gram (s.dev.slotCell (s.dev.slotAt q.val (s.dev.fld Reg.QD_CONS.read_ptr q.val))) = (g, none, false) →
    let on := (s.dev.setF Reg.QD_CONS.read_ptr ((s.dev.fld Reg.QD_CONS.read_ptr q.val + 1) % s.dev.qMod q.val) q.val).pace q.val
    Yields (.queueRead q) s
      ({ on with lastGrain := s.dev.slotCell (s.dev.slotAt q.val (s.dev.fld Reg.QD_CONS.read_ptr q.val)) }.setQueue q.val
        { on.queue q.val with gram := g })

/-- The claims `Claim.ConsumerOperations` and `Claim.EmptyReadIsIdle` and `Claim.QueueReadDelivers` together. -/
def Obligations.ConsumerPort : Prop := Claim.ConsumerOperations ∧ Claim.EmptyReadIsIdle ∧ Claim.QueueReadDelivers

/-- R57, R58, R64, R65, R237: the producer's side of a live queue. A write that must wait (`qWaits`) is held in the producer's crossing, where no dropping
takes it; any other goes through the queue and its taps (`qFlow`), the lines that this ends end, and a full stop closes the runs of lines that
did not end DONE. A discard on a line-commit queue takes write_ptr back to commit_ptr, and a tapped queue's tap drops the line that it copies. The held
grains are written again; where none must wait after that, what waited for them is then done (`payOwed`). A tap's copy buffer empties into
tap_q (`drainCopies`); once it is empty the source's producer goes on (`qResume`). -/
def Obligations.ProducerOperations : Prop :=
  (∀ (s : State) (q : QId) (g : Grain) (m : Mark), s.dev.qLive q.val = true → codeOf m ≠ cIdle →
    (s.dev.queue q.val).dropping = .nothing → s.dev.qWaits 64 q.val = true →
    Yields (.queueWrite q g m) s (s.dev.setQueue q.val { s.dev.queue q.val with held := (s.dev.queue q.val).held ++ [(g, m)] })) ∧
  (∀ (s : State) (q : QId) (g : Grain) (m : Mark), s.dev.qLive q.val = true →
    (codeOf m = cIdle ∨ (s.dev.queue q.val).dropping ≠ .nothing ∨ s.dev.qWaits 64 q.val = false) →
    let a := (s.dev.qFlow 64 q.val (g, m) none).1.endAll (s.dev.qFlow 64 q.val (g, m) none).2
    (codeOf m ≠ cStop → Yields (.queueWrite q g m) s a) ∧
    (codeOf m = cStop → Yields (.queueWrite q g m) s (a.closeRuns q.val (fun r => r.status != stDone)))) ∧
  (∀ (s : State) (q : QId), s.dev.qMoves q.val = true → s.dev.qLineCommit q.val = true →
    let a := (s.dev.setF Reg.QD_PROD.write_ptr (s.dev.fld Reg.QD_PROD.commit_ptr q.val) q.val).setQueue q.val
      { s.dev.queue q.val with openTag := none }
    (s.dev.tapOf q.val = none → Yields (.queueDiscard q) s a) ∧
    (∀ unit tq, s.dev.tapOf q.val = some (unit, tq) → Yields (.queueDiscard q) s (a.tapDrop 63 tq))) ∧
  (∀ (s : State) (q : QId),
    let a := (s.dev.setQueue q.val { s.dev.queue q.val with held := [] }).qWriteAll q.val (s.dev.queue q.val).held
    (a.qStalled q.val = true → Yields (.writeWaitResume q) s a) ∧
    (a.qStalled q.val = false → Yields (.writeWaitResume q) s
      ((a.queue q.val).owed.foldl (fun d o => d.payOwed o) (a.setQueue q.val { a.queue q.val with owed := [] })))) ∧
  (∀ (s : State) (u : Fin 64), (s.dev.cfg 7 (0x8000 + u.val)).flag Reg.ABA_TAP.enable u.val = true →
    let src := (s.dev.cfg 7 (0x8000 + u.val)).fld Reg.ABA_TAP.src_q u.val
    let tq := (s.dev.cfg 7 (0x8000 + u.val)).fld Reg.ABA_TAP.tap_q u.val
    let b := s.dev.drainCopies u.val tq (s.dev.queue tq).copyBuf.length
    ((b.queue tq).copyBuf ≠ [] → Yields (.tapCopyResume u) s b) ∧
    ((b.queue tq).copyBuf = [] → Yields (.tapCopyResume u) s (b.qResume src)))

/-- R59: a write whose mark code is idle stores nothing; the queue counts it in QFAB_IDLE_WRITES and otherwise ignores it. -/
def Obligations.IdleWriteCounts : Prop :=
  ∀ (s : State) (q : QId) (g : Grain) (m : Mark), s.dev.qLive q.val = true → m.toNat % 64 = 0x3F →
    Yields (.queueWrite q g m) s (s.dev.bump Reg.QFAB_IDLE_WRITES.count)

/-- R55, R57, R60: what a producer writes to a queue is what a consumer that has read all before it reads next: a queue that
commits at once, neither tapped nor with a breakpoint set, with a free slot; a grain that the stream grammar allows there, but for a
full stop, which ends the records of its lines as well. -/
def Obligations.WriteThenRead : Prop :=
  ∀ (s t u : State) (q : QId) (g : Grain) (m : Mark),
    s.dev.qMoves q.val = true → s.dev.qLineCommit q.val = false → s.dev.tapOf q.val = none → s.dev.breaks = [] →
    (s.dev.queue q.val).held = [] → (s.dev.queue q.val).dropping = .nothing → codeOf m ≠ cIdle → codeOf m ≠ cStop →
    s.dev.fld Reg.QD_BASE.size_log2 q.val ≤ 22 → s.dev.qFull q.val = false →
    s.dev.fld Reg.QD_PROD.write_ptr q.val < s.dev.qMod q.val →
    s.dev.fld Reg.QD_PROD.commit_ptr q.val = s.dev.fld Reg.QD_PROD.write_ptr q.val →
    s.dev.fld Reg.QD_CONS.read_ptr q.val = s.dev.fld Reg.QD_PROD.write_ptr q.val →
    (gramStep (s.dev.queue q.val).gram (g, m)).2 = (none, false) →
    exec (.queueWrite q g m) s = .next t → exec (.queueRead q) t = .next u → u.dev.lastGrain = (g, m)

/-- R69–R73: the requests that present themselves join those that wait at the bank of their slot, in the direction named. The station of this bank that R70
picks (`bankPick`) is served; the others wait on (`ageStations`), it is kept as the last urgent one where its age had reached age_limit, and wait_max
keeps the longest wait that was served, at most 65,535; where none stands there, nothing is served. -/
def Claim.BankArbitrationServes : Prop :=
  ∀ (s : State) (b : Fin 128) (write : Bool) (reqs : List BankReq),
    let d := reqs.foldl (fun d x =>
      let k := bankKey (bankOfSlot x.slot.val) write
      d.setBankDir k { d.bankDir k with waiting := (d.bankDir k).waiting ++ [d.bankWait x] }) s.dev
    let key := bankKey b.val write
    let r := d.bankDir key
    (d.bankPick r = none → Yields (.bankArbitration b write reqs) s d) ∧
    (∀ (k : Fin 4) (w : BankWait), d.bankPick r = some k → station r.waiting k = some w →
      Yields (.bankArbitration b write reqs) s ((d.setBankDir key
        { waiting := d.ageStations k [] (dropClass k r.waiting)
          lastUrgent := if d.fld Reg.QFAB_CTRL.age_limit ≤ w.age then k else r.lastUrgent }).setF Reg.QFAB_WAIT_MAX.wait_max
        (max (d.fld Reg.QFAB_WAIT_MAX.wait_max) (min w.waited 65535))))

/-- R76–R80, R272: a conjunction that runs, of a partition whose completion writer does not stall, takes its turn (`mTurn`) on the configuration in force
for what it reads: the new one of a commit from the pilcrow that the commit names on. The round timeout of an ordered one whose output does not wait
absorbs what has arrived and opens the round that is then due; with a round open and its timeout running it ends the round at that instant, and
absorbs, closes its block where it is at its end, and absorbs again. -/
def Claim.ConjunctionRuns : Prop :=
  (∀ (s : State) (c : Fin 1024), (s.dev.part ((s.dev.cfg 0 (0x8000 + c.val)).fld Reg.QFAB_CONJ_CFG.owner c.val)).stalled = false →
    let a := s.dev.switchAt 0 (0x8000 + c.val) (s.dev.merge c.val).pil.isSome (fun cf => conjInputs cf c.val)
    a.conjRuns c.val = true → Yields (.conjunctionSelect c) s (a.mTurn (a.conjCfg c.val))) ∧
  (∀ (s : State) (c : Fin 1024), (s.dev.part ((s.dev.cfg 0 (0x8000 + c.val)).fld Reg.QFAB_CONJ_CFG.owner c.val)).stalled = false →
    let m := s.dev.conjCfg c.val
    let a := ((s.dev.mAbsorbAll m).mOpenRound m).mSince m
    s.dev.conjRuns c.val = true → m.ordered = true → s.dev.qStalled m.out = false →
    (∀ n t, (a.merge c.val).round = some n → a.conjDeadline c.val = some t →
      Yields (.conjunctionRoundTimeout c) s (((((a.reach t).mExpire 300 m n).mAbsorbAll m).mCloseBlock m).mAbsorbAll m)) ∧
    ((a.merge c.val).round = none ∨ a.conjDeadline c.val = none → Yields (.conjunctionRoundTimeout c) s a))

/-- The claims `Claim.BankArbitrationServes` and `Claim.ConjunctionRuns` together. -/
def Obligations.BanksAndConjunctions : Prop := Claim.BankArbitrationServes ∧ Claim.ConjunctionRuns

/-! ### Sensor ports -/

/-- R84, R88, R97, R99, R100: what arrives at a port that listens. Before the deskew burst that a link awaits (`needsDeskew`), every packet is counted as
unmatched and does nothing else. After it, while the port runs, a long packet whose header is right, or was corrected, which counts, goes to the
stream that its virtual channel and data type name; one that names none counts as unmatched; an uncorrectable header counts, with a LOG event, and
an overrun beside it. In the framing modes that use frames an FS opens the frame of its channel and an FE ends it; in framing per trigger the FE
also closes what the channel's streams have open there (`closeFrame`). Every other short packet is ignored. An open frame without FE ends at
frame_timeout after its FS, and is counted, with a LOG event. -/
def Claim.PortFraming : Prop :=
  ∀ (s : State) (n : Port) (vc : Fin 32),
    (s.dev.portListens n.val = true → s.dev.needsDeskew n.val = true →
      let a := s.dev.bump Reg.SPORT_STAT.unmatched n.val
      (∀ p : LongPacket, Yields (.longPacket n p) s a) ∧ Yields (.frameStart n vc) s a ∧ Yields (.frameEnd n vc) s a ∧
      (∀ kind, Yields (.shortPacketIgnored n vc kind) s a)) ∧
    (s.dev.portListens n.val = true → s.dev.needsDeskew n.val = false →
      (∀ (p : LongPacket) (st : Nat), s.dev.portRuns n.val = true →
        (p.hdr = .ok → s.dev.matchStream n.val p.vc.val p.dt.toNat = some st →
          Yields (.longPacket n p) s (s.dev.streamPacket n.val st p)) ∧
        (let a := s.dev.bump Reg.SPORT_STAT.hdr_corrected n.val
         p.hdr = .corrected → a.matchStream n.val p.vc.val p.dt.toNat = some st →
          Yields (.longPacket n p) s (a.streamPacket n.val st p))) ∧
      (∀ p : LongPacket, p.hdr = .ok → s.dev.matchStream n.val p.vc.val p.dt.toNat = none →
        Yields (.longPacket n p) s (s.dev.bump Reg.SPORT_STAT.unmatched n.val)) ∧
      (∀ p : LongPacket, p.hdr = .uncorrectable →
        (p.overrun = false → Yields (.longPacket n p) s
          (s.dev.countAnd Reg.SPORT_STAT.hdr_uncorrectable n.val 0 1 1 n.val (s.dev.portOwner n.val) 0 0)) ∧
        (let a := s.dev.bump Reg.SPORT_STAT.overrun n.val
         p.overrun = true → Yields (.longPacket n p) s
          (a.countAnd Reg.SPORT_STAT.hdr_uncorrectable n.val 0 1 1 n.val (a.portOwner n.val) 0 0))) ∧
      ((s.dev.cfg 1 n.val).fld Reg.SPORT_CTRL.framing n.val < 2 →
        Yields (.frameStart n vc) s (s.dev.setPort n.val { s.dev.port n.val with
          frames := (s.dev.port n.val).frames.filter (fun f => f.1 != vc.val) ++ [(vc.val, s.dev.now)] })) ∧
      (let closed := s.dev.setPort n.val { s.dev.port n.val with
        frames := (s.dev.port n.val).frames.filter (fun f => f.1 != vc.val) }
       ((s.dev.cfg 1 n.val).fld Reg.SPORT_CTRL.framing n.val = 0 → s.dev.portRuns n.val = true →
         Yields (.frameEnd n vc) s (closed.closeFrame n.val vc.val)) ∧
       ((s.dev.cfg 1 n.val).fld Reg.SPORT_CTRL.framing n.val = 1 → Yields (.frameEnd n vc) s closed)) ∧
      (∀ kind, Yields (.shortPacketIgnored n vc kind) s s.dev)) ∧
    (∀ f, s.dev.portListens n.val = true → (s.dev.port n.val).frames.find? (fun f => f.1 == vc.val) = some f →
      let a := s.dev.reach (f.2 + (s.dev.cfg 1 n.val).fld Reg.SPORT_TIMING.frame_timeout n.val * 1024 * Config.xcPs)
      Yields (.frameTimeout n vc) s
        ((a.endFrame n.val vc.val).countAnd Reg.SPORT_STAT2.frame_timeouts n.val 0 1 1 n.val (s.dev.portOwner n.val) 0 0))

/-- R88, R413–R416: a start of the link of a port awaits its deskew burst, and leaves queue memory, the registers and the other ports as they were (that
it also ends the open frames is the model's choice, log entry 94). The burst on a D-PHY port that listens ends the wait; its skews become
targets of the port's calibration block, beside those in force, to which its trims step: at once where the block applies, as a refresh
otherwise; and it is that block's precondition. -/
def Claim.PortLinkStart : Prop :=
  (∀ (s : State) (n : Port), ∃ t, exec (.sensorLinkStart n) s = .next t ∧ t.fuses = s.fuses ∧ t.pending = s.pending ∧
    (t.dev.port n.val).deskewed = false ∧ t.dev.mem = s.dev.mem ∧ t.dev.regs = s.dev.regs ∧
    (∀ k, k ≠ n.val → t.dev.port k = s.dev.port k)) ∧
  (∀ (s : State) (n : Port) (skew : List (BitVec 12)), s.dev.portListens n.val = true → s.dev.fld Reg.SPORT_CTRL.phy n.val = 0 →
    let b := 24 + n.val
    let r := s.dev.cal b
    let len := max r.codes.length (skew.length + 1)
    let base := padTo len (if s.dev.calState b = csApplying then r.targets else r.codes)
    let skews : List Int := skew.map (fun x => (x.toNat : Int))
    Yields (.deskewBurst n skew) s (((s.dev.setPort n.val { s.dev.port n.val with deskewed := true }).setCal b { r with
      since := if s.dev.calState b = csIdle then s.dev.now else r.since
      codes := padTo len r.codes, refresh := s.dev.calState b != csApplying
      targets := base.take 1 ++ skews ++ base.drop (skew.length + 1) }).calPrecondition b))

/-- R95–R97, R481: at a port that runs, the window of the oldest record without a line closes first_max after its pin, the one of the oldest with lines
inter_line after its last line, and the record is closed (`closeTrig`). Of the grains of the port's own that a stream holds the oldest is written where
the queue does not make it wait, and then those behind it (`portFlush`). -/
def Claim.PortWindows : Prop :=
  ∀ (s : State) (n : Port) (st : Strm),
    (∀ r, s.dev.portRuns n.val = true → (s.dev.stream (4 * n.val + st.val)).recs.find? (fun r => r.received == 0) = some r →
      Yields (.triggerWindowClose n st) s ((s.dev.reach (r.pinAt + ((s.dev.cfg 1 n.val).fld Reg.SPORT_TIMING.first_max n.val + 1) *
        Config.xcPs)).closeTrig n.val st.val r)) ∧
    (∀ r, s.dev.portRuns n.val = true → (s.dev.stream (4 * n.val + st.val)).recs.find? (fun r => r.received != 0) = some r →
      Yields (.interLineTimeout n st) s ((s.dev.reach (r.lastAt + ((s.dev.cfg 1 n.val).fld Reg.SPORT_TIMING.inter_line n.val + 1) *
        Config.xcPs)).closeTrig n.val st.val r)) ∧
    (∀ e rest, (s.dev.stream (4 * n.val + st.val)).store = e :: rest → s.dev.portRuns n.val = true →
      s.dev.qWaits 64 (s.dev.streamQ n.val st.val) = false →
      Yields (.portOwnGrainFlush n st) s (((s.dev.modStream n.val st.val (fun r => { r with store := rest })).qWrite
        (s.dev.streamQ n.val st.val) e.1).portFlush n.val st.val rest.length))

/-- The claims `Claim.PortFraming` and `Claim.PortLinkStart` and `Claim.PortWindows` together. -/
def Obligations.SensorPorts : Prop := Claim.PortFraming ∧ Claim.PortLinkStart ∧ Claim.PortWindows

/-- R102–R104, R109, R110: the control bus of a port. go, while it reads 0, starts a direct command as soon as the bus allows (`cciNext`). The end of a
transaction frees the bus: a direct command ends with status 0, with what it read, or 2 where it was not acknowledged; a transaction of a set takes
the set on (`expStep`), or, of one that is to end, ends it ABORTED with the entries done; one of a bus that was abandoned fails those that waited longer
than stretch_timeout. On I2C a bus held low for stretch_timeout is abandoned: the direct command ends with status 3, the set FAILED BUS_TIMEOUT, or
ABORTED where it was to end; while it stays abandoned, those that wait fail once they have waited as long. On a listener takeover shows and begins to wait;
an active master yields, a listener stays one; a wait ends 100 µs after it began, and after the bus was last busy, with the port active and takeover
clear. A listener follows the twin's transactions: one that its first unfinished set expects takes that set on; any other, or with no such set, raises an
ALARM. -/
def Claim.ControlBus : Prop :=
  ∀ (s : State) (n : Port),
    let free := s.dev.modCci n.val (fun r => { r with job := .idle, lastBusy := s.dev.now })
    let left := s.dev.modCci n.val (fun r => { r with job := .abandoned s.dev.now, lastBusy := s.dev.now })
    (s.dev.flag Reg.SPORT_CCI_CMD.go n.val = false →
      Yields (.cciCmdGo n) s ((((s.dev.setF Reg.SPORT_CCI_CMD.go 1 n.val).setF Reg.SPORT_CCI_CMD.status 1 n.val).modCci n.val
        (fun r => { r with directWaiting := true })).cciNext n.val)) ∧
    (∀ (d : BitVec 32), (s.dev.cci n.val).job = .direct →
      (s.dev.flag Reg.SPORT_CCI_CMD.read n.val = true →
        Yields (.cciTransactionEnd n true d) s (((free.setF Reg.SPORT_CCI_DATA.data
          (d.toNat % 2 ^ (8 * (s.dev.fld Reg.SPORT_CCI_CMD.bytes n.val + 1))) n.val).directEnd n.val 0).cciNext n.val)) ∧
      (s.dev.flag Reg.SPORT_CCI_CMD.read n.val = false →
        Yields (.cciTransactionEnd n true d) s ((free.directEnd n.val 0).cciNext n.val)) ∧
      Yields (.cciTransactionEnd n false d) s ((free.directEnd n.val 2).cciNext n.val)) ∧
    (∀ (ok : Bool) (d : BitVec 32) (k : Nat), (s.dev.cci n.val).job = .set k → (s.dev.exp n.val k).ending = none →
      Yields (.cciTransactionEnd n ok d) s ((free.expStep n.val k ok d).cciNext n.val)) ∧
    (∀ (ok : Bool) (d : BitVec 32) (k cause : Nat), (s.dev.cci n.val).job = .set k → (s.dev.exp n.val k).ending = some cause →
      Yields (.cciTransactionEnd n ok d) s ((free.abortSet n.val k cause
        ((s.dev.exp n.val k).next + if s.dev.expPasses n.val k ok d then 1 else 0) s.dev.now).cciNext n.val)) ∧
    (∀ (ok : Bool) (d : BitVec 32) (t : Nat), (s.dev.cci n.val).job = .abandoned t →
      Yields (.cciTransactionEnd n ok d) s (((free.cciWaitersFail n.val (fun t => decide (t + s.dev.stretchLimit n.val < s.dev.now))).cciWaitOver
        n.val).cciNext n.val)) ∧
    ((s.dev.cfg 1 n.val).flag Reg.SPORT_CCI_CFG.mode n.val = false →
      ((s.dev.cci n.val).job = .direct → Yields (.cciStretchTimeout n) s ((left.directEnd n.val 3).cciNext n.val)) ∧
      (∀ k, (s.dev.cci n.val).job = .set k →
        ((s.dev.exp n.val k).ending = none →
          Yields (.cciStretchTimeout n) s ((left.endSet n.val k stFailed caBusTimeout 0 0).cciNext n.val)) ∧
        (∀ cause, (s.dev.exp n.val k).ending = some cause →
          Yields (.cciStretchTimeout n) s ((left.abortSet n.val k cause (s.dev.exp n.val k).next s.dev.now).cciNext n.val))) ∧
      (∀ t0 t, (s.dev.cci n.val).job = .abandoned t0 → (s.dev.cciDues n.val).min? = some t →
        let a := s.dev.reach (t + s.dev.stretchLimit n.val)
        Yields (.cciStretchTimeout n) s ((a.cciWaitersFail n.val (fun x => decide (x + s.dev.stretchLimit n.val ≤ a.now))).cciNext n.val))) ∧
    (s.dev.cciActive n.val = false →
      Yields (.cciTakeover n) s ((s.dev.setF Reg.SPORT_CCI_CFG.takeover 1 n.val).modCci n.val
        (fun r => { r with activeWait := some s.dev.now }))) ∧
    (s.dev.cciActive n.val = true → Yields (.cciYield n) s (s.dev.setF Reg.SPORT_CCI_CFG.role 1 n.val)) ∧
    (s.dev.cciActive n.val = false → Yields (.cciYield n) s s.dev) ∧
    (∀ t, (s.dev.cci n.val).activeWait = some t →
      Yields (.cciIdleWaitEnd n) s (((((s.dev.reach (max t (s.dev.cci n.val).lastBusy + 100 * Config.usPs)).setF
        Reg.SPORT_CCI_CFG.role 0 n.val).setF Reg.SPORT_CCI_CFG.takeover 0 n.val).modCci n.val
        (fun r => { r with activeWait := none })).cciNext n.val)) ∧
    (∀ (tr : CciTrans) (ok : Bool) (d : BitVec 32), s.dev.cciActive n.val = false →
      let a := s.dev.modCci n.val (fun r => { r with lastBusy := s.dev.now })
      let expected := (a.expOrder n.val).find? (fun k => (a.exp n.val k).lastEnd.isNone)
      (expected = none → Yields (.cciBusObserved n tr ok d) s (a.alarm 1 2 n.val (a.portOwner n.val))) ∧
      (∀ k, expected = some k →
        let t := (a.expPlan n.val k).getD (a.exp n.val k).next (0, false)
        let m := 2 ^ (8 * (a.fld Reg.SPORT_EXP_ENTRY.bytes n.val k t.1 + 1))
        let same := tr.read = t.2 ∧ a.cciAddr n.val tr.reg.toNat = a.cciAddr n.val (a.fld Reg.SPORT_EXP_ENTRY.reg_addr n.val k t.1) ∧
          tr.bytes.val = a.fld Reg.SPORT_EXP_ENTRY.bytes n.val k t.1 ∧
          (t.2 = true ∨ tr.data.toNat % m = a.fld Reg.SPORT_EXP_ENTRY.data n.val k t.1 % m)
        let begun := { a.exp n.val k with phase := if a.groupHold n.val then 2 else 4 }
        (same → (a.exp n.val k).phase = 1 → Yields (.cciBusObserved n tr ok d) s ((a.setExp n.val k begun).expStep n.val k ok d)) ∧
        (same → (a.exp n.val k).phase ≠ 1 → Yields (.cciBusObserved n tr ok d) s (a.expStep n.val k ok d)) ∧
        (¬ same → Yields (.cciBusObserved n tr ok d) s (a.alarm 1 2 n.val (a.portOwner n.val)))))

/-- R105–R110: an empty slot whose set is well formed, and whose index no other armed slot has, is armed, and goes on as soon as the bus and the order
of the sets allow (`cciNext`); any other is refused with result 4 and a LOG event. Cancelling an armed set that is not at its latch ends it ABORTED, cause
CANCELLED, at once where it has no transaction on the bus; where it has one, after that, and cancel reads 1 until then. -/
def Claim.ExposureSlots : Prop :=
  ∀ (s : State) (n : Port) (k : Fin 4),
    (let clash := (List.range 4).any (fun j => j != k.val && (s.dev.exp n.val j).phase != 0 && s.dev.expIndex n.val j == s.dev.expIndex n.val k.val)
     (s.dev.exp n.val k.val).phase = 0 →
      (s.dev.expWellFormed n.val k.val = true → clash = false →
        Yields (.expSlotArm n k) s ((((s.dev.setF Reg.SPORT_EXP_SLOT.arm 1 n.val k.val).setF Reg.SPORT_EXP_SLOT.result 0 n.val k.val).setExp
          n.val k.val { ExpRec.init with phase := 1 }).cciNext n.val)) ∧
      (s.dev.expWellFormed n.val k.val = false ∨ clash = true →
        Yields (.expSlotArm n k) s ((s.dev.setF Reg.SPORT_EXP_SLOT.result 4 n.val k.val).logAt Reg.SPORT_EXP_SLOT.result n.val k.val 1 n.val
          (s.dev.portOwner n.val) (s.dev.expIndex n.val k.val)))) ∧
    ((s.dev.exp n.val k.val).phase ≠ 0 → (s.dev.exp n.val k.val).phase ≠ 4 → (s.dev.cci n.val).job ≠ .set k.val →
      let a := s.dev.abortSet n.val k.val caCancelled (s.dev.exp n.val k.val).next
        ((s.dev.exp n.val k.val).lastEnd.getD (s.dev.cci n.val).lastBusy)
      Yields (.expSlotCancel n k) s (a.cciNext n.val)) ∧
    ((s.dev.exp n.val k.val).phase ≠ 0 → (s.dev.exp n.val k.val).phase ≠ 4 → (s.dev.cci n.val).job = .set k.val →
      Yields (.expSlotCancel n k) s
        ((s.dev.setExp n.val k.val { s.dev.exp n.val k.val with ending := some caCancelled }).setF Reg.SPORT_EXP_SLOT.cancel 1 n.val k.val))

/-- The claims `Claim.ControlBus` and `Claim.ExposureSlots` together. -/
def Obligations.ControlBusAndSets : Prop := Claim.ControlBus ∧ Claim.ExposureSlots

/-! ### Marionette -/

/-- R112–R115, R117: an encoder that is on, at an edge that its glitch filter passes. A step of the quadrature counts one up or down, at the time
of the first sample at the new level, in a history of the counts of the speed window; a double step fails the encoder. A Z edge keeps the count
there; where z_check is set and its distance from the Z before is off the nominal by more than z_tol, it counts an encoder fault, with its
ALARM; and it anchors the grid where this encoder is active. Out of rate mode an acceleration window that ends keeps its count, and fails the
encoder where that differs from the one before by more than the limit and one; and with the running indication set, an encoder without edges
for edge_timeout fails, once for each time it stalls. A restart of the encoders clears their failures and shows it; a root in holdover of its
own restarts its grid at once where it triggers no more, and else remembers to. -/
def Claim.Encoders : Prop :=
  ∀ (s : State) (e : Fin 4), s.dev.encOn e.val = true →
    (∀ (a b : Bool) (held : BitVec 16), s.dev.glitchPassed e.val held.toNat = true →
      let swap := s.dev.flag Reg.MARN_ENC.swap_ab e.val
      let x := if swap then b else a
      let y := if swap then a else b
      let r := s.dev.enc e.val
      let d := (quadrature x y + 4 - quadrature r.a r.b) % 4
      let at_ := s.dev.now - samplesPs held.toNat
      let cut := at_ - (s.dev.fld Reg.MARN_BCAST.speed_window + 1) * Config.usPs
      let old := (r.history.filter (fun h => h.1 ≤ cut)).drop ((r.history.filter (fun h => h.1 ≤ cut)).length - 1)
      let counted := fun (step : Int) =>
        let fwd := decide (0 < s.dev.sense step)
        (s.dev.setEnc e.val { r with
          a := x, b := y, count := r.count + step, edgeAt := at_, forwardAt := if fwd then at_ else r.forwardAt
          forwardCount := if fwd then r.count + step else r.forwardCount
          edgesA := if x = r.a then r.edgesA else min 64 (r.edgesA + 1), edgesB := if y = r.b then r.edgesB else min 64 (r.edgesB + 1)
          history := old ++ r.history.filter (fun h => cut < h.1) ++ [(at_, r.count + step)] }).marnSync
      (d = 1 → Yields (.encoderEdge e a b held) s (counted 1)) ∧
      (d = 3 → Yields (.encoderEdge e a b held) s (counted (-1))) ∧
      (d = 2 → Yields (.encoderEdge e a b held) s (((s.dev.setEnc e.val { r with
        a := x, b := y, edgesA := min 64 (r.edgesA + 1), edgesB := min 64 (r.edgesB + 1) }).encFail e.val 0).marnSync))) ∧
    (∀ held : BitVec 16, s.dev.glitchPassed e.val held.toNat = true →
      let r := s.dev.enc e.val
      let a := s.dev.setEnc e.val { r with zCount := some r.count }
      let nom := s.dev.fld Reg.MARN_ZCHK.z_nominal
      let dist : Nat := (r.zCount.map (fun z => (r.count - z).natAbs)).getD nom
      let off := s.dev.flag Reg.MARN_ENC.z_check e.val = true ∧
        (dist + s.dev.fld Reg.MARN_ZCHK.z_tol < nom ∨ nom + s.dev.fld Reg.MARN_ZCHK.z_tol < dist)
      let b := if off then a.countAnd Reg.MARN_STAT.enc_faults 0 0 2 2 0 0 2 0 else a
      (e.val ≠ s.dev.activeEnc → Yields (.zEdge e held) s b) ∧
      (e.val = s.dev.activeEnc → Yields (.zEdge e held) s (b.anchorAt 1 (s.dev.anchorCount e.val)))) ∧
    (s.dev.rateMode = false →
      let a := s.dev.reach ((s.dev.enc e.val).winAt + s.dev.fld Reg.MARN_ENC_CHK.accel_window * Config.usPs)
      let n := (s.dev.enc e.val).count - (s.dev.enc e.val).winCount
      let b := a.setEnc e.val { s.dev.enc e.val with winAt := a.now, winCount := (s.dev.enc e.val).count, winPrev := some n }
      ((s.dev.enc e.val).winPrev = none → Yields (.accelWindowEnd e) s b.marnSync) ∧
      (∀ p, (s.dev.enc e.val).winPrev = some p →
        (s.dev.fld Reg.MARN_ENC_CHK.accel_limit + 1 < (n - p).natAbs → Yields (.accelWindowEnd e) s (b.encFail e.val 1).marnSync) ∧
        ((n - p).natAbs ≤ s.dev.fld Reg.MARN_ENC_CHK.accel_limit + 1 → Yields (.accelWindowEnd e) s b.marnSync))) ∧
    (∀ t, s.dev.marn.runningAt = some t → s.dev.rateMode = false →
      let r := s.dev.enc e.val
      let base := max (max t r.edgeAt) r.stallFrom
      r.stalledFrom ≠ some base →
      Yields (.encStall e) s ((((s.dev.reach (base + s.dev.fld Reg.MARN_ENC_CHK.edge_timeout * Config.usPs)).setEnc e.val { r with
        stalledFrom := some base }).encFail e.val 3).marnSync)) ∧
    (let a := ((List.range 4).foldl (fun d k =>
        d.setEnc k { d.enc k with failed := false, stallFrom := s.dev.now, winPrev := none }) s.dev).encShown
     (s.dev.marn.selfHold = false → Yields .encoderRestart s a) ∧
     (s.dev.marn.selfHold = true → s.dev.marn.triggering = true →
       Yields .encoderRestart s { a with marn := { a.marn with restartWaits := true } }) ∧
     (s.dev.marn.selfHold = true → s.dev.marn.triggering = false → Yields .encoderRestart s a.restartGrid))

/-- R114: the running indication follows (`runningSync`) a write of running, and a change of the SYNC pin named. -/
def Claim.RunningIndication : Prop :=
  (∀ (s : State) (v : Bool), Yields (.runningWrite v) s ((s.dev.setF Reg.MARN_CTRL.running (if v then 1 else 0)).runningSync)) ∧
  (∀ (s : State) (level : Bool), Yields (.runningPinChange 0 level) s ({ s.dev with marn := { s.dev.marn with synA := level } }.runningSync)) ∧
  (∀ (s : State) (level : Bool), Yields (.runningPinChange 1 level) s ({ s.dev with marn := { s.dev.marn with synB := level } }.runningSync))

/-- R116: at the end of a cross-check span on a root the references move to the present counts; a deviation beyond the tolerance counts a mismatch
and an encoder fault, with its ALARM; one within it raises nothing. -/
def Claim.CrossCheck : Prop :=
  ∀ (s : State),
    let p := s.dev.sense (s.dev.enc (s.dev.fld Reg.MARN_CTRL.primary)).count
    let q := s.dev.sense (s.dev.enc (s.dev.fld Reg.MARN_XCHK.secondary)).count
    let a := { s.dev with marn := { s.dev.marn with xRefP := p, xRefS := q } }
    let dev := ((p - s.dev.marn.xRefP) * 2 ^ 32 - s.dev.fld Reg.MARN_XRATIO.ratio * (q - s.dev.marn.xRefS)).natAbs
    s.dev.straps.root = true → s.dev.flag Reg.MARN_XCHK.enable = true → s.dev.fld Reg.MARN_XCHK.span ≤ (p - s.dev.marn.xRefP).natAbs →
    (dev ≤ s.dev.fld Reg.MARN_XCHK.tol * 2 ^ 32 → Yields .xcheckSpanEnd s a) ∧
    (s.dev.fld Reg.MARN_XCHK.tol * 2 ^ 32 < dev →
      Yields .xcheckSpanEnd s ((a.bump Reg.MARN_STAT2.xcheck_mismatch).countAnd Reg.MARN_STAT.enc_faults 0 0 2 2 0 0 4 0))

/-- The claims `Claim.Encoders` and `Claim.RunningIndication` and `Claim.CrossCheck` together. -/
def Obligations.MarionetteInputs : Prop := Claim.Encoders ∧ Claim.RunningIndication ∧ Claim.CrossCheck

/-- R118–R121: position samples. A root takes one at the next sampling instant, keeps it to apply, and sends it to the whole chain. A follower that hears
the first copy of one keeps it, or, where its instant of application is past, counts it as late. The sample that waits longest is applied at its
instant: one of another run first ends the grid; its model is in force from then on, the models before it stay known for what lies in the past;
it ends a holdover that is not the root's own, which a follower that did not stop shows; its status acts (`sampleStatus`), and it may be the
anchor. A follower whose last sample is 10 µs old enters holdover, with a LOG event. 100 µs after a holdover began, the root's own or with no
sample that waits, triggers stop; a root that was to restart does so then, unless its active encoder has failed again. -/
def Obligations.PositionSamples : Prop :=
  (∀ (s : State), s.dev.straps.root = true →
    let tk := s.dev.nextTk
    let a := (((s.dev.reach (s.dev.psAt tk).toNat).marnSync).genStep).holdIfFailed
    Yields .positionSampleTake s (((a.modMarn (fun r => { r with
      seq := (r.seq + 1) % 256, takenAt := some tk, waiting := r.waiting ++ [a.sampleNow tk]
      announced := r.announced || r.rootGrid })).stamped).ringSend chPosition none (.sample (a.sampleNow tk)))) ∧
  (∀ (s : State) (l : Link) (m : RingMsg) (p : PosSample), FirstCopy s.dev l m → m.body = .sample p → m.broadcast = true →
    let a := heardFirst s.dev l m
    a.straps.root = false →
    (a.applyAt p < a.now → Yields (.positionSampleReceive l m) s (a.bump Reg.MARN_STAT.late_samples)) ∧
    (a.now ≤ a.applyAt p → Yields (.positionSampleReceive l m) s { a with marn := { a.marn with waiting := a.marn.waiting ++ [p] } })) ∧
  (∀ (s : State) (p : PosSample) (rest : List PosSample), s.dev.marn.waiting = p :: rest →
    let a0 := (s.dev.reach (s.dev.applyAt p).toNat).marnSync
    let a := if a0.otherRun p then a0.gridEnds.stopWithGrid else a0
    let b := a.modMarn (fun r => { r with
      waiting := rest, model := some (a.modelOf p), appliedAt := a.now
      past := ((r.model.map (fun m => (a.modelFrom, m))).toList ++ r.past).take 131072
      holdAt := if r.selfHold then r.holdAt else none })
    let c := if b.isRoot = false ∧ s.dev.marn.holdAt.isSome = true ∧ b.marn.stopped = none then b.setF Reg.MARN_STATUS.pos_state 1 else b
    let d := if c.isRoot then c
      else (if p.status.getLsbD 5 then c.setOrigin p.origin.toInt else c).setF Reg.MARN_ORIGIN.origin p.origin.toNat
    Yields .positionSampleApply s (((d.sampleStatus p).marnSync).anchorAt 0 (ceilCount ((a.modelOf p).exact (s.dev.applyTk p))))) ∧
  (∀ (s : State), s.dev.marn.model.isSome = true → s.dev.marn.holdAt = none → s.dev.straps.root = false →
    Yields .positionHoldover s ((((s.dev.reach (s.dev.marn.appliedAt + 10 * Config.usPs)).marnSync).enterHold).logAt
      Reg.MARN_STAT2.holdovers 0 0 2 0 0)) ∧
  (∀ (s : State) (t : Nat), s.dev.marn.holdAt = some t → s.dev.marn.selfHold = true ∨ s.dev.marn.waiting = [] →
    let b := (s.dev.reach (t + 100 * Config.usPs)).marnSync
    let c := if b.marn.selfHold then b.modMarn (fun r => { r with holdOver := true }) else b
    let a := c.stopTriggers true
    (s.dev.marn.triggering = false → Yields .triggerStop s c) ∧
    (s.dev.marn.triggering = true → a.marn.restartWaits = false → Yields .triggerStop s a) ∧
    (s.dev.marn.triggering = true → a.marn.restartWaits = true →
      ((a.enc a.activeEnc).failed = true → Yields .triggerStop s { a with marn := { a.marn with restartWaits := false } }) ∧
      ((a.enc a.activeEnc).failed = false → Yields .triggerStop s a.restartGrid)))

/-- R126–R130: while the device triggers, a head that is on and that the line's entry of the sequence names fires for the first line that it has
not handled at its pulse time, unless its last pulse is less than min_period away, when the trigger is skipped. A pulse, and a strobe, that is under
way ends at its instant. The midpoint that is due first is captured at its instant by the applied model. An enabled strobe starts for its next
line, trimmed, and stays active until its end or that of the one before. A written mid_offset_next is pending. -/
def Obligations.TriggersAndStrobes : Prop :=
  ∀ (s : State),
    (∀ (h : Port) (t : Int), s.dev.marn.triggering = true →
      let n := s.dev.headLine h.val (s.dev.head h.val).next
      let c := s.dev.lineCfg n
      let a := (s.dev.reach t.toNat).marnSync
      let b := a.setHead h.val { a.head h.val with next := (n + 1) % 2 ^ 48 }
      headOn c h.val = true → (c.fld Reg.MARN_SEQ.head_mask (seqEntry c n)).testBit h.val = true → s.dev.fireAt h.val n = some t →
      ((a.head h.val).pulseAt = none → Yields (.triggerFire h) s (b.fire h.val n)) ∧
      (∀ p, (a.head h.val).pulseAt = some p →
        (p + c.fld Reg.MARN_HEAD.min_period h.val * Config.nsPs ≤ a.now → Yields (.triggerFire h) s (b.fire h.val n)) ∧
        (a.now < p + c.fld Reg.MARN_HEAD.min_period h.val * Config.nsPs → Yields (.triggerFire h) s (b.skipFire h.val n)))) ∧
    (∀ (h : Port) (t : Nat), (s.dev.head h.val).pulseEnd = some t →
      Yields (.triggerPulseEnd h) s ((s.dev.reach t).setHead h.val { s.dev.head h.val with pulseEnd := none })) ∧
    (∀ (h : Port) (n t : Nat) (rest : List (Nat × Nat)), (s.dev.head h.val).midDue = (n, t) :: rest →
      let a := (s.dev.reach t).marnSync
      Yields (.midpointCapture h) s (a.setHead h.val { a.head h.val with
        midDue := rest, mids := ((n, (a.posAt t % 2 ^ 64).toNat) :: (a.head h.val).mids).take 1024 })) ∧
    (∀ (b : Fin 16) (n : Nat) (x : Int), s.dev.marn.triggering = true → s.dev.strobeLine b.val (s.dev.strobe b.val).next = some n →
      (s.dev.lineCfg n).flag Reg.MARN_STB.enable b.val = true → s.dev.crossing (s.dev.linePos n) = some x →
      let c := s.dev.lineCfg n
      let a := (s.dev.reach (x + c.sfld Reg.MARN_STB.start b.val * Config.nsPs + c.fld Reg.MARN_STB.trim b.val * 100).toNat).marnSync
      Yields (.strobeStart b) s (a.setStrobe b.val
        { next := (n + 1) % 2 ^ 48, activeUntil := some (max (a.now + c.fld Reg.MARN_STB.width b.val * Config.nsPs)
            ((s.dev.strobe b.val).activeUntil.getD 0)) })) ∧
    (∀ (b : Fin 16) (x : Nat), (s.dev.strobe b.val).activeUntil = some x →
      Yields (.strobeEnd b) s ((s.dev.reach x).setStrobe b.val { s.dev.strobe b.val with activeUntil := none })) ∧
    (∀ (h : Port) (v : BitVec 20), Yields (.midOffsetNextWrite h v) s
      ((s.dev.setF Reg.MARN_HEAD_MID.mid_offset_next v.toNat h.val).setF Reg.MARN_HEAD_MID.pending 1 h.val))

/-- R125, R132–R136, R478: a root whose run is not set starts to anchor its grid when run is set, with no holdover, stop or restart left; a root's
grid ends when run is cleared. An edge that the filter of an enabled SYNC pin accepts acts at the position of its first sample, SYNA's alone and
with a LOG event where both have one; so does, on a root, one whose message it hears first. A written rate shows, and waits for the next
sample. A port that runs, and whose triggers have all ended, writes the block end of a stop on each of its streams. -/
def Obligations.GridControl : Prop :=
  ∀ (s : State),
    (s.dev.straps.root = true → s.dev.flag Reg.MARN_CTRL.run = false →
      Yields .runSet s { s.dev.setF Reg.MARN_CTRL.run 1 with marn := { s.dev.marn with
        anchoring := true, anchored := none, reanchor := false, selfHold := false, holdOver := false, holdAt := none, stopped := none
        restartWaits := false } }) ∧
    (s.dev.straps.root = true →
      Yields .runClear s { s.dev.setF Reg.MARN_CTRL.run 0 with
        marn := { s.dev.marn with anchoring := false, anchored := none, reanchor := false, rootGrid := false } }) ∧
    (∀ (pa pb : Option Bool) (held : BitVec 16) (heldB : Option (BitVec 16)),
      let a := s.dev.marnSync
      let x := fun (h : BitVec 16) => a.exactAt (a.now - samplesPs h.toNat)
      let hb := heldB.getD held
      (a.syncAccepts 0 pa held.toNat = true → a.syncAccepts 1 pb hb.toNat = true →
        Yields (.syncEdge pa pb held heldB) s ((a.log 2 0 0).syncAt 0 (x held))) ∧
      (a.syncAccepts 0 pa held.toNat = true → a.syncAccepts 1 pb hb.toNat = false →
        Yields (.syncEdge pa pb held heldB) s (a.syncAt 0 (x held))) ∧
      (a.syncAccepts 0 pa held.toNat = false → a.syncAccepts 1 pb hb.toNat = true →
        Yields (.syncEdge pa pb held heldB) s (a.syncAt 1 (x hb)))) ∧
    (∀ (l : Link) (m : RingMsg) (pin : Fin 2) (x : Int), FirstCopy s.dev l m → m.body = .sync pin x →
      let a := heardFirst s.dev l m
      a.isDest m = true → a.straps.root = true →
      Yields (.syncMessage l m) s ((a.marnSync).syncAt pin.val (x * speedUnit))) ∧
    (∀ (rate : BitVec 32), Yields (.rateWrite rate) s { s.dev.setF Reg.MARN_RATE.rate rate.toNat with
      marn := { s.dev.marn with rateNext := s.dev.marn.rateNext ++ [(rate.toNat, s.dev.now)] } }) ∧
    (∀ (n : Port), (s.dev.port n.val).stopPending = true → s.dev.portRuns n.val = true →
      (s.dev.streamsOn n.val).all (fun st => (s.dev.stream (4 * n.val + st)).recs.isEmpty) = true →
      Yields (.stopBlockEnd n) s (((s.dev.streamsOn n.val).foldl (fun d st => d.streamStop n.val st) s.dev).setPort n.val
        { s.dev.port n.val with stopPending := false }))

/-! ### Pixel tiles, Kaleidoscope, resamplers -/

/-- R138, R171, R272, R385: a tile that is ready, of a partition whose completion writer does not stall, finds an item at the front of its
input: TILE_LINE on the configuration that is in force for the item, the new one of a commit from the pilcrow that the commit names on.
The grains that an uncorrectable buffer error strikes are spoiled in it, with their ALARM. With no mismatch in an operator that computes a
line of it, the item is taken (`tileTake`). With one, a replay of it begins, and the mismatch is counted on the tile that serves. With a
replay in hand the tile takes the item only by UNDERSTUDY_REPLAY: with no mismatch the item is taken and the replay ends; a further
mismatch is counted on the tile that replayed, and begins the second replay; after the third one the replay ends, and what the operator
was to compute, where there is such a thing, is written as ellipses and counted, with an ALARM: its lines end FAILED RESIDUE. -/
def Claim.TileLines : Prop :=
  ∀ (s : State) (t : TileId) (errs pages : List BufErr) (sc : Scan) (mm : Option (Fin 4)),
    (s.dev.part (s.dev.tileOwner t.val)).stalled = false →
    let d := s.dev.pageStrikes t.val pages
    let it : Scan := { sc with item := sc.item.strike errs }
    (let a := d.switchAt 3 t.val (d.tile t.val).block.isSome (fun c => [c.fld Reg.TILE_CTRL.in_q t.val])
     let q := (a.tileCfg t.val).fld Reg.TILE_CTRL.in_q t.val
     let b := a.bufferAlarms 3 t.val (sc.item.lost errs)
     let h := it.item.head?.getD ((b.windowHead t.val).getD idleCell)
     a.tileReady t.val = true → (a.tile t.val).replay = none → (b.tile t.val).replay = none →
     a.peekItem q (some ((a.tileCfg t.val).fld Reg.TILE_CTRL2.in_width t.val)) = some sc →
      (mm.filter (fun k => b.slotComputes t.val q k.val it) = none →
        Yields (.tileLine t mm errs pages) s ((b.tileTake t.val q it).endReplay t.val none)) ∧
      (∀ k, mm.filter (fun k => b.slotComputes t.val q k.val it) = some k →
        Yields (.tileLine t mm errs pages) s
          ((b.startReplay t.val 1 none).mismatchOn t.val (b.serving t.val) k.val (Tag.of h.1).index))) ∧
    (let q := (d.tileCfg t.val).fld Reg.TILE_CTRL.in_q t.val
     let b := d.bufferAlarms 3 t.val (sc.item.lost errs)
     let h := it.item.head?.getD ((b.windowHead t.val).getD idleCell)
     ∀ (n : Nat) (und : Option Nat), d.tileReady t.val = true → (d.tile t.val).replay = some (n, und) → (b.tile t.val).replay = some (n, und) →
      d.peekItem q (some ((d.tileCfg t.val).fld Reg.TILE_CTRL2.in_width t.val)) = some sc →
      (mm.filter (fun k => b.slotComputes t.val q k.val it) = none →
        Yields (.understudyReplay t mm errs pages) s ((b.tileTake t.val q it).endReplay t.val und)) ∧
      (∀ k, mm.filter (fun k => b.slotComputes t.val q k.val it) = some k →
        let e := b.mismatchOn t.val (und.getD (b.serving t.val)) k.val (Tag.of h.1).index
        (n < 2 → Yields (.understudyReplay t mm errs pages) s (e.startReplay t.val (n + 1) und)) ∧
        (2 ≤ n → e.lostFlow t.val q k.val it h = none → Yields (.understudyReplay t mm errs pages) s (e.endReplay t.val und)) ∧
        (∀ x items copies lines, 2 ≤ n → e.lostFlow t.val q k.val it h = some (x, items, copies, lines) →
          Yields (.understudyReplay t mm errs pages) s
            ((((lines.foldl (fun y c => y.endLine (e.tileOut t.val) c.1 stFailed caResidue) (x.tileFinish t.val q it items copies)).bump
              Reg.TILE_STAT.replay_fail t.val).alarm 3 0 t.val (e.tileOwner t.val) ((Tag.of h.1).index + k.val * 2 ^ 48)
              (Reg.TILE_STAT.replay_fail.addr t.val 0 0) 48).endReplay t.val und))))

/-- R168: with no load in progress at a tile, a load into a page that `pageInUse` finds free starts: status 1 is shown, and the source and
page that TILE_LUT_LOAD names are kept; a load into a page in use is refused with status 3 and a LOG event. When a load in progress is
done, status 2 is shown, and the page holds what the 1,024 slots of the table hold, without the errors of what it held. -/
def Claim.LutLoads : Prop :=
  ∀ (s : State) (t : TileId),
    ((s.dev.tile t.val).loading = none →
      (s.dev.pageInUse t.val (s.dev.fld Reg.TILE_LUT_LOAD.page t.val) = false →
        Yields (.lutPageLoad t) s ((s.dev.setF Reg.TILE_LUT_LOAD.status 1 t.val).modTile t.val (fun r => { r with
          loading := some (s.dev.fld Reg.TILE_LUT_LOAD.src t.val, s.dev.fld Reg.TILE_LUT_LOAD.page t.val) }))) ∧
      (s.dev.pageInUse t.val (s.dev.fld Reg.TILE_LUT_LOAD.page t.val) = true →
        Yields (.lutPageLoad t) s ((s.dev.setF Reg.TILE_LUT_LOAD.status 3 t.val).log 3 t.val (s.dev.tileOwner t.val)
          (Reg.TILE_LUT_LOAD.go.addr t.val 0 0)))) ∧
    (∀ (src page : Nat), (s.dev.tile t.val).loading = some (src, page) →
      let g := s.dev.tableSpan (s.dev.regionOf src) src 1024
      Yields (.lutLoadDone t) s ((g.2.setF Reg.TILE_LUT_LOAD.status 2 t.val).modTile t.val (fun r => { r with
        loading := none, pages := Sparse.insert page g.1 r.pages, pageErrs := r.pageErrs.filter (fun e => e.1 / 1024 != page) })))

/-- The claims `Claim.TileLines` and `Claim.LutLoads` together. -/
def Obligations.TilesAndPages : Prop := Claim.TileLines ∧ Claim.LutLoads

/-- R167, R189, R211: arming a parameter commit of valid values for some context keeps its index, shows it ARMED with its contexts
pending and without late ones; one of no context is COMMITTED at once; one that is armed already, or whose values are not valid, is
refused with a LOG event. Cancelling an armed one ends it CANCELLED. A copy of a bank fills the shadow unless a commit is armed. -/
def Obligations.ParameterCommits : Prop :=
  ∀ (s : State) (d : Dev), s.dev = d →
    let shown := fun (w : BankWin) (u : Nat) =>
      (((({ d with arms := Sparse.insert (unitKey w.kind (w.per * u)) (d.fld w.index u) d.arms } : Dev).setF w.status 1 u).setF w.late 0 u).setF
        w.pending (d.fld w.mask u) u)
    let unit := fun (w : BankWin) (u owner : Nat) (valid : Bool) (arm cancel copy : Instr) =>
      (d.fld w.status u ≠ 1 → valid = true → d.fld w.mask u ≠ 0 → Yields arm s ((shown w u).setF w.arm 1 u)) ∧
      (d.fld w.status u ≠ 1 → valid = true → d.fld w.mask u = 0 → Yields arm s ((shown w u).disarm w u 2)) ∧
      (d.fld w.status u = 1 ∨ valid = false → Yields arm s (d.log w.kind (w.per * u) owner (w.arm.addr u 0 0))) ∧
      (d.fld w.status u = 1 → Yields cancel s (d.disarm w u 3)) ∧
      (d.fld w.status u ≠ 1 → Yields copy s (d.copyBank w u (d.fld w.src u) 16)) ∧
      (d.fld w.status u = 1 → Yields copy s (d.log w.kind (w.per * u) owner (w.src.addr u 0 0)))
    (∀ t : TileId, unit tileWin t.val (d.tileOwner t.val) (d.tileBankOk t.val 16) (.tileCommitArm t) (.tileCommitCancel t) (.tileBankCopy t)) ∧
    (∀ u : Fin 32, unit kalWin u.val (d.kalOwner u.val) (d.kalBankOk u.val 16) (.kalCommitArm u) (.kalCommitCancel u) (.kalBankCopy u)) ∧
    (∀ u : Fin 32, unit pgrWin u.val (d.pgrOwner u.val) (d.pgrBankOk u.val 16) (.pgrCommitArm u) (.pgrCommitCancel u) (.pgrBankCopy u))

/-- R174, R178, R186, R188, R272: a Kaleidoscope unit of a partition whose completion writer does not stall. One that is ready, and owes no
end of block, stores a line or an ellipsis of a block that it does not skip in its ring, and takes a pilcrow that does not cut a block
short. The first group of a context that is not yet emitted is emitted, where no output waits, once the groups that its set reads are
whole, or the block has ended. -/
def Claim.KaleidoscopeLines : Prop :=
  (∀ (s : State) (u : Fin 32) (sc : Scan), (s.dev.part (s.dev.kalOwner u.val)).stalled = false →
    let a := s.dev.switchAt 4 u.val (s.dev.kal u.val).block.isSome (fun c => [c.fld Reg.KAL_CTRL.in_q u.val])
    let q := a.kalIn u.val
    a.kalReady u.val = true → (a.kal u.val).ending = none → a.peekItem q (some (a.kalWidth u.val)) = some sc →
    (∀ h b data, (a.kal u.val).skipping = false → sc.item = .line h b data → Yields (.kalInputCopy u) s (a.kalStore u.val q sc h)) ∧
    (∀ h, (a.kal u.val).skipping = false → sc.item = .ell h → Yields (.kalInputCopy u) s (a.kalStore u.val q sc h)) ∧
    (∀ c, sc.item = .pil c false → Yields (.kalInputCopy u) s (((a.takeScan q sc).kalPil u.val c).releaseItem q sc.item))) ∧
  (∀ (s : State) (u : Fin 32) (c : Ctx) (m : Fin 3) (errs : List BufErr) (g : KalGroup) (j : Nat),
    (s.dev.part (s.dev.kalOwner u.val)).stalled = false →
    s.dev.kalReady u.val = true → (List.range (s.dev.kalOuts u.val)).all (fun o => !s.dev.qStalled (s.dev.kalOutQ u.val o)) = true →
    (s.dev.kalGroups u.val c.val).zipIdx.find? (fun gi => !gi.1.emitted) = some (g, j) →
    ((s.dev.kal u.val).ending.isSome = true ∨
      s.dev.groupWhole u.val c.val (j + s.dev.kalDelta u.val (s.dev.bankOf kalWin u.val c.val g.index)) = true) →
    Yields (.kalSetEmit u c m errs) s (s.dev.kalSet u.val c.val j m.val g errs))

/-- R195, R208, R209, R272: a resampler stream of a partition whose completion writer does not stall. One that is ready, and owes no end of
block, stores a line or an ellipsis of a block that it does not skip in its ring, and takes a pilcrow that does not cut a block short. Its
group whose emission condition was met first (`pgrNext`), where its output does not wait and no other stream of the unit goes before it
(`pgrTurn`), is emitted. -/
def Claim.ResamplerLines : Prop :=
  (∀ (s : State) (u : Fin 32) (st : Strm) (sc : Scan), (s.dev.part (s.dev.pgrOwner u.val)).stalled = false →
    let a := s.dev.switchAt 5 (pgrInst u.val 0) (s.dev.pgr (pgrInst u.val st.val)).block.isSome (fun c => [c.fld Reg.PGR_STREAM_A.in_q u.val st.val])
    let q := a.pgrIn u.val st.val
    let r := a.pgr (pgrInst u.val st.val)
    a.pgrReady u.val st.val = true → r.ending = none → a.peekItem q (some (a.pgrWidth u.val st.val)) = some sc →
    (∀ h b data, r.skipping = false → sc.item = .line h b data → Yields (.pgrInputCopy u st) s (a.pgrStore u.val st.val q sc h)) ∧
    (∀ h, r.skipping = false → sc.item = .ell h → Yields (.pgrInputCopy u st) s (a.pgrStore u.val st.val q sc h)) ∧
    (∀ c, sc.item = .pil c false → Yields (.pgrInputCopy u st) s (((a.takeScan q sc).pgrPil u.val st.val c).releaseItem q sc.item))) ∧
  (∀ (s : State) (u : Fin 32) (st : Strm) (m : Fin 3) (errs : List BufErr) (g : PgrGroup),
    (s.dev.part (s.dev.pgrOwner u.val)).stalled = false → s.dev.pgrReady u.val st.val = true →
    s.dev.qStalled (s.dev.pgrOut u.val st.val) = false → s.dev.pgrNext u.val st.val = some g → s.dev.pgrTurn u.val st.val g = true →
    Yields (.pgrOutputEmit u st m errs) s (s.dev.pgrOutput u.val st.val m.val g errs))

/-- The claims `Claim.KaleidoscopeLines` and `Claim.ResamplerLines` together. -/
def Obligations.MosaicAndGrid : Prop := Claim.KaleidoscopeLines ∧ Claim.ResamplerLines

/-! ### Jigsaw and collectors -/

/-- R217, R218, R227: the round of a Jigsaw unit that is ready, of a partition whose completion writer does not stall, once it has absorbed
what its sides hold. In an open block the lowest index at a side (`openIndex`) opens where no round is open, or where the
open one must wait for a lower round that is still due (`opensBefore`); it is stamped with the earliest commit of it at a side. With a pilcrow in hand, and no lower round due, it is written once
every expected side has delivered or is behind, and the inputs that it took are released (`jigRelease`). At its deadline each side that is
expected and still missing, or due for a lower round, falls behind, each with its LOG event. -/
def Claim.JigsawRounds : Prop :=
  ∀ (s : State) (j : Fin 16), (s.dev.part (s.dev.jigOwner j.val)).stalled = false →
    let a := s.dev.jigPrepare j.val
    a.jigReady j.val = true →
    (∀ n : Nat, (a.jig j.val).pil.isSome = true → a.openIndex j.val = some n → a.opensBefore j.val n = true →
      let stamps := ((a.jigSides j.val).filter (fun x => a.sideIndex x == some n)).map (fun x => a.frontStamp x.queue)
      Yields (.roundOpen j) s (((a.jigSides j.val).foldl (fun d x => d.qMark x.queue) a).modJig j.val (fun r => { r with
        round := some (n, stamps.foldl min ((stamps.head?).getD a.now)) }))) ∧
    (∀ (n t : Nat) (m : Fin 3) (errs : List BufErr), (a.jig j.val).round = some (n, t) → a.qStalled (a.jigOut j.val) = false →
      (a.jig j.val).pil.isSome = true → (a.lowerDue j.val n).isEmpty = true →
      (a.expectedSides j.val n).all (fun x => a.behind j.val x.num || a.delivered j.val n x) = true →
      let gen := ((a.presents j.val n).find? (fun p => p.side.num < 16)).map (fun p => p.line.tag.gen)
      let taken := (a.expectedSides j.val n).filterMap (fun x => (a.sideRound n x).map (fun sc => (x.queue, sc.item.closes)))
      let b := (a.jigConsume j.val n).roundDone j.val n (gen.getD (a.jig j.val).lastGen)
      let c := ((a.jigWrite b j.val n m.val (a.endsWith j.val n) errs).jigRelease j.val taken).jigAbsorbAll j.val
      (a.endsWith j.val n = true → Yields (.roundReady j m errs) s (c.jigShut j.val)) ∧
      (a.endsWith j.val n = false → Yields (.roundReady j m errs) s (c.jigClose j.val))) ∧
    (∀ (n t : Nat), (a.jig j.val).round = some (n, t) →
      let b := a.reach (t + (a.jigCfg j.val).fld Reg.JIG_CTRL.seam_deadline j.val * Config.xcPs)
      Yields (.seamDeadline j) s (((b.jigSides j.val).filter (fun x => (b.lowerDue j.val n).contains x ||
        (b.expects n x && !b.behind j.val x.num && !b.delivered j.val n x))).foldl (fun d x => (d.setBehind j.val x.num true).logAt
          (if x.num < 16 then Reg.JIG_STATE.behind else Reg.JIG_STATE.rem_behind) j.val 0 6 j.val (d.jigOwner j.val) n) b))

/-- R230–R233, R272: a collector that is ready, of a partition whose completion writer does not stall, takes its turn (`mTurn`). The deadline
of its open round, counted from the instant at which the grid line after it is reached (`colBase`), ends the round. The deadline of its
block, counted from its end (`blockEnd`), writes the rounds that are due, and then closes the block where inputs are still open: they
count as ended, those that had opened it as lagging, and the forced closure is counted. All this where no write of the collector waits for
room (R58). -/
def Claim.Collectors : Prop :=
  ∀ (s : State) (j : Fin 16), (s.dev.part ((s.dev.colCfg j.val).fld Reg.JIG_CTRL.owner j.val)).stalled = false →
    let a := s.dev.colPrepare j.val
    let m := a.colMerge j.val
    a.colReady j.val = true →
    Yields (.collectorRound j) s (a.mTurn m) ∧
    (let b := a.mAbsorbAll m
     ∀ (n t : Nat) (c : Grain), a.qStalled m.out = false → (b.merge m.key).round = some n → (b.merge m.key).pil = some c →
      b.colBase (pilBlockOf c) (b.linePos ((n + 1) % 2 ^ 48)) = some t →
      Yields (.collectorDeadline j) s (((((b.reach (t + b.colWait j.val)).mExpire 300 m n).mAbsorbAll m).mCloseBlock m).mAbsorbAll m)) ∧
    (∀ (c : Grain) (e t : Nat), a.qStalled m.out = false → (a.merge m.key).pil = some c → a.blockEnd (pilBlockOf c) = some e →
      a.colBase (pilBlockOf c) (a.linePos e) = some t →
      let b := (((a.reach (t + a.colWait j.val)).mAbsorbAll m).expireRounds m 100000).mAbsorbAll m
      let left := (List.range m.inputs.length).filter (fun i => !(b.merge m.key).ended.contains i)
      b.qStalled m.out = false → (b.merge m.key).pil = some c → left ≠ [] →
      Yields (.blockDeadline j) s (((((b.setMerge m.key { b.merge m.key with
        ended := List.range m.inputs.length, forced := true
        lagging := (b.merge m.key).lagging ++ left.filter (fun i => (b.merge m.key).opened.contains i) }).bump
          Reg.JIG_COL_STAT2.forced_closures j.val).mCloseBlock m).mAbsorbAll m)))

/-- The claims `Claim.JigsawRounds` and `Claim.Collectors` together. -/
def Obligations.JigsawAndCollectors : Prop := Claim.JigsawRounds ∧ Claim.Collectors

/-! ### Abacus -/

/-- R239, R248, R253, R272: an Abacus unit that is ready, of a partition whose completion writer does not stall, finds an item at the front of
its input, on the configuration that is in force for it; the grains that an uncorrectable buffer error strikes are spoiled in it, with
their ALARM. A line in an open block goes into its statistics (`abaLine`), one outside passes (`abaPast`). An ellipsis in an open block
whose context the unit covers is counted for that context, with its blemishes; outside a block it is taken and nothing else happens; one of
a context that the unit does not cover is counted as skipped. A pilcrow opens its block (`abaPil`), one that cuts an open block short closes
that first (`abaClose`). A bare full stop closes the open block; with none open it is taken and nothing else happens, as are a line that the
grammar refuses and the noise outside a block. A reseed sets the bits of its mask in reseed. -/
def Obligations.AbacusLines : Prop :=
  (∀ (s : State) (u : Fin 64) (m : Fin 3) (errs : List BufErr) (sc0 : Scan), (s.dev.part (s.dev.abaOwner u.val)).stalled = false →
    let a := s.dev.switchAt 7 u.val (s.dev.aba u.val).pil.isSome (fun c => [c.fld Reg.ABA_CTRL.in_q u.val])
    let q := a.abaIn u.val
    let sc : Scan := { sc0 with item := sc0.item.strike errs }
    let b := a.bufferAlarms 7 u.val (sc0.item.lost errs)
    let away := (b.takeScan q sc).releaseItem q sc.item
    a.abaReady u.val = true → a.peekItem q (some (a.abaWidth u.val)) = some sc0 →
    (∀ h br data, sc.item = .line h br data →
      ((b.aba u.val).pil.isSome = true → Yields (.abacusLine u m errs) s (b.abaLine u.val m.val q sc h br data)) ∧
      ((b.aba u.val).pil = none → Yields (.abacusLine u m errs) s (b.abaPast u.val q sc h))) ∧
    (∀ c, sc.item = .ell c →
      (b.abaCtx u.val (Tag.of c.1).ctx = true → (b.aba u.val).pil.isSome = true →
        Yields (.abacusLine u m errs) s (away.setAcc u.val (Tag.of c.1).ctx { away.abaAcc u.val (Tag.of c.1).ctx with
          ellipses := (away.abaAcc u.val (Tag.of c.1).ctx).ellipses + 1
          head := (away.abaAcc u.val (Tag.of c.1).ctx).head.or (Blemish.of c.2) })) ∧
      (b.abaCtx u.val (Tag.of c.1).ctx = true → (b.aba u.val).pil = none → Yields (.abacusLine u m errs) s away) ∧
      (b.abaCtx u.val (Tag.of c.1).ctx = false → Yields (.abacusLine u m errs) s (away.bump Reg.ABA_STAT.lines_skipped u.val))) ∧
    (∀ c cut, sc.item = .pil c cut →
      (cut = false ∨ (b.aba u.val).pil = none →
        Yields (.abacusLine u m errs) s (((b.takeScan q sc).abaPil u.val c).releaseItem q sc.item)) ∧
      (cut = true → (b.aba u.val).pil.isSome = true →
        Yields (.abacusLine u m errs) s ((((b.abaClose u.val [] false).takeScan q sc).abaPil u.val c).releaseItem q sc.item))) ∧
    (sc.item = .stop →
      ((b.aba u.val).pil.isSome = true →
        Yields (.abacusLine u m errs) s (((b.takeScan q sc).abaClose u.val [] false).releaseItem q sc.item)) ∧
      ((b.aba u.val).pil = none → Yields (.abacusLine u m errs) s away)) ∧
    (∀ h, sc.item = .bad h → Yields (.abacusLine u m errs) s away) ∧
    (sc.item = .noise → Yields (.abacusLine u m errs) s away)) ∧
  (∀ (s : State) (a : Fin 64) (mask : BitVec 16),
    Yields (.abacusReseed a mask) s (s.dev.setF Reg.ABA_SCREEN.reseed (s.dev.fld Reg.ABA_SCREEN.reseed a.val ||| mask.toNat) a.val))

/-! ### Images and commits -/

/-- R263–R265, R276: with no load in progress and no ready message out, a load starts: of a full image by P0 always, of a partition image or by
another partition unless the configuration is frozen, when it is refused FROZEN; with either it is refused BUSY. While a load is in
progress (state 1) its end, by the partition that loads or by P0, starts the checks (state 2). In that state an image that passes them is
staged, and one that fails them is refused with what the first check that fails names. A staged image is discarded by P0, or by the
partition that it is of, unless ready has been sent, when a LOG event says so. -/
def Obligations.ImageLoading : Prop :=
  ∀ (s : State),
    (∀ (p : Part) (own : Bool), s.dev.img.loader = none → s.dev.readySent = false →
      ((own = false ∧ p.val = 0) ∨ s.dev.flag Reg.IMG_STATUS.frozen = false →
        let a := (s.dev.unstage.dropBuffer).imgShow 1 0 noSect
        Yields (.loadStart p own) s { a with img := { a.img with loader := some (p.val, own || p.val != 0) } }) ∧
      (own = true ∨ p.val ≠ 0 → s.dev.flag Reg.IMG_STATUS.frozen = true → Yields (.loadStart p own) s (s.dev.refuseLoad irFrozen))) ∧
    (∀ (p : Part) (own : Bool), s.dev.img.loader.isSome = true ∨ s.dev.readySent = true →
      Yields (.loadStart p own) s (s.dev.refuseLoad irBusy)) ∧
    (∀ (p : Part) (l : Nat × Bool), s.dev.fld Reg.IMG_STATUS.state = 1 → s.dev.img.loader = some l → l.1 = p.val ∨ p.val = 0 →
      Yields (.loadEnd p) s (s.dev.setF Reg.IMG_STATUS.state 2)) ∧
    (∀ bad : Option (BitVec 24), s.dev.fld Reg.IMG_STATUS.state = 2 →
      Yields (.imageChecksDone bad) s ((match s.dev.checkImage s.fuses s.dev.loadedBy s.dev.img.buffer (bad.map BitVec.toNat) with
        | .ok c => s.dev.stage c
        | .error e => s.dev.refuseImage e.1 e.2).bootCheck s.fuses.uid)) ∧
    (∀ (p : Part) c, s.dev.img.staged = some c → p.val = 0 ∨ c.part = some p.val →
      (s.dev.readySent = false → Yields (.imageDiscard p) s ((s.dev.unstage.dropBuffer).setF Reg.IMG_STATUS.state 0)) ∧
      (s.dev.readySent = true → Yields (.imageDiscard p) s (s.dev.log 8 0 0 (Reg.IMG_CTRL.discard.addr 0 0 0))))

/-- R262: with no burn in progress a target that is not below the rollback count, not above the count of the image loaded last and at most
64 starts a burn, with status 1; any other target is refused with status 3. A burn that is done raises the rollback count to its target, or
leaves a higher one, with status 2. Revoking adds the slots to those revoked. Nothing else changes. -/
def Obligations.FuseBurning : Prop :=
  ∀ (s : State),
    (s.dev.img.burning = none →
      let t := s.dev.fld Reg.IMG_ROLLBACK.target
      (∀ r, s.dev.img.rollback = some r →
        (s.fuses.rollback ≤ t → t ≤ r → t ≤ 64 →
          Yields .rollbackBurn s { s.dev.setF Reg.IMG_ROLLBACK.burn_status 1 with img := { s.dev.img with burning := some t } }) ∧
        (t < s.fuses.rollback ∨ r < t ∨ 64 < t → Yields .rollbackBurn s (s.dev.setF Reg.IMG_ROLLBACK.burn_status 3))) ∧
      (s.dev.img.rollback = none → Yields .rollbackBurn s (s.dev.setF Reg.IMG_ROLLBACK.burn_status 3))) ∧
    (∀ t, s.dev.img.burning = some t →
      exec .rollbackBurnDone s = .next { s with
        fuses := { s.fuses with rollback := max s.fuses.rollback t }
        dev := { s.dev.setF Reg.IMG_ROLLBACK.burn_status 2 with img := { s.dev.img with burning := none } } }) ∧
    (∀ slots : BitVec 4, exec (.keyRevoke slots) s = .next { s with fuses := { s.fuses with revoked := s.fuses.revoked ||| slots } })

/-- R270–R275: chain commits. A root with none in progress takes a request, with the tag, the mask and the index that it has then, shows it
pending and looks whether it is ready; on any other device, or with one in progress, the request is ignored with a LOG event. A root
collects a ready message for it, its first copy. While it waits for them, and has not claimed a boundary, the end of ready_timeout ends the
commit with status 3 and result NOT_READY, with an ALARM. An announcement, its first copy: a device of its mask that awaits its tag and holds a staged
configuration is told the boundary, or, with the grid idle, commits at once; another of its mask misses an idle commit at once, and is
called to the boundary otherwise; one outside the mask waits no longer where it awaited that tag, and with the grid running is told the
block. The switch happens when the position reaches the line of the boundary. A retired queue that nothing uses any more, and that holds no
end of a block, starts afresh, with queue memory and the other queues as they were. After the errors that a check finds in the three copies
are in place, they are compared: equal ones show none outvoted and refresh the working registers, one that differs is outvoted, and three
that differ freeze the configuration. -/
def Obligations.ChainCommits : Prop :=
  ∀ (s : State),
    (s.dev.straps.root = true → s.dev.img.request = none →
      Yields .chainCommitRequest s ({ s.dev.setF Reg.IMG_CHAIN_CFG.chain_status 1 with img := { s.dev.img with
        request := some ⟨s.dev.now, s.dev.fld Reg.IMG_COMMIT_TAG.commit_tag, s.dev.fld Reg.IMG_CHAIN_MASK.mask,
          s.dev.fld Reg.IMG_CHAIN_CFG.min_index⟩ } } : Dev).rootReady) ∧
    (s.dev.straps.root = false ∨ s.dev.img.request.isSome = true →
      Yields .chainCommitRequest s (s.dev.log 8 0 0 (Reg.IMG_CTRL.commit.addr 0 0 0))) ∧
    (∀ (l : Link) (m : RingMsg) (tag : BitVec 32), FirstCopy s.dev l m → m.body = .commitReady tag →
      let a := heardFirst s.dev l m
      a.isDest m = true → a.straps.root = true →
      Yields (.commitReadyMessage l m) s ({ a with img := { a.img with
        readies := a.img.readies ++ [(m.origin.toNat % 64, tag.toNat)] } } : Dev).rootReady) ∧
    (∀ r, s.dev.img.request = some r → s.dev.fld Reg.IMG_CHAIN_CFG.chain_status = 1 → s.dev.marn.claimCommit = false →
      Yields .commitReadyTimeout s ((((s.dev.reach (r.since + s.dev.fld Reg.IMG_CHAIN_CFG.ready_timeout * Config.msPs)).endRequest 3).setF
        Reg.IMG_STATUS.result irNotReady).alarmAt Reg.IMG_STATUS.result 0 0 8 1 0 0)) ∧
    (∀ (l : Link) (m : RingMsg) (idle : Bool) (bd : BitVec 48) (blk tag : BitVec 32) (mask : BitVec 64), FirstCopy s.dev l m →
      m.body = .commitAnnounce idle bd blk tag mask → m.broadcast = true →
      let a := heardFirst s.dev l m
      let does := fun (d : Dev) => Yields (.commitAnnouncement l m) s (d.bootCheck s.fuses.uid)
      (mask.toNat.testBit (a.fld Reg.FLK_CHAIN.position) = true →
        (a.img.awaiting = some tag.toNat → a.img.staged.isSome = true →
          (idle = false → does (a.nameBound bd.toNat blk.toNat)) ∧ (idle = true → does (a.commitNow none))) ∧
        (a.img.awaiting ≠ some tag.toNat ∨ a.img.staged = none →
          (idle = false → does (a.calledTo blk.toNat true)) ∧ (idle = true → does a.missCommit))) ∧
      (mask.toNat.testBit (a.fld Reg.FLK_CHAIN.position) = false →
        (a.img.awaiting = some tag.toNat →
          (idle = false → does (a.leaveCommit.calledTo blk.toNat false)) ∧ (idle = true → does a.leaveCommit)) ∧
        (a.img.awaiting ≠ some tag.toNat →
          (idle = false → does (a.calledTo blk.toNat false)) ∧ (idle = true → does a)))) ∧
    (∀ (n : Nat) (t : Int),
      s.dev.commitIndex.or ((s.dev.nextBound.filter (fun b => 3 ≤ b.cause)).map (fun b => b.index)) = some n →
      s.dev.crossing (s.dev.linePos n) = some t →
      Yields .chainCommitSwitch s (((s.dev.reach t.toNat).marnSync).bootCheck s.fuses.uid)) ∧
    (∀ q : QId, s.dev.img.retiring.contains q.val = true → s.dev.stillUsed q.val = false → s.dev.blockEndHeld q.val = false →
      ∃ t, exec (.queueDisableSwitch q) s = .next t ∧ t.fuses = s.fuses ∧ t.pending = s.pending ∧
        t.dev.img.retiring.contains q.val = false ∧ t.dev.queue q.val = QRec.init ∧ t.dev.mem = s.dev.mem ∧
        (∀ p, p ≠ q.val → t.dev.queue p = s.dev.queue p)) ∧
    (∀ found : List CfgFault,
      let d := found.foldl Dev.cfgFault s.dev
      ∀ a b c : _, d.img.copies = [a, b, c] →
      (agree a b = true → agree b c = true → Yields (.configCheck found) s ((d.showOutvoted []).reloadWords a.active)) ∧
      (agree a b = true → agree b c = false → Yields (.configCheck found) s (d.outvote 0 2)) ∧
      (agree a b = false → agree a c = true → Yields (.configCheck found) s (d.outvote 0 1)) ∧
      (agree a b = false → agree a c = false → agree b c = true → Yields (.configCheck found) s (d.outvote 1 0)) ∧
      (agree a b = false → agree a c = false → agree b c = false → Yields (.configCheck found) s d.freeze))

/-! ### Uplinks -/

/-- R279: the link states of an uplink: a signal takes an enabled one from DETECT to TRAIN; a trained one shows the lanes of its rate and goes
to ALIGN, an aligned one to RUN. The limit of TRAIN (500 ms) or ALIGN (50 ms) is a LOG event and a wait of a second, whose end is DETECT with
no lanes shown. One that leaves RUN counts a link drop, with its ALARM, and starts again; in RUN the codewords of a FEC window are counted,
and more uncorrectable ones than fec_limit leave RUN. -/
def Claim.UplinkTraining : Prop :=
  ∀ (s : State) (u : Uplink),
    (s.dev.flag Reg.UPL_CTRL.enable u.val = true → s.dev.uplState u.val = usDetect →
      Yields (.uplinkSignalDetect u) s (s.dev.uplGo u.val usTrain)) ∧
    (s.dev.uplIn u.val usTrain = true →
      Yields (.uplinkTrained u) s ((s.dev.setF Reg.UPL_STATUS.lanes_ok s.dev.laneMask u.val).uplGo u.val usAlign)) ∧
    (s.dev.uplIn u.val usAlign = true → Yields (.uplinkAligned u) s ((s.dev.uplGo u.val usRun).bootCheck s.fuses.uid)) ∧
    (s.dev.uplIn u.val usTrain = true →
      let a := (s.dev.reach ((s.dev.upl u.val).since + 500 * Config.msPs)).log 9 (uplInst u.val) 0
      Yields (.uplinkTrainTimeout u) s (a.modUpl u.val (fun r => { r with waitUntil := some (a.now + Config.secPs) }))) ∧
    (s.dev.uplIn u.val usAlign = true →
      let a := (s.dev.reach ((s.dev.upl u.val).since + 50 * Config.msPs)).log 9 (uplInst u.val) 0
      Yields (.uplinkAlignTimeout u) s (a.modUpl u.val (fun r => { r with waitUntil := some (a.now + Config.secPs) }))) ∧
    (∀ t, (s.dev.upl u.val).waitUntil = some t →
      Yields (.uplinkRedetectWaitEnd u) s (((s.dev.reach t).setF Reg.UPL_STATUS.lanes_ok 0 u.val).uplGo u.val usDetect)) ∧
    (s.dev.fld Reg.UPL_STATUS.state u.val = 3 →
      Yields (.uplinkLeaveRun u) s ((s.dev.countAnd Reg.UPL_STAT3.link_drops u.val 0 2 9 (uplInst u.val) 0 0 0).uplRestart u.val)) ∧
    (∀ n c, s.dev.fld Reg.UPL_STATUS.state u.val = 3 →
      let a := (s.dev.bump Reg.UPL_STAT.fec_corrected u.val (n := c)).bump Reg.UPL_STAT.fec_uncorrectable u.val (n := n)
      (n ≤ s.dev.fld Reg.UPL_CTRL.fec_limit u.val → Yields (.uplinkFecLimit u n c) s a) ∧
      (s.dev.fld Reg.UPL_CTRL.fec_limit u.val < n → Yields (.uplinkFecLimit u n c) s (a.uplLeave u.val)))

/-- R277, R278, R280: an uplink in RUN. A PFC frame pauses a priority that it obeys, from the first such frame on, or releases it, with the
KMP frames that wait for it; a pause that lasts pfc_watchdog counts as stuck, with its ALARM. Pause frames, and frames that are discarded,
count and do nothing else. A request for an address of its own, which is not zero, is answered. -/
def Claim.UplinkFrames : Prop :=
  ∀ (s : State) (u : Uplink), s.dev.fld Reg.UPL_STATUS.state u.val = 3 →
    (∀ p : Fin 8, (s.dev.fld Reg.UPL_CTRL.pfc_rx_en u.val).testBit p.val = true →
      let was := s.dev.fld Reg.UPL_STATUS.paused u.val
      Yields (.pfcFrame u p true) s ((s.dev.setF Reg.UPL_STATUS.paused (was ||| 2 ^ p.val) u.val).modUpl u.val (fun r =>
        if was.testBit p.val then r else { r with pausedAt := Sparse.insert p.val s.dev.now r.pausedAt })) ∧
      Yields (.pfcFrame u p false) s (((s.dev.setF Reg.UPL_STATUS.paused (if was.testBit p.val then was - 2 ^ p.val else was) u.val).modUpl
        u.val (fun r => { r with pausedAt := Sparse.erase p.val r.pausedAt, stuck := r.stuck.filter (fun x => x != p.val) })).kmpRelease
        u.val p.val)) ∧
    (∀ (p : Fin 8) (t : Nat), Sparse.find p.val (s.dev.upl u.val).pausedAt = some t → (s.dev.upl u.val).stuck.contains p.val = false →
      Yields (.pfcWatchdog u p) s (((s.dev.reach (t + s.dev.fld Reg.UPL_CTRL.pfc_watchdog u.val * Config.msPs)).modUpl u.val
        (fun r => { r with stuck := r.stuck ++ [p.val] })).countAnd Reg.UPL_STAT3.pfc_stuck u.val 0 2 9 (uplInst u.val) 0 1 0)) ∧
    Yields (.pauseFrame u) s (s.dev.bump Reg.UPL_STAT3.pause_ignored u.val) ∧
    Yields (.frameDiscard u) s (s.dev.bump Reg.UPL_STAT2.rx_discard u.val) ∧
    (∀ (target : BitVec 32) (mac : BitVec 48) (ip : BitVec 32), s.dev.fld Reg.UPL_IPV4.ipv4 u.val = target.toNat → target.toNat ≠ 0 →
      Yields (.arpRequest u target mac ip) s (s.dev.modUpl u.val (fun r => { r with
        reply := some ⟨false, target.toNat, s.dev.fld Reg.UPL_ADDR.mac u.val, mac.toNat, ip.toNat⟩ }))) ∧
    (∀ (target : BitVec 128) (mac : BitVec 48) (ip : BitVec 128),
      s.dev.fld Reg.UPL_IPV6_HI.ipv6 u.val * 2 ^ 64 + s.dev.fld Reg.UPL_IPV6_LO.ipv6 u.val = target.toNat → target.toNat ≠ 0 →
      Yields (.neighbourSolicitation u target mac ip) s (s.dev.modUpl u.val (fun r => { r with
        reply := some ⟨true, target.toNat, s.dev.fld Reg.UPL_ADDR.mac u.val, mac.toNat, ip.toNat⟩ })))

/-- The claims `Claim.UplinkTraining` and `Claim.UplinkFrames` together. -/
def Obligations.UplinkLinks : Prop := Claim.UplinkTraining ∧ Claim.UplinkFrames

/-- R281: a CNP on an uplink in RUN, for a queue pair in RTS, is counted; unless one has cut the pair's rate within cnp_interval it cuts the
rate by rate >> (cut_shift + 1), not below min_rate, and is counted as a cut; in either case recovery counts from it. Recovery raises a cut
rate by step, up to the line rate, which ends the cut. -/
def Claim.CongestionControl : Prop :=
  ∀ (s : State) (u : Uplink) (ch : Chan),
    (s.dev.fld Reg.UPL_STATUS.state u.val = 3 →
      let a := s.dev.bump Reg.UPL_STAT2.cnp_rx u.val
      let q := (a.chan ch.val).qp u.val
      let rate := q.rate.getD a.lineRate
      let cut := max (rate - rate >>> (a.fld Reg.UPL_CC.cut_shift u.val + 1)) (a.fld Reg.UPL_CC.min_rate u.val * 1000)
      a.qpState ch.val u.val = qsRts →
      ((∀ t, q.cutAt = some t → t + a.fld Reg.UPL_CC.cnp_interval u.val * Config.usPs ≤ a.now) →
        Yields (.cnpReceive u ch) s ((a.bump Reg.DMA_CH_STAT2.cnp_cuts ch.val).modQp ch.val u.val
          (fun q => { q with rate := some cut, cutAt := some a.now, recoverAt := a.now }))) ∧
      (∀ t, q.cutAt = some t → a.now < t + a.fld Reg.UPL_CC.cnp_interval u.val * Config.usPs →
        Yields (.cnpReceive u ch) s (a.modQp ch.val u.val (fun q => { q with recoverAt := a.now })))) ∧
    (∀ rate, ((s.dev.chan ch.val).qp u.val).rate = some rate →
      let up := min (rate + s.dev.fld Reg.UPL_CC.step u.val * 1000) s.dev.lineRate
      let a := s.dev.reach (((s.dev.chan ch.val).qp u.val).recoverAt + s.dev.fld Reg.UPL_CC.recover_us u.val * Config.usPs)
      Yields (.rateRecover u ch) s (a.modQp ch.val u.val
        (fun q => { q with rate := if up = s.dev.lineRate then none else some up, recoverAt := a.now })))

/-- R282–R286: a queue pair in RTS on an uplink in RUN. An ACK of packets that are out moves the oldest unacknowledged PSN past them, and
credits the records that they end. A NAK of sequence in the window acknowledges what comes before it and goes back (`goBack`); RNR goes back; a
remote error puts the queue pair into error with cause REMOTE_ACCESS. With packets out, the retry timeout goes back. -/
def Claim.RoceAcks : Prop :=
  ∀ (s : State) (u : Uplink) (ch : Chan), s.dev.qpState ch.val u.val = qsRts → s.dev.fld Reg.UPL_STATUS.state u.val = 3 →
    let q := (s.dev.chan ch.val).qp u.val
    (∀ psn : BitVec 24,
      let n := (psn.toNat + 1 + 2 ^ 24 - q.una) % 2 ^ 24
      let r := popAcked (s.dev.pmtu ch.val) (q.acked + n) q.backlog
      n ≠ 0 → n ≤ q.sent →
      Yields (.roceAck u ch psn) s ((s.dev.modQp ch.val u.val (fun q => { q with
        backlog := r.2.1, acked := r.2.2, una := (q.una + n) % 2 ^ 24, sent := q.sent - n, next := q.next - n
        retries := 0, progressAt := s.dev.now })).creditRecords ch.val u.val r.1)) ∧
    (∀ psn : BitVec 24,
      let n := (psn.toNat + 1 + 2 ^ 24 - q.una) % 2 ^ 24
      n ≠ 0 → n ≤ q.sent → Yields (.roceNak u ch psn .sequence) s ((s.dev.ackPackets ch.val u.val (n - 1)).goBack ch.val u.val)) ∧
    (∀ psn, Yields (.roceNak u ch psn .rnr) s (s.dev.goBack ch.val u.val)) ∧
    (∀ psn, Yields (.roceNak u ch psn .remoteAccess) s (s.dev.qpError ch.val u.val caRemoteAccess) ∧
      Yields (.roceNak u ch psn .remoteOperation) s (s.dev.qpError ch.val u.val caRemoteAccess)) ∧
    (q.sent ≠ 0 → Yields (.roceRetryTimeout u ch) s ((s.dev.reach (q.progressAt + s.dev.retryPs ch.val)).goBack ch.val u.val))

/-- The claims `Claim.CongestionControl` and `Claim.RoceAcks` together. -/
def Obligations.RoceTraffic : Prop := Claim.CongestionControl ∧ Claim.RoceAcks

/-! ### DMA -/

/-- R352, R280: a visit on an uplink in RUN, of the next partition that has a channel to serve (`dwrrPart`): it adds the quantum to the
deficit, sends what that allows (`dwrrSend`), keeps what is left of the deficit only while a channel still has something to send, and
passes the turn on; the frames sent that an uncorrectable FEC codeword strikes are spoiled (`strikeFrames`). -/
def Claim.DwrrVisit : Prop :=
  ∀ (s : State) (u : Uplink) (p : Nat) (struck : List Nat), s.dev.fld Reg.UPL_STATUS.state u.val = 3 → s.dev.dwrrPart u.val = some p →
    let d := (Sparse.find p (s.dev.upl u.val).deficits).getD 0 + 64 * s.dev.fld Reg.PART_SHARE.quantum p
    let r := (s.dev.clearSent u.val).dwrrSend u.val p d (d / 64 + 1)
    let v := r.2.setUpl u.val { r.2.upl u.val with
      deficits := Sparse.set (fun _ => 0) (r.2.upl u.val).deficits p (if (r.2.readyChans u.val p).isEmpty then 0 else r.1)
      nextPart := (p + 1) % 16 }
    Yields (.dwrrVisit u struck) s (v.strikeFrames u.val struck)

/-- R298: the fourth word of a descriptor appends the four words to the channel's descriptor queue as nouns, where that queue is live and
four of its slots are free; else the write is ignored with a LOG event. -/
def Claim.DescriptorPush : Prop :=
  ∀ (s : State) (ch : Chan) (w : Word),
    let q := s.dev.fld Reg.DMA_CH_CFG.desc_q ch.val
    (s.dev.qLive q = true → s.dev.occ q + 4 ≤ s.dev.qSize q →
      Yields (.descriptorPush ch w) s (s.dev.qWriteAll q (((s.dev.chan ch.val).words.take 3 ++ [w.toNat]).map
        (fun x => (BitVec.ofNat 72 (x % 2 ^ 64), mkCode cNoun))))) ∧
    (s.dev.qLive q = false ∨ s.dev.qSize q < s.dev.occ q + 4 →
      Yields (.descriptorPush ch w) s (s.dev.log 9 ch.val (s.dev.fld Reg.DMA_CH_CFG.owner ch.val) q))

/-- R284, R299–R307: channels. Enabling a disabled channel shows IDLE. Disabling an enabled one ends its started descriptors ABORTED, cause
DISABLED, ends the record that it holds over, and what it owes; it keeps its descriptor words and counters of descriptors and lines, resets
both queue pairs, and shows IDLE; its two counter words are then free. Connecting a queue pair of an enabled channel that is not in RTS puts it into
RTS with its start PSN, and a stopped channel shows IDLE again. The rest holds where the completion writer of the owner does not stall, and
the channel runs. Waiting, and not STOPPED: with an open descriptor that does not run it goes on with it once the source is ready, and else
stays as it is; with none, fewer than four words in the descriptor queue (or that queue not live) make it starve where its last source is
ready, and else show IDLE; with four words it shows IDLE while no queue pair can serve it, or the source that they name is not ready in a new
chain; else it starts the descriptor. A running remote channel with neither a record held over nor a source ready stops running that
descriptor and shows IDLE. The next record, one held over first: one longer than the whole descriptor is dropped as oversize; one that fits
is added; one that fits no more is held over, and the descriptor is complete. A local descriptor copies its slots and ends DONE. -/
def Claim.DmaChannels : Prop :=
  ∀ (s : State) (ch : Chan),
    (s.dev.flag Reg.DMA_CH_CTRL.enable ch.val = false →
      Yields (.channelEnable ch) s ((s.dev.setF Reg.DMA_CH_CTRL.enable 1 ch.val).chGo ch.val csChIdle)) ∧
    (s.dev.fld Reg.DMA_CH_CTRL.enable ch.val ≠ 0 →
      let b := ((s.dev.endRuns ch.val (stAborted, caDisabled, false) (fun _ => true)).endSpill ch.val caDisabled).settle ch.val (fun _ => true)
      let c := b.setChan ch.val { ChanRec.init with
        words := (b.chan ch.val).words, descSeq := (b.chan ch.val).descSeq, lineId := (b.chan ch.val).lineId
        qp0 := { QpRec.init with startPsn := (b.chan ch.val).qp0.startPsn }, qp1 := { QpRec.init with startPsn := (b.chan ch.val).qp1.startPsn } }
      let d := (c.qpReset ch.val 0).qpReset ch.val 1
      Yields (.channelDisable ch) s (((((d.setF Reg.DMA_CH_CTRL.enable 0 ch.val).chGo ch.val csChIdle).showService ch.val).blurWord
        (Reg.DMA_CH_STAT.lines.addr ch.val 0 0)).blurWord (Reg.DMA_CH_STAT2.retransmits.addr ch.val 0 0))) ∧
    (∀ u : Uplink, s.dev.fld Reg.DMA_CH_CTRL.enable ch.val ≠ 0 → s.dev.qpState ch.val u.val ≠ qsRts →
      let start := ((s.dev.chan ch.val).qp u.val).startPsn
      let a := ((s.dev.setF Reg.DMA_CH_QP.qp_state qsRts ch.val u.val).setF Reg.DMA_CH_QP.psn start ch.val u.val).modQp ch.val u.val (fun q =>
        { QpRec.init with una := start, startPsn := start, dropped := q.dropped, progressAt := s.dev.now })
      (a.fld Reg.DMA_CH_CTRL.state ch.val ≠ csChStopped → Yields (.qpConnect ch u) s a) ∧
      (a.fld Reg.DMA_CH_CTRL.state ch.val = csChStopped → Yields (.qpConnect ch u) s (a.chGo ch.val csChIdle))) ∧
    ((s.dev.part (s.dev.chOwner ch.val)).stalled = false → s.dev.chRuns ch.val = true →
      (s.dev.fld Reg.DMA_CH_CTRL.state ch.val ≠ csChStopped →
        (∀ x : DescRun, (s.dev.chan ch.val).openRun = some x →
          (x.running = false → s.dev.chanReady ch.val x.d.srcQ = true →
            Yields (.channelReady ch) s ((s.dev.modChan ch.val (fun r => r.modRun x.seq (fun y => { y with running := true }))).chGo ch.val
              csChRunning)) ∧
          (x.running = true ∨ s.dev.chanReady ch.val x.d.srcQ = false → Yields (.channelReady ch) s s.dev)) ∧
        (let q := s.dev.fld Reg.DMA_CH_CFG.desc_q ch.val
         let src := (slotGrain s.dev.mem (s.dev.slotAt q (s.dev.fld Reg.QD_CONS.read_ptr q))).toNat % 2 ^ 15
         let ripe := s.dev.chLocal ch.val = false ∧
           (s.dev.chan ch.val).srcQ.any (fun x => s.dev.qLive x && s.dev.chanReady ch.val x) = true
         let may := s.dev.hasQp ch.val = true ∧
           ((s.dev.chan ch.val).chained || s.dev.chLocal ch.val || s.dev.chanReady ch.val src) = true
         (s.dev.chan ch.val).openRun = none →
          (s.dev.qLive q = false ∨ s.dev.fill q < 4 →
            (ripe → Yields (.channelReady ch) s (s.dev.starve ch.val)) ∧
            (¬ ripe → Yields (.channelReady ch) s (s.dev.chGo ch.val csChIdle))) ∧
          (s.dev.qLive q = true → 4 ≤ s.dev.fill q →
            (¬ may → Yields (.channelReady ch) s (s.dev.chGo ch.val csChIdle)) ∧
            (may → ((s.dev.startDesc ch.val).chan ch.val).openRun.isSome = true → Yields (.channelReady ch) s (s.dev.startDesc ch.val))))) ∧
      (∀ x : DescRun, s.dev.chLocal ch.val = false → (s.dev.chan ch.val).openRun = some x → x.running = true →
        let fit := fun (a : Dev) (l : LineRec) =>
          (x.d.length < l.bytes.length → Yields (.lineRecordAssemble ch) s (a.oversize ch.val l)) ∧
          (l.bytes.length ≤ x.d.length → x.offset + l.bytes.length ≤ x.d.length →
            Yields (.lineRecordAssemble ch) s ((a.closeWith l).addRecord ch.val x l)) ∧
          (l.bytes.length ≤ x.d.length → x.d.length < x.offset + l.bytes.length →
            Yields (.lineRecordAssemble ch) s
              (((a.modChan ch.val (fun r => { r with spill := some l })).completeRun ch.val x).chanNext ch.val 64))
        ((s.dev.chan ch.val).spill = none → s.dev.srcReady x.d.srcQ = false →
          Yields (.lineRecordAssemble ch) s (((s.dev.modChan ch.val (fun r => r.modRun x.seq (fun y => { y with running := false }))).chGo ch.val
            csChIdle).flushHeld ch.val x.seq false)) ∧
        (∀ l : LineRec, (s.dev.chan ch.val).spill = some l → fit (s.dev.modChan ch.val (fun r => { r with spill := none })) l) ∧
        (∀ l : LineRec, (s.dev.chan ch.val).spill = none → s.dev.srcReady x.d.srcQ = true →
          (s.dev.readRecord ch.val x.d.srcQ (s.dev.fill x.d.srcQ)).1 = some l →
          fit (s.dev.readRecord ch.val x.d.srcQ (s.dev.fill x.d.srcQ)).2 l)) ∧
      (∀ x : DescRun, s.dev.chLocal ch.val = true → (s.dev.chan ch.val).openRun = some x →
        Yields (.localDescriptorCopy ch) s (((((s.dev.copySlots x.d.srcQ x.d.addr x.d.dst x.d.length).modChan ch.val (fun r =>
          { (r.modRun x.seq (fun y => { y with complete := true, running := false, ended := some (stDone, 0, true) })) with
            chained := x.d.chain })).chGo ch.val csChIdle).finishAll ch.val).chanNext ch.val 64)))

/-- The claims `Claim.DwrrVisit` and `Claim.DescriptorPush` and `Claim.DmaChannels` together. -/
def Obligations.DmaTraffic : Prop := Claim.DwrrVisit ∧ Claim.DescriptorPush ∧ Claim.DmaChannels

/-! ### KMP -/

/-- A message that is for this device on an uplink that serves KMP, authentic and fresh: it is carried out after its sequence
number is marked, and its answer leaves by the same uplink. -/
def Served (_ : State) (u : Uplink) (m : KmpMsg) (x : State × Answer) : State :=
  { x.1 with dev := x.1.dev.kmpAnswer u.val m x.2 }

/-- R291–R296: requests for this device on an uplink that serves KMP. A HELLO without payload answers part code, stepping, chain address and the
nonces, unauthenticated. An authentic request with a fresh sequence number, which is marked, is carried out by its opcode, where its layout
is right: a burst reads or writes its words in address order (`readBurst`, `writeBurst`) and answers its address, the words completed, the
status, and what a read found; a chunk is appended to the image; SYNC with a position acts there; an acknowledgement retires its notice; an
opcode that the device does not receive answers OPCODE. Each answer leaves by the uplink of its request (`Served`). -/
def Obligations.KmpRequests : Prop :=
  ∀ (s : State) (u : Uplink) (m : KmpMsg), s.dev.kmpServed u.val = true → s.dev.kmpHere m = true →
    (m.opcode = 0x00#8 → m.length = 0 → m.payload = [] →
      exec (.kmpHello u m) s = .next (Served s u m
        (s, ksOk, [0x32#8, 0x72#8, 0xA2#8, BitVec.ofNat 8 s.dev.chainAddr] ++ (List.range 16).flatMap (fun p => s.dev.kmpNonce p)))) ∧
    (s.dev.kmpAuthentic m = true → s.dev.seqFresh m.part.toNat m.sequence.toNat = true →
      let t : State := { s with dev := s.dev.seqMark m.part.toNat m.sequence.toNat }
      let who := kmpWho m
      let addr := burstAddr m
      let count := burstCount m
      let read := fun (wide : Bool) (n : Nat) => let r := t.readBurst who wide n addr count
        Served s u m (r.1, r.2.2.2, burstHead addr r.2.2.1 ++ r.2.1)
      let write := fun (wide : Bool) (n : Nat) =>
        let r := t.writeBurst who wide n addr ((List.range count).map (fun i => le m.payload (16 + i * n) n))
        Served s u m (r.1, r.2.2, burstHead addr r.2.1)
      (m.opcode = 0x01#8 → burstOk m false false = true → exec (.kmpRead32 u m) s = .next (read false 4)) ∧
      (m.opcode = 0x02#8 → burstOk m true false = true → exec (.kmpRead64 u m) s = .next (read true 8)) ∧
      (m.opcode = 0x03#8 → burstOk m false true = true → exec (.kmpWrite32 u m) s = .next (write false 4)) ∧
      (m.opcode = 0x04#8 → burstOk m true true = true → exec (.kmpWrite64 u m) s = .next (write true 8)) ∧
      (m.opcode = 0x10#8 → m.length.toNat = m.payload.length → 9 ≤ m.payload.length → m.payload.length ≤ 1032 →
        let x := t.dev.appendImage m.part.toNat (le m.payload 0 4) (m.payload.drop 8)
        exec (.imageChunk u m) s = .next (Served s u m ({ t with dev := x.1 }, x.2, []))) ∧
      (m.opcode = 0x20#8 → m.length.toNat = m.payload.length → m.payload.length = 16 → le m.payload 0 1 ≤ 1 → le m.payload 1 1 = 1 →
        exec (.kmpSync u m) s = .next (Served s u m
          ({ t with dev := ((t.dev.marnSync.askedBy (some (m.part.toNat % 16))).syncAt (le m.payload 0 1)
            (toSigned 64 (le m.payload 8 8) * 2 ^ 32 * speedUnit)).askedBy none }, ksOk, []))) ∧
      (m.opcode = 0x31#8 → m.length.toNat = m.payload.length → m.payload.length = 8 →
        exec (.noticeAck u m) s = .next (Served s u m ({ t with dev := t.dev.noticeAcked m.part.toNat (le m.payload 0 4) }, ksOk, []))) ∧
      (servedOpcodes.contains m.opcode.toNat = false → exec (.kmpUnknownOpcode u m) s = .next (Served s u m (t, ksOpcode, []))))

/-- R293, R294: a message for this device whose tag fails changes nothing but auth_fail, and one whose sequence number is not fresh
nothing but replay: neither is answered. -/
def Obligations.KmpDiscards : Prop :=
  ∀ (s : State) (u : Uplink) (m : KmpMsg), s.dev.kmpServed u.val = true → s.dev.kmpHere m = true →
    (s.dev.kmpAuthentic m = false →
      (m.opcode = 0x02#8 → Yields (.kmpRead64 u m) s (s.dev.bump Reg.UPL_STAT2.auth_fail u.val)) ∧
      (m.opcode = 0x04#8 → Yields (.kmpWrite64 u m) s (s.dev.bump Reg.UPL_STAT2.auth_fail u.val)) ∧
      (m.opcode = 0x10#8 → Yields (.imageChunk u m) s (s.dev.bump Reg.UPL_STAT2.auth_fail u.val))) ∧
    (s.dev.kmpAuthentic m = true → s.dev.seqFresh m.part.toNat m.sequence.toNat = false →
      (m.opcode = 0x02#8 → Yields (.kmpRead64 u m) s (s.dev.bump Reg.UPL_STAT2.replay u.val)) ∧
      (m.opcode = 0x04#8 → Yields (.kmpWrite64 u m) s (s.dev.bump Reg.UPL_STAT2.replay u.val)) ∧
      (m.opcode = 0x10#8 → Yields (.imageChunk u m) s (s.dev.bump Reg.UPL_STAT2.replay u.val)))

/-- R297: a request for another device, on an uplink that serves KMP: one for another device of the row goes over the chain and is kept; one
for the other row is answered UNREACHABLE at once. The first copy of a relayed message reaches its destination: a response to a request
that is kept leaves by that request's uplink, where it is in RUN, to the address and port that the request came from, with relayed set,
and the request is kept no longer; one to no such request is dropped. A relayed request, where the stewards work and KMP is enabled, is
accepted or discarded as on an uplink (`relayAccept`), and the answer of one that is accepted goes back over the chain, with relayed set.
The request that is kept longest is answered UNREACHABLE, by its uplink where that is in RUN, once kmp_relay_timeout has passed. -/
def Obligations.KmpRelay : Prop :=
  ∀ (s : State),
    (∀ (u : Uplink) (m : KmpMsg), s.dev.kmpServed u.val = true → s.dev.kmpHere m = false → m.opcode = 0x02#8 →
      (m.destination.toNat / 64 = s.dev.fld Reg.FLK_CHAIN.row →
        let a := s.dev.ringSend chKmp (some m.destination.toNat) (.kmp m)
        Yields (.kmpRead64 u m) s { a with kmp := { s.dev.kmp with relays := s.dev.kmp.relays ++ [⟨u.val, m, s.dev.now⟩] } }) ∧
      (m.destination.toNat / 64 ≠ s.dev.fld Reg.FLK_CHAIN.row →
        Yields (.kmpRead64 u m) s (s.dev.kmpReply u.val m ksUnreachable []))) ∧
    (∀ (l : Link) (r : RingMsg) (m : KmpMsg), r.body = .kmp m → r.channel.val = chKmp → FirstCopy s.dev l r →
      s.dev.isOrigin r = false → s.dev.firstCopy r = none → s.dev.isDest r = true →
      let d := s.dev.ringIn l.val r (fun d => d)
      (m.flags.getLsbD 0 = true →
        let match_ := fun (x : Machine.KmpRelay) => x.msg.destination.toNat == r.origin.toNat && x.msg.sequence == m.sequence && x.msg.part == m.part &&
          x.msg.opcode == m.opcode
        (d.kmp.relays.find? match_ = none → Yields (.kmpRelayMessage l r) s d) ∧
        (∀ x, d.kmp.relays.find? match_ = some x →
          let a := { d with kmp := { d.kmp with relays := d.kmp.relays.filter (fun y => y != x) } }
          (a.uplinkUp x.uplink = true → Yields (.kmpRelayMessage l r) s
            (a.kmpSend x.uplink { m with flags := m.flags ||| 2, peerIp := x.msg.peerIp, peerPort := x.msg.peerPort })) ∧
          (a.uplinkUp x.uplink = false → Yields (.kmpRelayMessage l r) s a))) ∧
      (m.flags.getLsbD 0 = false →
        let t := ({ s with dev := d } : State).relayAccept m
        (d.stewardsRun = false ∨ d.flag Reg.UPL_KMP.enable = false → Yields (.kmpRelayMessage l r) s d) ∧
        (d.stewardsRun = true → d.flag Reg.UPL_KMP.enable = true →
          (t.2 = none → exec (.kmpRelayMessage l r) s = .next t.1) ∧
          (∀ a, t.2 = some a →
            let x := t.1.dev.kmpResponse { m with flags := m.flags ||| 2 } a.1 a.2
            exec (.kmpRelayMessage l r) s = .next { t.1 with dev := x.2.ringSend chKmp (some r.origin.toNat) (.kmp x.1) })))) ∧
    (∀ r rest, s.dev.kmp.relays = r :: rest →
      let a := s.dev.reach (r.since + s.dev.fld Reg.UPL_KMP.kmp_relay_timeout * Config.usPs)
      let b := { a with kmp := { a.kmp with relays := rest } }
      (b.uplinkUp r.uplink = true → Yields .kmpRelayTimeout s (b.kmpReply r.uplink r.msg ksUnreachable [])) ∧
      (b.uplinkUp r.uplink = false → Yields .kmpRelayTimeout s b))

/-! ### Flank links and the chain -/

/-- R318–R321: the training of a link that trains: frame headers of another device, in DETECT or DOWN, show the partner, keep its rates where the
headers carry them, and begin POLARITY; the settled polarity is kept for LANE_ORDER, a lane map that names each lane once, with the rates
common with the partner, for EQUALISE. An equalisation takes the partner's rates in: with no rate in common the attempt fails; with one,
ALIGN follows where it met its goal, and else the next rate (`nextRate`). The end of ALIGN clears the link, shows its lanes and rate with no
attempts and no back-off, and is RUN. The limit of a state before RUN fails the attempt, that of EQUALISE goes on to the next rate. The end
of the back-off of DOWN is DETECT. Leaving RUN counts, with its ALARM, cuts the seam copies in progress short, and starts the link again. -/
def Obligations.FlankTraining : Prop :=
  ∀ (s : State) (l : Link), s.dev.flkTrains l.val = true →
    (∀ (p : BitVec 7) (rates : Option (Fin 3 × Fin 3)), s.dev.flkState l.val = fsDetect ∨ s.dev.flkState l.val = fsDown →
      (s.dev.assigned = true → p.toNat ≠ s.dev.chainAddr) →
      Yields (.flankHeadersSeen l p rates) s ((((s.dev.setF Reg.FLK_STATUS.partner p.toNat l.val).modFlank l.val (fun r => { r with
        partner := rates.map (fun x => (x.1.val, x.2.val)) })).flkGo l.val fsPolarity).bootCheck s.fuses.uid)) ∧
    (∀ x : BitVec 4, s.dev.flkState l.val = fsPolarity →
      Yields (.flankPolaritySettled l x) s ((s.dev.modFlank l.val (fun r => { r with inverted := x.toNat })).flkGo l.val fsOrder)) ∧
    (∀ x : BitVec 8, s.dev.flkState l.val = fsOrder → distinctLanes x.toNat = true →
      Yields (.flankLaneOrderFound l x) s ((s.dev.modFlank l.val (fun r => { r with
        laneMap := x.toNat, rate := (s.dev.commonRates l.val r.partner).1, lowest := (s.dev.commonRates l.val r.partner).2 })).flkGo l.val
          fsEqualise)) ∧
    (∀ pmax pmin : Fin 3, s.dev.flkState l.val = fsEqualise →
      let a := s.dev.modFlank l.val (fun r => { r with
        rate := max r.rate pmax.val, lowest := (s.dev.commonRates l.val (some (pmax.val, pmin.val))).2 })
      ((a.flank l.val).rate ≤ (a.flank l.val).lowest →
        Yields (.flankEqualiseResult l true pmax pmin) s ((a.flkGo l.val fsAlign).bootCheck s.fuses.uid) ∧
        Yields (.flankEqualiseResult l false pmax pmin) s ((a.nextRate l.val).bootCheck s.fuses.uid)) ∧
      (∀ met, (a.flank l.val).lowest < (a.flank l.val).rate →
        Yields (.flankEqualiseResult l met pmax pmin) s ((a.flkFail l.val).bootCheck s.fuses.uid))) ∧
    (s.dev.flkState l.val = fsAlign →
      let r := s.dev.flank l.val
      let a := (((s.dev.flkClear l.val).setF Reg.FLK_LANES.inverted r.inverted l.val).setF Reg.FLK_LANES.lane_map r.laneMap l.val).setF
        Reg.FLK_LANES.reversed (if r.laneMap = 27 then 1 else 0) l.val
      Yields (.flankAligned l) s (((((a.setF Reg.FLK_LANES.rate r.rate l.val).setF Reg.FLK_STATUS.attempts 0 l.val).setF Reg.FLK_STATUS.backoff 0
        l.val).flkGo l.val fsRun).bootCheck s.fuses.uid)) ∧
    (let a := s.dev.reach ((s.dev.flank l.val).since + trainLimit (s.dev.flkState l.val))
     (s.dev.flkState l.val < fsRun → s.dev.flkState l.val ≠ fsEqualise →
       Yields (.flankStateTimeout l) s ((a.flkFail l.val).bootCheck s.fuses.uid)) ∧
     (s.dev.flkState l.val = fsEqualise → Yields (.flankStateTimeout l) s ((a.nextRate l.val).bootCheck s.fuses.uid))) ∧
    (∀ t, s.dev.flkState l.val = fsDown → (s.dev.flank l.val).waitUntil = some t →
      Yields (.flankBackoffEnd l) s ((s.dev.reach t).flkGo l.val fsDetect)) ∧
    (s.dev.flkState l.val = fsRun →
      Yields (.flankLeaveRun l) s ((((s.dev.countAnd Reg.FLK_STAT.run_exits l.val 0 2 10 l.val 0 0 0).seamCut l.val).flkStart
        l.val).bootCheck s.fuses.uid))

/-- R311, R312, R317: frames on a link in RUN. What waits, a seam copy read when nothing does, is sent while fewer than 64 frames are out;
else a frame that carries nothing is sent (`flkEmit`). An acknowledgement frees the frames up to its own; a NAK does so too, and sends the
rest again (`retransmit`), as does the acknowledgement timeout with frames out. A frame out of sequence asks for the one expected, a reserved
one counts, and one whose CRC fails does both; more than 1,024 of these within 1 ms leave RUN. A seam copy in a frame in sequence, for an
enabled queue: where a copy was dropped, what still belongs to it is dropped with it, as is what continues a line of which the queue holds
none; any other is written to its receive queue where that is live, does not wait and has room for all of it; one that does not fit is
discarded whole, and counted. -/
def Obligations.FlankFrames : Prop :=
  ∀ (s : State) (l : Link), s.dev.flkState l.val = fsRun →
    (let a := if (s.dev.flank l.val).waiting.isEmpty then s.dev.seamRead l.val else s.dev
     (∀ x rest, pickLoad (a.flank l.val).waiting = some (x, rest) → (a.flank l.val).unacked.length < 64 →
       Yields (.flankFrameSend l) s (a.sendLoad l.val x rest)) ∧
     (pickLoad (a.flank l.val).waiting = none ∨ 64 ≤ (a.flank l.val).unacked.length →
       Yields (.flankFrameSend l) s (a.flkEmit l.val 1 0 .lost))) ∧
    (∀ a : BitVec 8,
      let freed := s.dev.modFlank l.val (fun r => { r with
        unacked := (r.unacked.dropWhile (fun f => f.1 != a.toNat)).drop 1, retries := 0, sentAt := s.dev.now })
      ((s.dev.flank l.val).unacked.any (fun f => f.1 == a.toNat) = true →
        Yields (.flankAckFrame l a) s freed ∧
        Yields (.flankNakFrame l a) s ((freed.retransmit l.val).bootCheck s.fuses.uid)) ∧
      ((s.dev.flank l.val).unacked.any (fun f => f.1 == a.toNat) = false →
        Yields (.flankAckFrame l a) s s.dev ∧
        Yields (.flankNakFrame l a) s ((s.dev.retransmit l.val).bootCheck s.fuses.uid))) ∧
    Yields (.flankFrameDiscard l .outOfSequence) s ((s.dev.sendNak l.val).bootCheck s.fuses.uid) ∧
    Yields (.flankFrameDiscard l .reserved) s ((s.dev.bump Reg.FLK_STAT.crc_fail l.val).bootCheck s.fuses.uid) ∧
    (let a := ((s.dev.bump Reg.FLK_STAT.crc_fail l.val).sendNak l.val).modFlank l.val (fun r => { r with
       fails := s.dev.now :: r.fails.filter (fun t => decide (s.dev.now < t + Config.msPs)) })
     ((a.flank l.val).fails.length ≤ 1024 → Yields (.flankFrameDiscard l .crc) s (a.bootCheck s.fuses.uid)) ∧
     (1024 < (a.flank l.val).fails.length → Yields (.flankFrameDiscard l .crc) s ((a.flkLeave l.val).bootCheck s.fuses.uid))) ∧
    ((s.dev.flank l.val).unacked ≠ [] →
      Yields (.flankAckTimeout l) s (((s.dev.reach ((s.dev.flank l.val).sentAt + s.dev.fld Reg.FLK_CTRL.ack_timeout l.val * Config.nsPs)).retransmit
        l.val).bootCheck s.fuses.uid)) ∧
    (∀ (k : Fin 16) (cells : List Cell) (f : Option FrameSeq), InSequence s.dev l f →
      let a := accepted s.dev l f
      let q := a.fld Reg.FLK_SEAM.rx_q l.val k.val
      let lost := (a.flank l.val).dropped.contains k.val || (continues cells && (a.queue q).openTag.isNone)
      a.fld Reg.FLK_SEAM.rx_en l.val k.val ≠ 0 →
      (lost = true → Yields (.seamCopyReceive l k cells f) s (a.seamDrops l.val k.val cells)) ∧
      (lost = false →
        (a.qLive q = true → a.qWaits 64 q = false → a.occ q + cells.length ≤ a.qSize q →
          Yields (.seamCopyReceive l k cells f) s (a.qWriteAll q cells)) ∧
        (a.qLive q = false ∨ a.qWaits 64 q = true ∨ a.qSize q < a.occ q + cells.length →
          Yields (.seamCopyReceive l k cells f) s (((a.qDiscard 64 q).bump Reg.FLK_STAT2.seam_rx_drops l.val).seamDrops l.val k.val cells))))

/-- R325–R328: enumeration and presence. A message of it, in a frame in sequence, is answered by a root (`enumRoot`) and passed on by a
follower (`enumFollow`); the root's end of it, its first copy, is recorded (`chainDone`). A follower that waits for it in start-up, with its links
settled, times out without root. A root starts it on renumber, on force_renumber unless run is set, which is refused with a LOG event, and on
a join while none runs. A device with a position sends its presence a millisecond after the last, and counts as heard itself; one that is
heard is marked present; one not heard for 10 ms is not. A device without position, with a link in RUN, asks to join 100 ms after it last did. -/
def Obligations.ChainEnumeration : Prop :=
  ∀ (s : State),
    (∀ (l : Link) (m : RingMsg) row uid map onFl ret forced reserved, InSequence s.dev l m.frame →
      m.body = .enumerate row uid map onFl ret forced reserved →
      let a := accepted s.dev l m.frame
      (a.straps.root = false →
        Yields (.enumerateMessage l m) s ((a.enumFollow l.val m row uid map onFl ret forced reserved).bootCheck s.fuses.uid)) ∧
      (a.straps.root = true →
        Yields (.enumerateMessage l m) s ((a.enumRoot l.val s.fuses.uid m row uid map onFl ret forced reserved).bootCheck s.fuses.uid))) ∧
    (∀ (l : Link) (m : RingMsg) count map closed, FirstCopy s.dev l m → m.body = .chainDone count map closed → m.broadcast = true →
      Yields (.chainDoneMessage l m) s (((heardFirst s.dev l m).chainDone count.toNat map closed).bootCheck s.fuses.uid)) ∧
    (∀ t, s.dev.chain.settledAt = some t → s.dev.straps.root = false → s.dev.bootState = bsEnumerate →
      s.dev.fld Reg.FLK_CHAIN.enum_state = esIdle →
      Yields .enumTimeout s ((s.dev.reach (t + s.dev.fld Reg.FLK_CHAIN.enum_timeout * Config.msPs)).enumFail esNoRoot)) ∧
    (s.dev.straps.root = true →
      let a := fun (forced : Bool) => ({ s.dev with chain := { s.dev.chain with asked := some forced } } : Dev)
      Yields .renumber s (((a false).enumStart s.fuses.uid false).bootCheck s.fuses.uid) ∧
      (s.dev.flag Reg.MARN_CTRL.run = false →
        Yields .forceRenumber s (((a true).enumStart s.fuses.uid true).bootCheck s.fuses.uid)) ∧
      (s.dev.flag Reg.MARN_CTRL.run = true →
        Yields .forceRenumber s ((s.dev.log 10 2 0 (Reg.FLK_CHAIN.force_renumber.addr 0 0 0)).bootCheck s.fuses.uid))) ∧
    (s.dev.assigned = true →
      let a := s.dev.reach (s.dev.chain.presenceAt + Config.msPs)
      Yields .presenceSend s ((({ a with chain := { a.chain with presenceAt := a.now } }).ringSend chEnum none .presence).hear
        (a.fld Reg.FLK_CHAIN.position))) ∧
    (∀ (l : Link) (m : RingMsg), FirstCopy s.dev l m → m.broadcast = true →
      Yields (.presenceMessage l m) s ((heardFirst s.dev l m).hear (m.origin.toNat % 64))) ∧
    (∀ (p : Fin 64) (t : Nat), Sparse.find p.val s.dev.chain.heard = some t →
      let a := s.dev.reach (t + 10 * Config.msPs)
      let b := a.setF Reg.FLK_CHAIN_MAP.present (a.fld Reg.FLK_CHAIN_MAP.present &&& (2 ^ 64 - 1 - 2 ^ p.val))
      Yields (.deviceAbsent p) s ({ b with chain := { b.chain with heard := Sparse.erase p.val b.chain.heard } }).checkLength) ∧
    (s.dev.assigned = false → s.dev.flkUp 0 = true ∨ s.dev.flkUp 1 = true →
      let a := s.dev.reach (s.dev.chain.joinAt + 100 * Config.msPs)
      Yields .joinSend s (({ a with chain := { a.chain with joinAt := a.now } }).ringSend chEnum none .join)) ∧
    (∀ (l : Link) (m : RingMsg), FirstCopy s.dev l m → m.broadcast = true → (heardFirst s.dev l m).straps.root = true →
      (heardFirst s.dev l m).fld Reg.FLK_CHAIN.enum_state ≠ esRunning →
      Yields (.joinMessage l m) s (((heardFirst s.dev l m).enumStart s.fuses.uid false).bootCheck s.fuses.uid))

/-- R323, R329, R389–R391: twins. A device with a position sends a beacon a millisecond after the last, and shows its own state in the map; the
first copy of a device's beacon shows that device's. With twin_en, and the twin not yet LOST, silence for twin_timeout shows LOST, with an ALARM
and a notice, and each port that listens begins to wait for its control bus. A device with an uplink in RUN sends on an event record that it
hears for the first time from another. With twin_en: digests that wait leave up to 67 at a time, at once when there are 67 and else
twin_batch after the oldest; a heartbeat leaves 1 ms after the last message. A digest message that is not authentic, or not P0's, counts as
auth_fail, a replayed one as replay, at the uplink that `twinUplink` names; one from a device that is not the twin raises an ALARM; from
the twin a well-formed one is heard, and its entries are matched in order, and an ill-formed one is answered LENGTH. At the end of
twin_window the entries that are that old are dropped and counted as unmatched. -/
def Obligations.TwinTraffic : Prop :=
  ∀ (s : State),
    (s.dev.assigned = true →
      let a := s.dev.reach (s.dev.chain.beaconAt + Config.msPs)
      let live := a.fld Reg.FLK_TWIN.twin_state == twLive
      Yields .twinBeaconSend s (({ a with chain := { a.chain with beaconAt := a.now } }.ringSend chTwin none (.twinBeacon live)).twinMapSet
        (a.fld Reg.FLK_CHAIN.position) live)) ∧
    (∀ (l : Link) (m : RingMsg) (live : Bool), FirstCopy s.dev l m → m.body = .twinBeacon live → m.broadcast = true →
      Yields (.twinBeacon l m) s ((heardFirst s.dev l m).twinMapSet (m.origin.toNat % 64) live)) ∧
    (s.dev.flag Reg.FLK_TWIN.twin_en = true → s.dev.fld Reg.FLK_TWIN.twin_state ≠ twLost →
      Yields .twinLost s ((List.range 32).foldl
        (fun d n => if d.cciActive n then d else d.modCci n (fun r => { r with activeWait := some d.now }))
        ((((s.dev.reach (s.dev.twin.heardAt + s.dev.fld Reg.FLK_TWIN.twin_timeout * Config.msPs)).setF
          Reg.FLK_TWIN.twin_state twLost).alarmAt Reg.FLK_TWIN.twin_state 0 0 10 6 2 0).notice 0 12 0))) ∧
    (∀ (l : Link) (m : RingMsg), InSequence s.dev l m.frame → s.dev.uplinkUp 0 = true ∨ s.dev.uplinkUp 1 = true →
      s.dev.isOrigin m = false → (accepted s.dev l m.frame).firstCopy m = none →
      Yields (.eventRelayMessage l m) s (((accepted s.dev l m.frame).keepCopy m).relaySend m.body)) ∧
    (∀ (d : Digest) (rest : List Digest), s.dev.flag Reg.FLK_TWIN.twin_en = true → s.dev.twin.unsent = d :: rest →
      let a := if 67 ≤ (d :: rest).length then s.dev else s.dev.reach (d.at_ + s.dev.fld Reg.INTG_CTRL.twin_batch * Config.usPs)
      Yields .twinDigestSend s ({ a with twin := { a.twin with unsent := (d :: rest).drop 67 } }.twinSend ((d :: rest).take 67))) ∧
    (s.dev.flag Reg.FLK_TWIN.twin_en = true →
      Yields .twinHeartbeat s ((s.dev.reach (s.dev.twin.sentAt + Config.msPs)).twinSend [])) ∧
    (∀ (src : BitVec 7) (m : KmpMsg), s.dev.flag Reg.FLK_TWIN.twin_en = true → m.opcode = 0x40#8 →
      let u := s.dev.twinUplink
      let a := s.dev.seqMark twinWindow m.sequence.toNat
      (s.dev.kmpAuthentic m = false ∨ m.part ≠ 0 → Yields (.twinDigest src m) s (u.2.bump Reg.UPL_STAT2.auth_fail u.1)) ∧
      (s.dev.kmpAuthentic m = true → m.part = 0 →
        (s.dev.seqFresh twinWindow m.sequence.toNat = false → Yields (.twinDigest src m) s (u.2.bump Reg.UPL_STAT2.replay u.1)) ∧
        (s.dev.seqFresh twinWindow m.sequence.toNat = true →
          (src.toNat ≠ s.dev.twinAddr → Yields (.twinDigest src m) s (a.alarm 10 5 2 0)) ∧
          (src.toNat = s.dev.twinAddr →
            (∀ ds, twinEntries a.now m.payload = some ds → Yields (.twinDigest src m) s (ds.foldl (fun d t => d.twinDigestIn t) a.twinHeard)) ∧
            (twinEntries a.now m.payload = none → Yields (.twinDigest src m) s
              ((u.2.seqMark twinWindow m.sequence.toNat).kmpReply u.1 m ksLength [])))))) ∧
    (∀ t, ((s.dev.twin.own ++ s.dev.twin.theirs).map (fun d => d.at_)).min? = some t →
      let w := s.dev.fld Reg.INTG_CTRL.twin_window * Config.msPs
      let a := s.dev.reach (t + w)
      let stays := fun (d : Digest) => decide (a.now < d.at_ + w)
      let own := s.dev.twin.own.filter stays
      let theirs := s.dev.twin.theirs.filter stays
      Yields .digestEntryExpire s ({ a with twin := { a.twin with own := own, theirs := theirs } }.bump Reg.INTG_TWIN_STAT.unmatched 0 0 0
        ((s.dev.twin.own ++ s.dev.twin.theirs).length - (own ++ theirs).length)))

/-! ### Time -/

/-- R334–R346: PTP. A message that an uplink accepts (`ptpOk`, `ptpUplink`): a Sync of its master, within the rate that is taken, and a Follow_Up of
its master are taken and relayed along the chain (`rootRelay`); one beyond that rate is counted; an Announce is taken, and relayed where its
sender is then the master; a Delay_Resp for this device's port is taken, and one for port 3 of a device that asked through this one is
relayed. A message that is not accepted, and one that PTP_DISCARD names, is counted. A request leaves for the source in use, not before it is due:
by the uplink with its egress time, or by the chain. A master silent for its announce timeout is counted and dropped, the best of the others
heard becomes master, and the source is chosen again. A frame of the chain in sequence is served by a root (`timeRoot`) and passed on or acted
on by a follower (`timeFollow`); the silence of the time port for a second drops the hop counts of that port. A change of the source is shown
with a LOG event and begins measuring anew: without a source LOCKED becomes HOLDOVER, with one FREE becomes ACQUIRE. On a root with none
pending a re-step claims the next boundary, or, without a grid, is announced and steps at once; any other request is ignored with a LOG event. An
announcement of one, its first copy, claims its boundary or steps at once. What waits for a boundary is applied when the position reaches it. The
wait of start-up for LOCKED ends with an ALARM, in the next state. -/
def Obligations.TimeTransfer : Prop :=
  ∀ (s : State),
    (∀ (port : PtpPort) (m : PtpMsg), port ≠ .chain →
      let u := ptpNum port
      (s.dev.ptpOk m = true → s.dev.ptpUplink u m = true →
        (s.dev.fromMaster u m = true →
          (s.dev.syncTooFast u = false → Yields (.ptpSync port m) s ((s.dev.takeSync u u m).rootRelay u .sync m)) ∧
          (s.dev.syncTooFast u = true → Yields (.ptpSync port m) s (s.dev.bump Reg.TIME_STAT2.rx_discard)) ∧
          Yields (.ptpFollowUp port m) s ((s.dev.takeFollowUp u m).rootRelay u .followUp m)) ∧
        (let a := s.dev.takeAnnounce u m
         (a.fromMaster u m = true → Yields (.ptpAnnounce port m) s (a.rootRelay u .announce m)) ∧
         (a.fromMaster u m = false → Yields (.ptpAnnounce port m) s a)) ∧
        (m.requester = s.fuses.uid → m.requesterPort.toNat = u + 1 →
          Yields (.ptpDelayResp port m) s ((s.dev.takeDelayResp u m).bootCheck s.fuses.uid)) ∧
        (m.requester ≠ s.fuses.uid → m.requesterPort = 3 → s.dev.time.askers.contains m.requester = true →
          Yields (.ptpDelayResp port m) s ((s.dev.rootRelay u .delayResp m).bootCheck s.fuses.uid))) ∧
      (s.dev.ptpOk m = false ∨ s.dev.ptpUplink u m = false →
        let a := s.dev.bump Reg.TIME_STAT2.rx_discard
        Yields (.ptpSync port m) s a ∧ Yields (.ptpFollowUp port m) s a ∧ Yields (.ptpAnnounce port m) s a ∧
        Yields (.ptpDelayResp port m) s (a.bootCheck s.fuses.uid))) ∧
    (∀ p, Yields (.ptpDiscard p) s (s.dev.bump Reg.TIME_STAT2.rx_discard)) ∧
    (∀ src, s.dev.fld Reg.TIME_STATUS.source = src + 1 →
      let d := s.dev.reach (s.dev.delayDue src)
      let seq := d.time.reqSeq % 65536
      (src ≠ 2 → Yields .delayReqSend s ((d.modTime (fun t => { t with
        reqSeq := t.reqSeq + 1, reqAt := some (src, d.now), req := some ⟨src, seq, some (d.tEgress src)⟩ })).ptpPut src .delayReq
          (d.delayMsg s.fuses.uid (src + 1) seq))) ∧
      (src = 2 →
        let a := d.modTime (fun t => { t with reqSeq := t.reqSeq + 1, reqAt := some (2, d.now), req := some ⟨2, seq, none⟩ })
        Yields .delayReqSend s (a.timeQueue a.timePort true 0 .delayReq (d.delayMsg s.fuses.uid 3 seq) none))) ∧
    (∀ (u : Uplink) (m : Master), Sparse.find u.val s.dev.time.masters = some m →
      let a := (s.dev.reach (m.heardAt + s.dev.fld Reg.TIME_CFG.announce_timeout * m.interval)).bump Reg.TIME_STAT2.announce_timeouts
      Yields (.announceTimeout u) s ((((a.setHeard u.val m.clock none).modTime (fun t => { t with
        masters := Sparse.erase u.val t.masters })).chooseMaster u.val).selectSource)) ∧
    (∀ (l : Link) (f : TimeFrame), InSequence s.dev l f.frame →
      let a := accepted s.dev l f.frame
      (a.straps.root = false → Yields (.timeFrame l f) s ((a.timeFollow l.val s.fuses.uid f).bootCheck s.fuses.uid)) ∧
      (a.straps.root = true → Yields (.timeFrame l f) s ((a.timeRoot l.val f).bootCheck s.fuses.uid))) ∧
    (∀ e, (s.dev.time.hops.filter (fun e => e.1 == s.dev.timePort)).getLast? = some e →
      Yields .timePortTimeout s ((s.dev.reach (e.2.2 + Config.secPs)).modTime (fun t => { t with
        hops := t.hops.filter (fun x => x.1 != s.dev.timePort) }))) ∧
    (let src := s.dev.pickSource
     let b := (((s.dev.setF Reg.TIME_STATUS.source src).showGm).logAt Reg.TIME_STATUS.source 0 0 11 0 0).modTime (fun t => { t with
       req := none, path := none, anew := true })
     (src = s.dev.fld Reg.TIME_STATUS.source → Yields .timeSourceSelect s s.dev) ∧
     (src ≠ s.dev.fld Reg.TIME_STATUS.source → src = 0 → b.timeState = tsLocked → Yields .timeSourceSelect s b.holdover) ∧
     (src ≠ s.dev.fld Reg.TIME_STATUS.source → src ≠ 0 → b.timeState = tsFree → Yields .timeSourceSelect s (b.timeGo tsAcquire)) ∧
     (src ≠ s.dev.fld Reg.TIME_STATUS.source → (src = 0 → b.timeState ≠ tsLocked) → (src ≠ 0 → b.timeState ≠ tsFree) →
       Yields .timeSourceSelect s b)) ∧
    (s.dev.straps.root = true → s.dev.flag Reg.TIME_STATUS.restep_pending = false →
      let a := s.dev.setF Reg.TIME_STATUS.restep_pending 1
      (s.dev.marn.rootGrid = true →
        Yields .restepRequest s ({ a with marn := { s.dev.marn with claimRestep := true } }.announceNext)) ∧
      (s.dev.marn.rootGrid = false → Yields .restepRequest s ((a.ringSend chEnum none (.restepAnnounce true 0)).restep none))) ∧
    (s.dev.straps.root = false ∨ s.dev.flag Reg.TIME_STATUS.restep_pending = true →
      Yields .restepRequest s (s.dev.log 11 0 0 (Reg.TIME_CTRL.restep.addr 0 0 0))) ∧
    (∀ (l : Link) (m : RingMsg) (idle : Bool) (b : BitVec 48), FirstCopy s.dev l m → m.body = .restepAnnounce idle b → m.broadcast = true →
      (idle = false → Yields (.restepAnnouncement l m) s (((heardFirst s.dev l m).setF Reg.TIME_STATUS.restep_pending 1).modTime (fun t => { t with
        claim := some b.toNat }))) ∧
      (idle = true → Yields (.restepAnnouncement l m) s ((heardFirst s.dev l m).restep none))) ∧
    (∀ (b : Nat) (t : Int), s.dev.time.firstAt.orElse (fun _ => s.dev.time.claim) = some b → s.dev.crossing (s.dev.linePos b) = some t →
      Yields .restepApply s (((s.dev.reach t.toNat).marnSync).stepAtBound b)) ∧
    (s.dev.bootState = bsTime → s.dev.timeState ≠ tsLocked →
      Yields .timeWaitTimeout s ((((s.dev.reach (s.dev.start.at_ + s.dev.fld Reg.TIME_CFG.time_wait * Config.msPs)).alarm 11 3 0
        0).bootEnter s.fuses.uid bsImage).bootCheck s.fuses.uid))

/-! ### Partitions, notices and resets -/

/-- R369–R372, R445: a partition in RUN drains: its ports and Abacus units drain, and its state is DRAINING; a drain of one that aborts or has
stopped, and an abort of such a one, is ignored with a LOG event. One in RUN or DRAINING aborts (`abortNow`), cause PARTITION_ABORT; one
that is STOPPED restarts at the next boundary. A drain that lasts drain_timeout counts and becomes an abort, cause DRAIN_TIMEOUT. A partition
that aborts is STOPPED once it is settled; one that drains, once it has no item open, its runs are closed and it is settled. The Tumbler
aborts each partition of a mask (`tmbAbort`); one that then aborts has 1 ms from there; after it the device is reset. -/
def Obligations.PartitionStates : Prop :=
  ∀ (s : State) (p : Part),
    (s.dev.fld Reg.PART_CTRL.state p.val = psRun →
      let a := (s.dev.partPorts p.val).foldl (fun d n => d.drainPort n) s.dev
      let b := (s.dev.partAbas p.val).foldl (fun d u => d.abaDrain u) a
      Yields (.partitionDrain p) s (((b.setF Reg.PART_CTRL.state psDraining p.val).setF Reg.PART_CTRL.drain 1 p.val).setPart p.val
        { b.part p.val with cause := 0, since := b.now })) ∧
    (s.dev.fld Reg.PART_CTRL.state p.val = psAborting ∨ s.dev.fld Reg.PART_CTRL.state p.val = psStopped →
      Yields (.partitionDrain p) s (s.dev.log 12 p.val p.val (Reg.PART_CTRL.state.addr p.val 0 0)) ∧
      Yields (.partitionAbort p) s (s.dev.log 12 p.val p.val (Reg.PART_CTRL.state.addr p.val 0 0))) ∧
    (s.dev.fld Reg.PART_CTRL.state p.val ≠ psAborting → s.dev.fld Reg.PART_CTRL.state p.val ≠ psStopped →
      Yields (.partitionAbort p) s ((s.dev.setF Reg.PART_CTRL.abort 1 p.val).abortNow p.val caPartAbort)) ∧
    (s.dev.fld Reg.PART_CTRL.state p.val = psStopped →
      Yields (.partitionResume p) s (s.dev.restartPart p.val (s.dev.nextBound.map (fun b => b.block)))) ∧
    (s.dev.fld Reg.PART_CTRL.state p.val = psDraining →
      Yields (.drainTimeout p) s (((s.dev.reach ((s.dev.part p.val).since + s.dev.fld Reg.PART_CTRL.drain_timeout p.val * Config.msPs)).bump
        Reg.PART_STAT2.drain_timeouts p.val).abortNow p.val caDrainTimeout)) ∧
    (s.dev.fld Reg.PART_CTRL.state p.val = psAborting → s.dev.settled p.val = true →
      Yields (.partitionStopped p) s (s.dev.stopped p.val Reg.PART_STAT.aborts)) ∧
    (let a := (s.dev.partQueues p.val).foldl (fun d q => d.closeRuns q (fun _ => true)) s.dev
     s.dev.fld Reg.PART_CTRL.state p.val = psDraining → s.dev.itemsOpen p.val = false → a.settled p.val = true →
      Yields (.partitionStopped p) s (a.stopped p.val Reg.PART_STAT.drains)) ∧
    (∀ mask : BitVec 16, Yields (.tmbPartitionAbort mask) s (((List.range 16).filter mask.getLsbD).foldl (fun d p => d.tmbAbort p) s.dev)) ∧
    ((s.dev.partAbort p.val caPartAbort).fld Reg.PART_CTRL.state p.val = psAborting →
      ((s.dev.partAbort p.val caPartAbort).part p.val).tmbSince = none →
      Yields (.tmbPartitionAbort (BitVec.ofNat 16 (2 ^ p.val))) s ((s.dev.partAbort p.val caPartAbort).setPart p.val
        { (s.dev.partAbort p.val caPartAbort).part p.val with tmbSince := some s.dev.now })) ∧
    (∀ t, (s.dev.part p.val).tmbSince = some t →
      Yields (.tmbAbortTimeout p) s ((s.dev.reach (t + Config.msPs)).warmReset 2 true .free))

/-- R355–R358, R365: notices. The first of those that may be sent leaves at the instant from which one may be, which is kept as its cause's last;
one without acknowledgement is counted and sent again retry after it was sent, not before the uplink allows it. An acknowledgement takes the
notice with its id away, or the overflow notice with its counts. The completion writer writes what it holds while its queue has space; with
at most 64 records left it stalls no longer. -/
def Claim.Notices : Prop :=
  ∀ (s : State) (p : Part),
    (∀ (t u : Nat) (n : Notice), s.dev.noticesOn p.val = true → ((s.dev.unsentNotices p.val).map (s.dev.sendableAt p.val)).min? = some t →
      s.dev.sendAllowedAt p.val = some u →
      let a := s.dev.reach (max t u)
      firstNotice ((a.unsentNotices p.val).filter (fun n => decide (a.sendableAt p.val n ≤ a.now))) = some n →
      let b := a.sendNotice p.val n
      Yields (.noticeSend p) s (b.setPart p.val { b.part p.val with lastSend := Sparse.insert n.cause b.now (b.part p.val).lastSend })) ∧
    (∀ (id : BitVec 32) (n : Notice) (t u : Nat), s.dev.noticesOn p.val = true → s.dev.noticeById p.val id.toNat = some n →
      n.sentAt = some t → s.dev.sendAllowedAt p.val = some u →
      Yields (.noticeRetry p id) s (((s.dev.reach (max (t + s.dev.fld Reg.PART_NOTICE_CFG.retry p.val * Config.msPs) u)).bump
        Reg.PART_NOTICE_STAT2.retries p.val).sendNotice p.val n)) ∧
    (∀ id : BitVec 32, (s.dev.part p.val).notices.any (fun n => n.id == id.toNat) = true →
      Yields (.noticeAckWrite p id) s ((s.dev.setPart p.val { s.dev.part p.val with
        notices := (s.dev.part p.val).notices.filter (fun n => n.id != id.toNat) }).syncNotices p.val)) ∧
    (∀ id : BitVec 32, (s.dev.part p.val).notices.any (fun n => n.id == id.toNat) = false →
      (s.dev.part p.val).overNote.any (fun n => n.id == id.toNat) = true →
      Yields (.noticeAckWrite p id) s ((s.dev.setPart p.val { s.dev.part p.val with overNote := none, overflow := [0, 0, 0, 0] }).syncNotices p.val)) ∧
    (let a := s.dev.drainBuffer p.val (s.dev.part p.val).buffer.length
     ((a.part p.val).buffer.length ≤ 64 →
       Yields (.completionWriterResume p) s (a.setPart p.val { a.part p.val with stalled := false })) ∧
     (64 < (a.part p.val).buffer.length → Yields (.completionWriterResume p) s a))

/-- R365: while the completion writer of a partition stalls, a turn of one of its units, conjunctions, collectors or channels that would end
an item does not take place. -/
def Claim.StalledTurnsWait : Prop :=
  ∀ (s : State),
    let waits := fun (p : Nat) (d : Dev) => (s.dev.part p).stalled = true ∧ s.dev.endsItem d p = true
    (∀ t mm errs pages,
      (waits (s.dev.tileOwner t.val) (s.dev.tileTurn t.val false mm errs pages) → Yields (.tileLine t mm errs pages) s s.dev) ∧
      (waits (s.dev.tileOwner t.val) (s.dev.tileTurn t.val true mm errs pages) → Yields (.understudyReplay t mm errs pages) s s.dev)) ∧
    (∀ u, waits (s.dev.kalOwner u.val) (s.dev.kalCopy u.val) → Yields (.kalInputCopy u) s s.dev) ∧
    (∀ u c m errs, waits (s.dev.kalOwner u.val) (s.dev.kalEmit u.val c.val m.val errs) → Yields (.kalSetEmit u c m errs) s s.dev) ∧
    (∀ u st, waits (s.dev.pgrOwner u.val) (s.dev.pgrCopy u.val st.val) → Yields (.pgrInputCopy u st) s s.dev) ∧
    (∀ u st m errs, waits (s.dev.pgrOwner u.val) (s.dev.pgrEmit u.val st.val m.val errs) → Yields (.pgrOutputEmit u st m errs) s s.dev) ∧
    (∀ j m errs, waits (s.dev.jigOwner j.val) (s.dev.roundReady j.val m.val errs) → Yields (.roundReady j m errs) s s.dev) ∧
    (∀ a m errs, waits (s.dev.abaOwner a.val) (s.dev.abaTurn a.val m.val errs) → Yields (.abacusLine a m errs) s s.dev) ∧
    (∀ j, (waits (s.dev.jigOwner j.val) (s.dev.roundOpen j.val) → Yields (.roundOpen j) s s.dev) ∧
      (waits (s.dev.jigOwner j.val) (s.dev.seamDeadline j.val) → Yields (.seamDeadline j) s s.dev)) ∧
    (∀ j, let p := (s.dev.colCfg j.val).fld Reg.JIG_CTRL.owner j.val
      (waits p (s.dev.colTurn j.val) → Yields (.collectorRound j) s s.dev) ∧
      (waits p (s.dev.colDeadline j.val) → Yields (.collectorDeadline j) s s.dev) ∧
      (waits p (s.dev.blockDeadline j.val) → Yields (.blockDeadline j) s s.dev)) ∧
    (∀ c, let p := (s.dev.cfg 0 (0x8000 + c.val)).fld Reg.QFAB_CONJ_CFG.owner c.val
      (waits p (s.dev.conjTurn c.val) → Yields (.conjunctionSelect c) s s.dev) ∧
      (waits p (s.dev.conjTimeout c.val) → Yields (.conjunctionRoundTimeout c) s s.dev)) ∧
    (∀ ch, waits (s.dev.chOwner ch.val) (s.dev.chanNext ch.val 64) → Yields (.channelReady ch) s s.dev) ∧
    (∀ ch, waits (s.dev.chOwner ch.val) (s.dev.assemble ch.val) → Yields (.lineRecordAssemble ch) s s.dev) ∧
    (∀ ch, waits (s.dev.chOwner ch.val) (s.dev.localCopy ch.val) → Yields (.localDescriptorCopy ch) s s.dev)

/-- The claims `Claim.Notices` and `Claim.StalledTurnsWait` together. -/
def Obligations.NoticesAndStalls : Prop := Claim.Notices ∧ Claim.StalledTurnsWait

/-- R9, R368, R374, R445: resets. A warm reset that a write requests with the confirmation 0xC5, while none flushes, aborts every enabled
partition that is not STOPPED, cause WARM_RESET, and flushes from now; while one flushes it does nothing more. A request without the
confirmation is ignored with a LOG event. The flush ends warm_flush ms after it began, with the device reset (`warmReset`). A cold reset with the
confirmation leaves the fuses and the waiting commands, and starts the device from its state at power-up with the strap pins, the presence of
the serial supplies and the references as they are (the count of free values drawn goes on, which is the model's own field): queue memory reads
zero, no queue holds anything, no island is halted, and, unless the fuse opens it, the debug port is locked. -/
def Obligations.DeviceResets : Prop :=
  ∀ (s : State),
    (let a := ((List.range 16).filter (fun p => s.dev.flag Reg.PART_CTRL.enable p)).foldl (fun d p =>
       if d.fld Reg.PART_CTRL.state p = psStopped then d else d.abortNow p caWarmReset) s.dev
     s.dev.start.flushFrom = none →
      Yields (.warmResetRequest 0xC5#8) s { a with start := { a.start with flushFrom := some s.dev.now } }) ∧
    (s.dev.start.flushFrom.isSome = true → Yields (.warmResetRequest 0xC5#8) s s.dev) ∧
    (∀ b : Byte, b ≠ 0xC5#8 → Yields (.warmResetRequest b) s (s.dev.log 15 0 0 (Reg.TMB_RESET.warm.addr 0 0 0)) ∧
      Yields (.coldResetRequest b) s (s.dev.log 15 0 0 (Reg.TMB_RESET.warm.addr 0 0 0))) ∧
    (∀ t, s.dev.start.flushFrom = some t →
      Yields .warmFlushEnd s ((s.dev.reach (t + s.dev.fld Reg.PART_GLOBAL.warm_flush * Config.msPs)).warmReset 1 false .free)) ∧
    (let up : Dev := (({ Dev.init with
       free := s.dev.free + 16, kmp := { KmpRec.init with nonceBase := s.dev.free }, strapPins := s.dev.strapPins
       start := { StartRec.init with vser := s.dev.start.vser } } : Dev).refFields).powerOnRepeater
     (s.fuses.debugOpen = false → Yields (.coldResetRequest 0xC5#8) s up) ∧
     (s.fuses.debugOpen = true → Yields (.coldResetRequest 0xC5#8) s
       ((up.setF Reg.DBG_STATUS.unlocked 1).alarmAt Reg.DBG_STATUS.unlocked 0 0 15 6 0 0)) ∧
     up.mem = [] ∧ up.queues = [] ∧ up.halted = [] ∧ up.dbgOpen = false)

/-! ### Integrity and events -/

/-- R376–R379: the scrubber reads the slot after the last, scrub_period after it, and finds what the command says its check bits hold
(`upset`): a clean one passes, one with a single error awaits its write-back, an uncorrectable one is counted, with its ALARM, and shown as
the last. The write-back of the slot that waits longest makes it clean and counts as corrected, or, where it no longer holds a single error,
as abandoned. -/
def Claim.Scrubber : Prop :=
  ∀ (s : State),
    (∀ found : Fin 3,
      let slot := s.dev.scrub.next
      let d := s.dev.upset slot found.val
      let a := d.reach (d.scrub.since + d.fld Reg.INTG_CTRL.scrub_period * Config.xcPs)
      let b := { a with scrub := { a.scrub with next := if slot = lastSlot then 0 else slot + 1, since := a.now } }
      (b.slotErr slot = .clean → Yields (.scrubRead found) s b) ∧
      (b.slotErr slot = .single → Yields (.scrubRead found) s { b with scrub := { b.scrub with due := b.scrub.due ++ [slot] } }) ∧
      (b.slotErr slot = .double → Yields (.scrubRead found) s ((b.eccLast slot).countAnd Reg.INTG_SCRUB_STAT.uncorrectable 0 0 2 13 integInst 0 2
        slot))) ∧
    (∀ x rest, s.dev.scrub.due = x :: rest → s.dev.slotErr x = .single →
      Yields .scrubWriteback s (({ s.dev with scrub := { s.dev.scrub with due := rest } }.setSlotErr x .clean).bump
        Reg.INTG_SCRUB_STAT.corrected)) ∧
    (∀ x rest, s.dev.scrub.due = x :: rest → s.dev.slotErr x ≠ .single →
      Yields .scrubWriteback s ({ s.dev with scrub := { s.dev.scrub with due := rest } }.bump Reg.INTG_SCRUB_STAT.abandoned))

/-- R380–R383: a check unit that is enabled. A start that it may make, while it does not run, loads the initial value and shows RUNNING, or DONE at
once where there is nothing to scan; one that it may not make shows RANGE; one while it runs is ignored with a LOG event. A pause shows PAUSED,
a resume with slots left RUNNING. A scan takes the next slot into its CRC and counts it, DONE after the last; at one that it may not read it
ends RANGE, at an uncorrectable one ECC, with an ALARM. -/
def Claim.CheckUnits : Prop :=
  ∀ (s : State) (u : Fin 64), s.dev.fld Reg.CHK_CFG.enable u.val ≠ 0 →
    (s.dev.fld Reg.CHK_CTRL.status u.val ≠ ckRunning → s.dev.chkAllowed u.val = true →
      Yields (.checkGo u) s (((s.dev.setF Reg.CHK_VALUE.value (s.dev.chkSpec u.val).init u.val).setF Reg.CHK_CTRL.done_slots 0 u.val).setF
        Reg.CHK_CTRL.status (if s.dev.fld Reg.CHK_SCAN.length u.val = 0 then ckDone else ckRunning) u.val)) ∧
    (s.dev.fld Reg.CHK_CTRL.status u.val ≠ ckRunning → s.dev.chkAllowed u.val = false →
      Yields (.checkGo u) s (s.dev.setF Reg.CHK_CTRL.status ckRange u.val)) ∧
    (s.dev.fld Reg.CHK_CTRL.status u.val = ckRunning →
      Yields (.checkGo u) s (s.dev.log 13 u.val (s.dev.fld Reg.CHK_CFG.owner u.val) (Reg.CHK_CTRL.go.addr u.val 0 0))) ∧
    (s.dev.fld Reg.CHK_CTRL.status u.val = ckRunning → Yields (.checkPause u) s (s.dev.setF Reg.CHK_CTRL.status ckPaused u.val)) ∧
    (s.dev.fld Reg.CHK_CTRL.status u.val = ckPaused → s.dev.fld Reg.CHK_CTRL.done_slots u.val < s.dev.fld Reg.CHK_SCAN.length u.val →
      Yields (.checkResume u) s (s.dev.setF Reg.CHK_CTRL.status ckRunning u.val)) ∧
    (s.dev.fld Reg.CHK_CTRL.status u.val = ckRunning →
      let i := s.dev.fld Reg.CHK_CTRL.done_slots u.val
      let slot := s.dev.chkSlot u.val i
      let c := s.dev.chkSpec u.val
      let v := crcFeed c.width c.poly c.reflIn (s.dev.fld Reg.CHK_VALUE.value u.val % 2 ^ c.width) (s.dev.chkBytes u.val (s.dev.slotCell slot))
      let a := (s.dev.setF Reg.CHK_VALUE.value v u.val).setF Reg.CHK_CTRL.done_slots (i + 1) u.val
      (s.dev.chkMay u.val slot = false → Yields (.checkScanSlot u) s (s.dev.setF Reg.CHK_CTRL.status ckRange u.val)) ∧
      (s.dev.chkMay u.val slot = true → s.dev.slotErr slot = .double →
        Yields (.checkScanSlot u) s ((s.dev.setF Reg.CHK_CTRL.status ckEcc u.val).alarmAt Reg.CHK_CTRL.status u.val 0 13 1 u.val
          (s.dev.fld Reg.CHK_CFG.owner u.val) slot)) ∧
      (s.dev.chkMay u.val slot = true → s.dev.slotErr slot ≠ .double →
        (s.dev.fld Reg.CHK_SCAN.length u.val ≤ i + 1 → Yields (.checkScanSlot u) s (a.setF Reg.CHK_CTRL.status ckDone u.val)) ∧
        (i + 1 < s.dev.fld Reg.CHK_SCAN.length u.val → Yields (.checkScanSlot u) s a)))

/-- The claims `Claim.Scrubber` and `Claim.CheckUnits` together. -/
def Obligations.ScrubAndCheck : Prop := Claim.Scrubber ∧ Claim.CheckUnits

/-- R394–R398: events: a source gets its tokens back at evt_rate; the hold-off of an ALARM condition ends; records are pushed over KMP, up to
29 at a time; summary bits are cleared, but for those that rise in the same fc (R12); the tail of a ring moves only over what it holds. -/
def Obligations.EventTraffic : Prop :=
  ∀ (s : State),
    (∀ (k : Fin 16) (i : BitVec 16), (s.dev.evtSrc (unitKey k.val i.toNat)).spent ≠ 0 → s.dev.fld Reg.INTG_EVT_CFG.evt_rate ≠ 0 →
      let rate := s.dev.fld Reg.INTG_EVT_CFG.evt_rate
      let key := unitKey k.val i.toNat
      Yields (.eventTokenRefill k i) s (((s.dev.reach ((s.dev.evtSrc key).refilledAt + (Config.msPs + rate - 1) / rate)).refill
        key).summaryRecord k.val i.toNat (s.dev.sourceOwner k.val i.toNat))) ∧
    (∀ c : BitVec 8, Yields (.alarmHoldoffExpire c) s ((s.dev.reach (s.dev.alarmHold c.toNat)).setAlarmHold c.toNat 0)) ∧
    (∀ p : Part, (s.dev.part p.val).pushed ≠ [] →
      let recs := (s.dev.part p.val).pushed
      let a := if 29 ≤ recs.length then s.dev else s.dev.reach ((s.dev.part p.val).pushSince + 100 * Config.usPs)
      Yields (.eventPush p) s ((a.setPart p.val { a.part p.val with pushed := recs.drop 29, pushSince := a.now }).kmpEmit p.val koEvent
        (s.dev.fld Reg.INTG_EVT_RING.evt_flow p.val) (eventPayload (recs.take 29)))) ∧
    (∀ (i : Fin 4) (mask rise : Word), Yields (.alarmClear i mask rise) s (s.dev.setF Reg.INTG_ALARM.summary
      ((BitVec.ofNat 64 (s.dev.fld Reg.INTG_ALARM.summary i.val) &&& ~~~ mask) ||| rise).toNat i.val)) ∧
    (∀ (p : Part) (t : BitVec 13), (t.toNat + 8192 - s.dev.fld Reg.INTG_EVT_TAIL.tail p.val) % 8192 ≤ s.dev.ringFill p.val →
      Yields (.eventTailWrite p t) s (s.dev.setF Reg.INTG_EVT_TAIL.tail t.toNat p.val)) ∧
    (∀ (p : Part) (t : BitVec 13), s.dev.ringFill p.val < (t.toNat + 8192 - s.dev.fld Reg.INTG_EVT_TAIL.tail p.val) % 8192 →
      Yields (.eventTailWrite p t) s (s.dev.log 13 integInst p.val (Reg.INTG_EVT_TAIL.tail.addr p.val 0 0)))

/-! ### Clocks, calibration and start-up -/

/-- R404–R406, R423: the sources of the reference. The loss of the present one in use, from STRAPS on, counts, and switches to the other where
that is present and ref_fallback is set, and else counts from now as a bridge; before STRAPS, of a source not in use or already lost, it only
shows. The return of a source shows: it ends the run on the backup clock, and the hold for want of a reference with it; it ends a bridge where
it is the source in use, switches to it where it is not and ref_fallback is set, and else leaves the bridge; with neither it lets TUMBLER end. With no
source present for 100 µs the device runs on the backup clock and says so in TIME_STATUS, and is held in a warm reset where nothing else holds it. -/
def Claim.ReferenceSources : Prop :=
  ∀ (s : State),
    (∀ src : Fin 2,
      let z := s.dev.setF (presentFld src.val) 0
      let a := z.bump Reg.CLK_STAT.ref_losses
      (s.dev.fld Reg.CLK_REF.in_use = src.val → s.dev.refPresent src.val = true → bsStraps ≤ s.dev.bootState →
        (a.refPresent (1 - src.val) = true → a.flag Reg.CLK_REF.ref_fallback = true →
          Yields (.refSourceLost src) s (a.refSwitch (1 - src.val))) ∧
        (a.refPresent (1 - src.val) = false ∨ a.flag Reg.CLK_REF.ref_fallback = false →
          Yields (.refSourceLost src) s { a with start := { a.start with refLost := some a.now } })) ∧
      (s.dev.fld Reg.CLK_REF.in_use ≠ src.val ∨ s.dev.refPresent src.val = false ∨ s.dev.bootState < bsStraps →
        Yields (.refSourceLost src) s z)) ∧
    (∀ src : Fin 2,
      let a := s.dev.setF (presentFld src.val) 1
      let b := a.rebase.setF Reg.CLK_REF.in_use src.val
      let c := { b with start := { b.start with backup := false, refLost := none } }
      (a.start.backup = true →
        (a.start.hold = .reference →
          Yields (.refSourcePresent src) s ({ c with start := { c.start with hold := .free } }.bootGo bsFirmware)) ∧
        (a.start.hold ≠ .reference → Yields (.refSourcePresent src) s c)) ∧
      (a.start.backup = false → a.start.refLost.isSome = true →
        (a.fld Reg.CLK_REF.in_use = src.val →
          Yields (.refSourcePresent src) s { a with start := { a.start with refLost := none } }) ∧
        (a.fld Reg.CLK_REF.in_use ≠ src.val → a.flag Reg.CLK_REF.ref_fallback = true →
          Yields (.refSourcePresent src) s (a.refSwitch src.val)) ∧
        (a.fld Reg.CLK_REF.in_use ≠ src.val → a.flag Reg.CLK_REF.ref_fallback = false → Yields (.refSourcePresent src) s a)) ∧
      (a.start.backup = false → a.start.refLost = none → Yields (.refSourcePresent src) s a.tumblerExit)) ∧
    (∀ t, s.dev.start.refLost = some t → s.dev.refPresent 0 = false → s.dev.refPresent 1 = false → s.dev.start.backup = false →
      let a := (s.dev.reach (t + 100 * Config.usPs)).rebase
      let on := fun (b : Dev) => ({ b with start := { b.start with backup := true } }).setF Reg.TIME_STATUS.time_state 3
      (a.start.hold = .free → Yields .refAbsentHold s (on (a.warmReset 2 true .reference))) ∧
      (a.start.hold ≠ .free → Yields .refAbsentHold s (on a)))

/-- R408–R412, R420, R423: an island that relocks runs from its PLL once the band is held, and counts; a failed attempt, 1 ms after it began, counts
and is tried again, and after the third the island stays on the haven clock, with an ALARM; a guard trip on an island that runs from its PLL
relocks it and counts, with its ALARM. From SELFTEST on the temperature sensors are sampled, 100 µs after the sample before, one after another, and start calibrations
(`calTempStarts`). The rails are sampled, one after another, and may end POWER (`powerExit`); a rail within its limits that was not out shows its
voltage. A clock measurement that is not in progress starts, and ends 1,024 xc later with the frequency and state of the island selected. -/
def Claim.ClocksAndSensors : Prop :=
  ∀ (s : State),
    (∀ i : Fin 521, s.dev.relocking i.val = true →
      Yields (.pllBandHeld i) s (((s.dev.setPll i.val ⟨false, false, 0, none⟩).bump Reg.CLK_STAT.relocks).moveDone i.val)) ∧
    (∀ i : Fin 521, s.dev.relocking i.val = true →
      let a := (s.dev.reach ((s.dev.pll i.val).since.getD s.dev.start.at_ + Config.msPs)).bump Reg.CLK_STAT.relock_fail
      let r := a.pll i.val
      (r.fails < 2 → Yields (.pllAttemptTimeout i) s ((a.setPll i.val { r with fails := r.fails + 1 }).relock i.val)) ∧
      (2 ≤ r.fails → Yields (.pllAttemptTimeout i) s (((a.setPll i.val ⟨true, true, 3, none⟩).alarm 14 1 i.val 0 0
        (Reg.CLK_STAT.relock_fail.addr 0 0 0) Reg.CLK_STAT.relock_fail.lo).moveDone i.val))) ∧
    (∀ i : Fin 521, (s.dev.pll i.val).onHaven = false →
      Yields (.frequencyGuardTrip i) s ((s.dev.relock i.val).countAnd Reg.CLK_STAT.guard_trips 0 0 2 14 i.val 0 2 0)) ∧
    (∀ readings : List (BitVec 12), 4 ≤ s.dev.bootState →
      Yields (.tempSample readings) s (((((readings.map (fun r => r.toInt)).take 16).zipIdx).foldl (fun d ri => d.sensorSample ri.2 ri.1)
        s.dev.sampleTick).calTempStarts s.dev)) ∧
    (∀ readings : List (BitVec 12),
      Yields (.vmonSample readings) s ((readings.take 24).zipIdx.foldl (fun d ri => d.railSample ri.2 ri.1.toNat) s.dev).powerExit) ∧
    (∀ mv : BitVec 12, s.dev.fld Reg.CLK_VMON.lo 0 ≤ mv.toNat → mv.toNat ≤ s.dev.fld Reg.CLK_VMON.hi 0 → s.dev.flag Reg.CLK_VMON.out 0 = false →
      s.dev.bootState ≠ bsPower →
      Yields (.vmonSample [mv]) s { s.dev.setF Reg.CLK_VMON.mv mv.toNat 0 with
        start := { s.dev.start with rails := Sparse.erase 0 s.dev.start.rails } }) ∧
    (s.dev.start.measuring = none → Yields .clockMeasure s { s.dev with start := { s.dev.start with measuring := some s.dev.now } }) ∧
    (∀ (khz : BitVec 22) (t : Nat), s.dev.start.measuring = some t →
      let a := s.dev.reach (t + 1024 * Config.xcPs)
      let r := a.pll (a.fld Reg.CLK_MEAS_SEL.island)
      Yields (.clockMeasureDone khz) s { ((a.setF Reg.CLK_MEAS.khz khz.toNat).setF Reg.CLK_MEAS.on_haven (if r.onHaven then 1 else 0)).setF
        Reg.CLK_MEAS.stuck (if r.stuck then 1 else 0) with start := { s.dev.start with measuring := none } })

/-- The claims `Claim.ReferenceSources` and `Claim.ClocksAndSensors` together. -/
def Obligations.ClockSources : Prop := Claim.ReferenceSources ∧ Claim.ClocksAndSensors

/-- R413–R416: a calibration block. A start of one that is enabled, idle, and of a kind of which fewer than eight run, shows MEASURING, counts an attempt and
is pending no more; of one that is busy, or must wait for its kind, it is pending; of one that is not enabled it shows SKIPPED, and with it
idle neither pending nor run. A requested start shows run while the block then runs or is pending. A period that ends starts it, as does its
precondition where its last result was PRECONDITION, the precondition holds (`calPre`), and a period has passed since that last did. Measured
codes in range become the targets that its trims step to, where the precondition holds, and leave the run as it is where it does not; one out of
range ends it LIMIT; a precondition that does not hold in time, or of which only the command tells, ends it PRECONDITION, and one that holds does not. What
`calPre` asks beyond the rule's words is the model's reading (log entry 140). While it applies, each trim takes one
step each µs; once all are at their targets it ends SUCCESS. -/
def Obligations.Calibration : Prop :=
  ∀ (s : State) (b : Fin 62),
    let busy := fun (d : Dev) => d.calState b.val ≠ csIdle ∨ 8 ≤ ((calKind b.val).filter (fun c => d.calState c != csIdle)).length
    let go := fun (d : Dev) =>
      (((d.setF Reg.CAL_BLK.state csMeasuring b.val).setF Reg.CAL_BLK.pending 0 b.val).bump Reg.CAL_BLK_COUNT.attempts b.val).setCal b.val
        { d.cal b.val with since := d.now, startedAt := some d.now, refresh := false }
    let starts := fun (c : Instr) (d : Dev) =>
      (d.calEnabled b.val = true → ¬ busy d → Yields c s (go d)) ∧
      (d.calEnabled b.val = true → busy d → Yields c s (d.setF Reg.CAL_BLK.pending 1 b.val)) ∧
      (d.calEnabled b.val = false → d.calState b.val = csIdle → Yields c s (((d.setF Reg.CAL_BLK.result crSkipped b.val).setF Reg.CAL_BLK.pending 0
        b.val).setF Reg.CAL_BLK.run 0 b.val)) ∧
      (d.calEnabled b.val = false → d.calState b.val ≠ csIdle → Yields c s (d.setF Reg.CAL_BLK.result crSkipped b.val))
    (s.dev.calEnabled b.val = true → ¬ busy s.dev → Yields (.calRun b) s ((go s.dev).setF Reg.CAL_BLK.run 1 b.val)) ∧
    (s.dev.calEnabled b.val = true → busy s.dev →
      Yields (.calRun b) s ((s.dev.setF Reg.CAL_BLK.pending 1 b.val).setF Reg.CAL_BLK.run 1 b.val)) ∧
    (s.dev.calEnabled b.val = false → s.dev.calState b.val = csIdle → Yields (.calRun b) s
      (((s.dev.setF Reg.CAL_BLK.result crSkipped b.val).setF Reg.CAL_BLK.pending 0 b.val).setF Reg.CAL_BLK.run 0 b.val)) ∧
    (s.dev.calEnabled b.val = false → s.dev.calState b.val ≠ csIdle →
      Yields (.calRun b) s ((s.dev.setF Reg.CAL_BLK.result crSkipped b.val).setF Reg.CAL_BLK.run 1 b.val)) ∧
    (∀ t, (s.dev.cal b.val).startedAt = some t →
      starts (.calPeriodExpire b) (s.dev.reach (t + s.dev.fld Reg.CAL_CTRL.cal_period * 60 * Config.secPs))) ∧
    (s.dev.fld Reg.CAL_BLK.result b.val = crPrecondition → s.dev.calPre b.val = true →
      (∀ t, (s.dev.cal b.val).preStart = some t → t + s.dev.fld Reg.CAL_CTRL.cal_period * 60 * Config.secPs ≤ s.dev.now) →
      starts (.calPreconditionMet b) (s.dev.setCal b.val { s.dev.cal b.val with preStart := some s.dev.now })) ∧
    (∀ codes : List Int, s.dev.calState b.val = csMeasuring → s.dev.calPre b.val = true → (∀ c ∈ codes, 0 ≤ c ∧ c ≤ 4095) →
      let r := s.dev.cal b.val
      let n := max r.codes.length codes.length
      Yields (.calMeasureDone b codes) s ((s.dev.setF Reg.CAL_BLK.state csApplying b.val).setCal b.val { r with
        since := s.dev.now, codes := padTo n r.codes, targets := codes ++ (padTo n r.codes).drop codes.length })) ∧
    (∀ codes : List Int, s.dev.calState b.val = csMeasuring → s.dev.calPre b.val = true → (∃ c ∈ codes, c < 0 ∨ 4095 < c) →
      Yields (.calMeasureDone b codes) s (s.dev.calEnd b.val crLimit)) ∧
    (∀ codes : List Int, s.dev.calState b.val = csMeasuring → s.dev.calPre b.val = false → Yields (.calMeasureDone b codes) s s.dev) ∧
    (s.dev.calState b.val = csMeasuring → s.dev.calPre b.val = true → s.dev.calReported b.val = false → Yields (.calTimeout b) s s.dev) ∧
    (s.dev.calState b.val = csMeasuring → s.dev.calPre b.val = false ∨ s.dev.calReported b.val = true →
      Yields (.calTimeout b) s ((s.dev.reach ((s.dev.cal b.val).since + calLimit b.val)).calEnd b.val crPrecondition)) ∧
    (s.dev.calState b.val = csApplying →
      let r := s.dev.cal b.val
      let a := s.dev.reach (r.since + Config.usPs)
      let codes := (r.codes.zip r.targets).map (fun ct => stepCode ct.1 ct.2)
      (codes ≠ r.targets → Yields (.calTrimStep b) s (a.setCal b.val { r with since := a.now, codes := codes })) ∧
      (codes = r.targets →
        Yields (.calTrimStep b) s ((a.setCal b.val { r with since := a.now, codes := codes, refresh := false }).calEnd b.val crSuccess)))

/-- R400, R404, R418–R422: start-up. At power-up, with the debug port's fuse not blown, the straps of the pins stand, the serial supplies are
present, queue memory is clear and time is zero. The release of the reset is kept; in POWER, with no rail out of its limits, it starts the timebase
and TUMBLER. TUMBLER raises an ALARM after 1 ms. STRAPS latches the straps with the primary reference that they select, and FIRMWARE follows. A boot device
that is read in FIRMWARE, while nothing holds the device, gives its record, where it has a right one, and the firmware (`chooseFirmware`), and
SELFTEST follows. A self-test without bad memory keeps its results of the tiles and goes on to CALIBRATE, one with bad memory holds the device
(`selftestHold`). LINKS ends links_wait after it began, in ENUMERATE. Where the straps select the boot slots, IMAGE tries the image of the slot
that the record names, and then that of the other (`tryImages`). -/
def Claim.StartUp : Prop :=
  ∀ (s : State),
    (∀ straps : StrapPins, s.fuses.debugOpen = false →
      ∃ t, exec (.powerUp straps) s = .next t ∧ t.fuses = s.fuses ∧ t.pending = s.pending ∧ t.dev.strapPins = straps ∧
        t.dev.start.vser = true ∧ t.dev.mem = [] ∧ t.dev.now = 0) ∧
    (let a := { s.dev with start := { s.dev.start with released := true } }
     (s.dev.bootState = bsPower → s.dev.railsIn = true →
       Yields .resetRelease s (({ a with tb := { TimeBase.init with ref := s.dev.now } }.bootGo bsTumbler).tumblerExit)) ∧
     (s.dev.bootState ≠ bsPower ∨ s.dev.railsIn = false → Yields .resetRelease s a)) ∧
    (s.dev.bootState = bsTumbler →
      Yields .tumblerStateTimeout s ((s.dev.reach (s.dev.start.at_ + Config.msPs)).alarm 14 0 0 0)) ∧
    (s.dev.bootState = bsStraps →
      Yields .strapsLatch s (({ s.dev with straps := s.dev.strapPins }.strapFields.setF Reg.CLK_REF.primary
        (if { s.dev with straps := s.dev.strapPins }.strapFields.straps.refsel then 1 else 0)).bootGo bsFirmware)) ∧
    (∀ b : BootRead, s.dev.bootState = bsFirmware → s.dev.start.hold = .free →
      let r := bootRecord b
      Yields (.firmwareLoaded b) s (((s.dev.useRecord r).chooseFirmware b ((r.map (fun bs => le bs 0x08 1 % 2)).getD 0)).bootGo bsSelftest)) ∧
    (∀ failed : List (Fin 272), s.dev.bootState = bsSelftest → s.dev.start.hold = .free →
      Yields (.selftestDone failed none) s (((s.dev.tileTests (failed.map Fin.val)).bootEnter s.fuses.uid bsCalibrate).bootCheck s.fuses.uid)) ∧
    (∀ (failed : List (Fin 272)) (m : Byte), s.dev.bootState = bsSelftest → s.dev.start.hold = .free →
      Yields (.selftestDone failed (some m)) s ((s.dev.selftestHold m.toNat).bootCheck s.fuses.uid)) ∧
    (s.dev.bootState = bsLinks → s.dev.start.hold = .free →
      Yields .linksWaitTimeout s (((s.dev.reach (s.dev.start.at_ + s.dev.fld Reg.CLK_BOOT.links_wait * Config.msPs)).bootEnter s.fuses.uid
        bsEnumerate).bootCheck s.fuses.uid)) ∧
    (∀ (a b : List Byte) (e : Option (Fin 2 × BitVec 24)), s.dev.bootState = bsImage → s.dev.start.hold = .free → s.dev.straps.boot = 0 →
      let err := e.map (fun x => (x.1.val, x.2.toNat))
      (s.dev.boot.imgSlot = 0 →
        Yields (.bootImageLoaded a b e) s ((s.dev.tryImages s.fuses err [(0, a), (1, b)]).bootCheck s.fuses.uid)) ∧
      (s.dev.boot.imgSlot ≠ 0 →
        Yields (.bootImageLoaded a b e) s ((s.dev.tryImages s.fuses err [(1, b), (0, a)]).bootCheck s.fuses.uid)))

/-- R9, R102, R368, R432, R454, R455: the reset pin and the loss of VIO18 are a cold reset (`coldReset`). The loss of the serial supplies ends repeater
mode, takes every flank link out of RUN or starts it again, and every uplink likewise; their return, after a loss, turns the repeater on where
something asks for it (`repeats`). An in-band interrupt of a sensor changes nothing. -/
def Claim.SuppliesAndPins : Prop :=
  ∀ (s : State),
    exec .resetPin s = .next s.coldReset ∧ exec .vio18Loss s = .next s.coldReset ∧
    Yields .vserLoss s ([0, 1].foldl (fun d u => if d.uplinkUp u then d.uplLeave u else d.uplRestart u)
        ([0, 1].foldl (fun d l => if d.flkUp l then d.flkLeave l else d.flkStart l)
          ({ s.dev with start := { s.dev.start with vser := false } }.setF Reg.TMB_REPEATER.active 0))) ∧
    (let a := { s.dev with start := { s.dev.start with vser := true } }
     (s.dev.start.vser = false → a.repeats = true → Yields .vserInRange s ((a.setF Reg.TMB_REPEATER.active 0).repeaterOn)) ∧
     (s.dev.start.vser = false → a.repeats = false → Yields .vserInRange s a) ∧
     (s.dev.start.vser = true → Yields .vserInRange s s.dev)) ∧
    (∀ n : Port, Yields (.i3cInBandInterrupt n) s s.dev)

/-- The claims `Claim.StartUp` and `Claim.SuppliesAndPins` together. -/
def Obligations.PowerAndStartUp : Prop := Claim.StartUp ∧ Claim.SuppliesAndPins

/-! ### Tumbler and debug -/

/-- R428–R432: a core's report and the fabric's heartbeat are kept. While the stewards work a core that is late by wd_timeout, or has an uncorrectable
error, is restarted (`coreRestart`); a fabric silent for fabric_timeout, unless the queue memory is halted, counts as a wedge, with its ALARM, and
is a warm reset. A thermal trip counts, with its ALARM, and is a warm reset that holds the device, the third within an hour for good. A device
that a trip holds starts again 10 s after the last trip, from FIRMWARE, or stays held while it runs on the backup clock. force turns the repeater on
where it is not active, and off where it is and nothing else asks for it. -/
def Obligations.TumblerWatch : Prop :=
  ∀ (s : State),
    (∀ c : Fin 4, Yields (.coreReport c) s { s.dev with tumbler := { s.dev.tumbler with
      reports := Sparse.insert c.val s.dev.now s.dev.tumbler.reports } }) ∧
    Yields .fabricHeartbeat s { s.dev with tumbler := { s.dev.tumbler with heartbeat := s.dev.now } } ∧
    (∀ c : Fin 4, s.dev.stewardsRun = true →
      Yields (.coreWatchdog c) s ((s.dev.reach ((Sparse.find c.val s.dev.tumbler.reports).getD s.dev.start.at_ +
        s.dev.fld Reg.TMB_WDOG.wd_timeout * Config.msPs)).coreRestart c.val)) ∧
    (∀ c : Fin 4, s.dev.stewardsRun = true → Yields (.stewardCoreUncorrectableError c) s (s.dev.coreRestart c.val)) ∧
    (s.dev.stewardsRun = true → s.dev.isHalted 482 = false →
      Yields .fabricWedge s (((s.dev.reach (s.dev.tumbler.heartbeat + s.dev.fld Reg.TMB_WDOG.fabric_timeout * Config.usPs)).countAnd
        Reg.TMB_STAT.wedges 0 0 2 15 0 0 1 0).warmReset 2 true .free)) ∧
    (let a := s.dev.countAnd Reg.TMB_STAT.thermal_trips 0 0 2 15 0 0 3 0
     let recent := (s.dev.tumbler.trips ++ [s.dev.now]).drop (s.dev.tumbler.trips.length - 2)
     let d := { a with tumbler := { a.tumbler with trips := recent } }
     let third := recent.length = 3 ∧ a.now ≤ recent.headD 0 + 3600 * Config.secPs
     (¬ third → Yields .thermalTrip s ((d.warmReset 3 true .thermal).setF Reg.TMB_STATUS.thermal 1)) ∧
     (third → Yields .thermalTrip s ((d.warmReset 3 true .forever).setF Reg.TMB_STATUS.thermal 1))) ∧
    (s.dev.start.hold = .thermal →
      let a := (s.dev.reach ((s.dev.tumbler.trips.getLast?.getD 0) + 10 * Config.secPs)).setF Reg.TMB_STATUS.thermal 0
      (a.start.backup = false → Yields .thermalResume s ({ a with start := { a.start with hold := .free } }.bootGo bsFirmware)) ∧
      (a.start.backup = true → Yields .thermalResume s { a with start := { a.start with hold := .reference } })) ∧
    ((s.dev.setF Reg.TMB_REPEATER.force 1).flag Reg.TMB_REPEATER.active = false →
      Yields (.repeaterForce true) s ((s.dev.setF Reg.TMB_REPEATER.force 1).repeaterOn)) ∧
    ((s.dev.setF Reg.TMB_REPEATER.force 0).flag Reg.TMB_REPEATER.active = true → (s.dev.setF Reg.TMB_REPEATER.force 0).repeats = false →
      Yields (.repeaterForce false) s ((s.dev.setF Reg.TMB_REPEATER.force 0).repeaterOff))

/-- R436–R442: the instructions that every port serves, and, at an unlocked port, those that only it serves: each selects its register and its scan
mode, and captures or acts as the clause says. -/
def Obligations.DebugInstructions : Prop :=
  ∀ (s : State),
    let sel := fun (code : Nat) (scan : ScanMode) => { s.dev with dbg := { s.dev.dbg with instr := code, scan := scan } }
    let cap := fun (code : Nat) (scan : ScanMode) (v : Nat) => { s.dev with dbg := { s.dev.dbg with instr := code, scan := scan, capture := v } }
    Yields .tapReset s (sel diIdcode .off) ∧
    Yields .idcode s (cap diIdcode .off idcodeValue) ∧
    Yields .bypass s (cap diBypass .off 0) ∧
    Yields .tmbAccess s (sel diTmb .off) ∧
    (∀ pins : List Bool, Yields (.samplePreload pins) s { s.dev with dbg := { s.dev.dbg with
      instr := diSample, scan := .off, boundary := pins, capture := ofBits pins } }) ∧
    (s.dev.fld Reg.DBG_STATUS.unlocked = 1 →
      Yields .extest s (cap diExtest .extest (ofBits s.dev.dbg.boundary)) ∧
      Yields .clamp s (cap diClamp .clamp 0) ∧
      Yields .highz s (cap diHighz .highz 0) ∧
      Yields .memAccess s (sel diMem .off) ∧
      Yields .cfgAccess s (sel diCfg .off) ∧
      (∀ (sc : Bool) (isl : BitVec 10), Yields (.haltUpdate sc isl) s ((sel diHalt .off).haltBegin (haltScope sc isl.toNat))) ∧
      (∀ (sc : Bool) (isl : BitVec 10), Yields (.haltRelease sc isl) s ((sel diHalt .off).haltEnd (haltScope sc isl.toNat))) ∧
      (∀ (t : Bool) (x : BitVec 15) (n : BitVec 16), Yields (.stepUpdate t x n) s ((sel diStep .off).step t x.toNat n.toNat)) ∧
      (∀ (i : Fin 16) (en port : Bool) (q : QId) (code : BitVec 6) (any : Bool) (v m : Grain),
        Yields (.breakUpdate i en port q code any v m) s ((sel diBreak .off).setBreakAt i.val ⟨en, port, q.val, code.toNat, any, v, m⟩)))

/-- R443: at a locked port every instruction that the table gives it only when unlocked selects BYPASS, and does nothing else. -/
def Obligations.LockedPortBypasses : Prop :=
  ∀ (s : State), s.dev.fld Reg.DBG_STATUS.unlocked ≠ 1 →
    let bypass := { s.dev with dbg := { s.dev.dbg with instr := diBypass, scan := .off, capture := 0 } }
    Yields .extest s bypass ∧ Yields .clamp s bypass ∧ Yields .highz s bypass ∧ Yields .memAccess s bypass ∧ Yields .cfgAccess s bypass ∧
    (∀ sc isl, Yields (.haltUpdate sc isl) s bypass) ∧ (∀ sc isl, Yields (.haltRelease sc isl) s bypass) ∧
    (∀ t x n, Yields (.stepUpdate t x n) s bypass) ∧
    (∀ i en port q code any v m, Yields (.breakUpdate i en port q code any v m) s bypass)

/-- R443, R444: the challenge is a number that the device draws, captured beside the identity. A response that is not zero, for a challenge, while the port is not
locked out, uses the challenge up, and is accepted where it is the right one and refused where it is not; while the port is locked out it
only selects its register; zero locks the port, unless the fuse opens it. A lockout ends at its instant. relock locks an unlocked port,
unless the fuse opens it. -/
def Claim.DebugLocking : Prop :=
  ∀ (s : State),
    (Yields .dbgChallenge s { s.dev with free := s.dev.free + 1, dbg := { s.dev.dbg with
      instr := diChallenge, scan := .off, challenge := some (Config.random s.dev.free)
      capture := (Config.random s.dev.free).toNat + s.fuses.uid.toNat * 2 ^ 256 } }) ∧
    (∀ (c r : BitVec 256), (s.dev.select diResponse .off).lockedOut = false → r ≠ 0 → s.dev.dbg.challenge = some c →
      let e := { s.dev with dbg := { s.dev.dbg with instr := diResponse, scan := .off, challenge := none } }
      Yields (.dbgResponse r) s (if responseTo c s.fuses.uid = r then e.acceptResponse else e.refuseResponse)) ∧
    ((s.dev.select diResponse .off).lockedOut = true → ∀ r, Yields (.dbgResponse r) s (s.dev.select diResponse .off)) ∧
    ((s.dev.select diResponse .off).lockedOut = false → s.fuses.debugOpen = false →
      Yields (.dbgResponse 0) s ({ s.dev with dbg := { s.dev.dbg with
        instr := diResponse, scan := .off, challenge := none } }.setF Reg.DBG_STATUS.unlocked 0)) ∧
    (∀ t, s.dev.dbg.lockUntil = some t →
      Yields .debugLockoutEnd s { s.dev with now := max s.dev.now t, dbg := { s.dev.dbg with lockUntil := none } }) ∧
    (s.dev.fld Reg.DBG_STATUS.unlocked = 1 → s.fuses.debugOpen = false →
      Yields .debugRelock s (s.dev.setF Reg.DBG_STATUS.unlocked 0))

/-- R438, R439: with an access register selected (`accessWindow`): while an access is in progress a poll, a read and a write only capture; with none
a poll captures, and a read or a write captures and puts its access in progress. An access that completes leaves its data and its status. An
island that is asked to halt, and has not, halts. -/
def Claim.DebugAccess : Prop :=
  ∀ (s : State),
    (∀ w, s.dev.accessWindow = some w → s.dev.dbg.op.isSome = true →
      Yields .accessPoll s s.dev.captureAccess ∧ (∀ (wide : Bool) (a : BitVec 40), Yields (.accessRead wide a) s s.dev.captureAccess) ∧
      (∀ (wide : Bool) (a : BitVec 40) (v : Word), Yields (.accessWrite wide a v) s s.dev.captureAccess)) ∧
    (∀ w, s.dev.accessWindow = some w → s.dev.dbg.op = none →
      Yields .accessPoll s { s.dev.captureAccess with dbg := { s.dev.captureAccess.dbg with op := none } } ∧
      (∀ (wide : Bool) (a : BitVec 40), Yields (.accessRead wide a) s { s.dev.captureAccess with
        dbg := { s.dev.captureAccess.dbg with op := some ⟨w, false, wide, a.toNat, 0⟩ } }) ∧
      (∀ (wide : Bool) (a : BitVec 40) (v : Word), Yields (.accessWrite wide a v) s { s.dev.captureAccess with
        dbg := { s.dev.captureAccess.dbg with op := some ⟨w, true, wide, a.toNat, v⟩ } })) ∧
    (∀ o, s.dev.dbg.op = some o →
      let x := s.debugOp o
      exec .accessComplete s = .next { x.2.1 with dev := { x.2.1.dev with
        dbg := { x.2.1.dev.dbg with op := none, status := x.2.2, data := x.1 } } }) ∧
    (∀ i : Fin 521, s.dev.dbg.halting.contains i.val = true → s.dev.halted.contains i.val = false →
      Yields (.islandHalted i) s { s.dev with halted := s.dev.halted ++ [i.val]
                                              dbg := { s.dev.dbg with halting := s.dev.dbg.halting.filter (fun x => x != i.val) } })

/-- The claims `Claim.DebugLocking` and `Claim.DebugAccess` together. -/
def Obligations.DebugPort : Prop := Claim.DebugLocking ∧ Claim.DebugAccess

/-! ### The whole block -/

/-- A step takes the command at the front of the queue and runs it on the state with the rest. -/
def Claim.StepRunsFront : Prop :=
  ∀ (s : State) (c : Instr), step (s.withCommand c) = exec c s

/-- DESIGN CHOICE (log entry 1): with no command waiting a step lets one period of the crystal, 20 ns, pass, and changes nothing else. -/
def Obligations.IdleStepTicks : Prop :=
  ∀ (s : State), s.pending = [] → step s = .next { s with dev := { s.dev with now := s.dev.now + 20000 } }

/-- R9: reset leaves every register at the value of its Reset column, no error in queue memory, memory in canonical form, no island
halted, the fuses of a new device and no command waiting. -/
def Obligations.ResetState : Prop :=
  State.reset.dev.regs = [] ∧ (∀ a, State.reset.dev.regs.word a = Reg.resetWord a) ∧ Memory.wf State.reset.dev.mem ∧
  (∀ a, memGet State.reset.dev.mem a = 0) ∧ (∀ q, State.reset.dev.slotErr q = .clean) ∧ State.reset.dev.halted = [] ∧
  State.reset.pending = [] ∧ State.reset.fuses.rollback = 0 ∧ State.reset.fuses.revoked = 0

/-- No word spells a command: the table gives no row bits. -/
def Claim.NoWordDecodes : Prop := ∀ nbits w s, decodeTableWord nbits w = none ∧ State.withFetchWord s nbits w = s

/-- The claims `Claim.StepRunsFront` and `Claim.NoWordDecodes` together. -/
def Obligations.QueueAndWords : Prop := Claim.StepRunsFront ∧ Claim.NoWordDecodes

/-- No command puts another into the queue or takes one from it: what waits is the sender's alone. -/
def Obligations.ExecKeepsQueue : Prop :=
  ∀ (c : Instr) (s t : State), exec c s = .next t → t.pending = s.pending

/-- No command ends in a fault or a refusal: every one completes in every state, with every operand. -/
def Obligations.EveryCommandCompletes : Prop := ∀ (c : Instr) (s : State), Completes (exec c s)

/-- R258, R261, R262: whatever commands wait, a step keeps every fuse that was burnt: the rollback count never goes down, a revoked slot
stays revoked, the programmed slots, the identity and debug_open stay. -/
def Obligations.FusesOnlyBurn : Prop :=
  ∀ (f : Machine.Fuses) (s t : State), s.FusesSince f → step s = .next t → t.FusesSince f

/-- The fuses of the reset state cover themselves: the invariant holds at reset. -/
def Obligations.FusesAtReset : Prop := State.reset.FusesSince ⟨0, 0, 0, 0, false⟩

/-- R294: a number that has been marked is not fresh again. -/
def Obligations.SequenceNotFreshTwice : Prop :=
  ∀ (s : Dev) (p n : Nat), s.seqFresh p n = true → (s.seqMark p n).seqFresh p n = false

/-! ### Rules of values -/

/-- R151, R143, R168: LUT gives each sample of a line the entry min(x >> shift, 4,095) of the page that the bank of the line's context
selects, x clamped to 0–262,143; entry i of a page that was loaded, in a grain without error, is sample i mod 4 of its grain i div 4. It keeps
the line's head, bracket, position and saturation flags; its grains take the flags of the table grains that they read (R45). -/
def Obligations.LutValues : Prop :=
  ∀ (s : Dev) (t n : Nat) (l : ULine),
    let page := s.fld Reg.TILE_P_LUT.page t 0 l.tag.ctx
    let entry := fun (x : Int) => min ((max 0 (min x 262143)).toNat / 2 ^ s.fld Reg.TILE_P_LUT.shift t 0 l.tag.ctx) 4095
    (∃ m : ULine, (s.doLut t n l).2 = [.line m] ∧ m.colon = l.colon ∧ m.bracket = l.bracket ∧ m.pos = l.pos ∧ m.sat = l.sat ∧
      m.xs.length = l.xs.length ∧
      ∀ c (h : c < m.xs.length) (h' : c < l.xs.length), m.xs[c] = (s.lutEntry t page (entry l.xs[c]) : Nat)) ∧
    (∀ (i : Nat) (gs : List (Grain × Blemish)), Sparse.find page (s.tile t).pages = some gs →
      (Sparse.find (1024 * page + i / 4) (s.tile t).pageErrs).getD .clean = .clean →
      s.lutEntry t page i = (rawSamples 2 (gs.getD (i / 4) (0, Blemish.clear)).1).getD (i % 4) 0)

/-- R150: LIN divides the clamped input x into 32 segments of 8,192 values and computes base[i] + round(slope[i] × (x − 8,192 × i)) for
i = x >> 13, slope having 14 fraction bits, saturated to s24 (R143). -/
def Obligations.LinValues : Prop :=
  ∀ (s : Dev) (t : Nat) (l : ULine),
    ∃ m : ULine, s.doLin t l = [.line m] ∧ m.colon = l.colon ∧ m.bracket = l.bracket ∧ m.blem = l.blem ∧ m.xs.length = l.xs.length ∧
      ∀ c (h : c < m.xs.length) (h' : c < l.xs.length),
        let x := max 0 (min l.xs[c] 262143)
        let i := x.toNat / 8192
        i < 32 ∧ m.xs[c] = max (-8388608) (min 8388607 ((s.fld Reg.TILE_P_LIN.base t i l.tag.ctx : Int) +
          rshiftRound (s.fld Reg.TILE_P_LIN.slope t i l.tag.ctx * (x - 8192 * i)) 14))

/-- R159: CLP computes min(max(x, lo), hi), sets a sample's saturation flag where x < lo or x > hi, and counts each such sample in
clipped. -/
def Obligations.ClpValues : Prop :=
  ∀ (s : Dev) (t : Nat) (l : ULine),
    let lo := s.sfld Reg.TILE_P_CLP.lo t 0 l.tag.ctx
    let hi := s.sfld Reg.TILE_P_CLP.hi t 0 l.tag.ctx
    ∃ m : ULine, (s.doClp t l).2 = [.line m] ∧ m.xs.length = l.xs.length ∧
      (∀ c (h : c < m.xs.length) (h' : c < l.xs.length), m.xs[c] = min (max l.xs[c] lo) hi) ∧
      (∀ c (h : c < m.sat.length) (h' : c < l.xs.length) (h'' : c < l.sat.length),
        m.sat[c] = true ↔ (l.sat[c] = true ∨ l.xs[c] < lo ∨ hi < l.xs[c])) ∧
      (s.doClp t l).1 = s.bump Reg.TILE_STAT2.clipped t 0 0 ((l.xs.filter (fun x => decide (x < lo) || decide (hi < x))).length)

/-- R14: the counters that these commands move up saturate at their maximum and do not wrap. -/
def Obligations.CountersSaturate : Prop :=
  ∀ (s : State) (u : Uplink), s.dev.fld Reg.UPL_STATUS.state u.val = 3 →
    (∃ t, exec (.pauseFrame u) s = .next t ∧
      t.dev.fld Reg.UPL_STAT3.pause_ignored u.val = min (s.dev.fld Reg.UPL_STAT3.pause_ignored u.val + 1) (2 ^ Reg.UPL_STAT3.pause_ignored.width - 1)) ∧
    (∃ t, exec (.frameDiscard u) s = .next t ∧
      t.dev.fld Reg.UPL_STAT2.rx_discard u.val = min (s.dev.fld Reg.UPL_STAT2.rx_discard u.val + 1) (2 ^ Reg.UPL_STAT2.rx_discard.width - 1)) ∧
    (∀ p, ∃ t, exec (.ptpDiscard p) s = .next t ∧
      t.dev.fld Reg.TIME_STAT2.rx_discard = min (s.dev.fld Reg.TIME_STAT2.rx_discard + 1) (2 ^ Reg.TIME_STAT2.rx_discard.width - 1))

/-- R12: a summary bit that rises in the fc in which a write of 1 clears it stays set, and one that does not is cleared; a read of a port's
counters returns what they held before the increments of its fc, and these stand in them after it. -/
def Obligations.NothingLostAtCoincidence : Prop :=
  (∀ (s t : State) (i : Fin 4) (mask rise : Word) (b : Nat), b < 64 → exec (.alarmClear i mask rise) s = .next t →
    (rise.getLsbD b = true → (t.dev.fld Reg.INTG_ALARM.summary i.val).testBit b = true) ∧
    (rise.getLsbD b = false → mask.getLsbD b = true → (t.dev.fld Reg.INTG_ALARM.summary i.val).testBit b = false) ∧
    (rise.getLsbD b = false → mask.getLsbD b = false →
      (t.dev.fld Reg.INTG_ALARM.summary i.val).testBit b = (s.dev.fld Reg.INTG_ALARM.summary i.val).testBit b)) ∧
  (∀ (s : State) (n : Fin 4) (k : Nat), ∃ t,
    exec (.rcRead ⟨0, .kmp⟩ (BitVec.ofNat 40 (Reg.SPORT_STAT.base + n.val * 4096)) true [(0, k)]) s = .next t ∧
      t.dev.lastRead = s.dev.regs.word (Reg.SPORT_STAT.base + n.val * 4096) ∧
      t.dev.fld Reg.SPORT_STAT.hdr_corrected n.val = min k 65535 ∧ t.dev.fld Reg.SPORT_STAT.unmatched n.val = 0)

/-- R11: after the first image commit a register write leaves the words of a tile's control registers, whose fields are RWL, as they were. -/
def Obligations.LockedFieldsStay : Prop :=
  ∀ (s t : State) (who : Requester) (n : Fin 256) (v : Word), s.dev.committed = true →
    exec (.registerWrite who (BitVec.ofNat 40 (Reg.TILE_CTRL.base + n.val * Reg.TILE_CTRL.s0)) true v) s = .next t →
    t.dev.regs.word (Reg.TILE_CTRL.base + n.val * Reg.TILE_CTRL.s0) = s.dev.regs.word (Reg.TILE_CTRL.base + n.val * Reg.TILE_CTRL.s0)
end

