-- ==== Sys2Proof/Laws/Sparse.lean ====
section
/-! SUPPORT. Laws of sparse maps: what a write changes, what it leaves, and that it keeps the canonical form; the same for queue
memory. -/

namespace Sys2Proof.Sparse

variable {α : Type}

@[simp] theorem find_insert_same (k : Nat) (v : α) (m : List (Nat × α)) : find k (insert k v m) = some v := by
  induction m with
  | nil => simp [insert, find]
  | cons h t ih =>
    obtain ⟨k', v'⟩ := h
    simp only [insert]
    split
    · simp [find]
    · split
      · simp [find]
      · rename_i h1 h2
        simp [find, h2, ih]

theorem find_insert_other (j k : Nat) (v : α) (m : List (Nat × α)) (h : j ≠ k) : find j (insert k v m) = find j m := by
  induction m with
  | nil => simp [insert, find, h]
  | cons p t ih =>
    obtain ⟨k', v'⟩ := p
    simp only [insert]
    split
    · simp [find, h]
    · split
      · rename_i h1 h2
        subst h2
        simp [find, h]
      · simp only [find, ih]

@[simp] theorem find_erase_same (k : Nat) (m : List (Nat × α)) : find k (erase k m) = none := by
  induction m with
  | nil => rfl
  | cons p t ih =>
    obtain ⟨k', v'⟩ := p
    simp only [erase]
    split
    · exact ih
    · rename_i h
      simp [find, h, ih]

theorem find_erase_other (j k : Nat) (m : List (Nat × α)) (h : j ≠ k) : find j (erase k m) = find j m := by
  induction m with
  | nil => rfl
  | cons p t ih =>
    obtain ⟨k', v'⟩ := p
    simp only [erase]
    split
    · rename_i e
      subst e
      simp [find, h, ih]
    · simp only [find, ih]

/-- A read after a write to the same key gives the value written. -/
@[simp] theorem get_set_same [DecidableEq α] (d : Nat → α) (m : List (Nat × α)) (k : Nat) (v : α) : get d (set d m k v) k = v := by
  unfold get set
  split
  · rename_i h
    simp [h]
  · simp

/-- A write leaves every other key alone. -/
theorem get_set_other [DecidableEq α] (d : Nat → α) (m : List (Nat × α)) (j k : Nat) (v : α) (h : j ≠ k) :
    get d (set d m k v) j = get d m j := by
  unfold get set
  split
  · rw [find_erase_other j k m h]
  · rw [find_insert_other j k v m h]

/-- A bound below the first key. -/
def Above (lo : Option Nat) (k : Nat) : Prop := ∀ l, lo = some l → l < k

theorem wfFrom_cons [DecidableEq α] (d : Nat → α) (lo : Option Nat) (k : Nat) (v : α) (rest : List (Nat × α)) :
    wfFrom d lo ((k, v) :: rest) = true ↔ Above lo k ∧ v ≠ d k ∧ wfFrom d (some k) rest = true := by
  cases lo <;> simp [wfFrom, Above, and_assoc]

theorem wfFrom_weaken [DecidableEq α] (d : Nat → α) (lo hi : Option Nat) (m : List (Nat × α)) (h : ∀ k, Above hi k → Above lo k)
    (hw : wfFrom d hi m = true) : wfFrom d lo m = true := by
  cases m with
  | nil => rfl
  | cons p t =>
    obtain ⟨k, v⟩ := p
    rw [wfFrom_cons] at hw ⊢
    exact ⟨h k hw.1, hw.2⟩

theorem wfFrom_erase [DecidableEq α] (d : Nat → α) (lo : Option Nat) (k : Nat) (m : List (Nat × α)) (hw : wfFrom d lo m = true) :
    wfFrom d lo (erase k m) = true := by
  induction m generalizing lo with
  | nil => rfl
  | cons p t ih =>
    obtain ⟨k', v'⟩ := p
    rw [wfFrom_cons] at hw
    simp only [erase]
    split
    · refine wfFrom_weaken d lo (some k') _ ?_ (ih _ hw.2.2)
      intro j hj l hl
      exact Nat.lt_trans (hw.1 l hl) (hj k' rfl)
    · rw [wfFrom_cons]
      exact ⟨hw.1, hw.2.1, ih _ hw.2.2⟩

theorem wfFrom_insert [DecidableEq α] (d : Nat → α) (lo : Option Nat) (k : Nat) (v : α) (m : List (Nat × α)) (hk : Above lo k)
    (hv : v ≠ d k) (hw : wfFrom d lo m = true) : wfFrom d lo (insert k v m) = true := by
  induction m generalizing lo with
  | nil =>
    simp only [insert]
    rw [wfFrom_cons]
    exact ⟨hk, hv, rfl⟩
  | cons p t ih =>
    obtain ⟨k', v'⟩ := p
    rw [wfFrom_cons] at hw
    simp only [insert]
    split
    · rename_i h
      rw [wfFrom_cons, wfFrom_cons]
      exact ⟨hk, hv, fun l hl => by cases hl; exact h, hw.2⟩
    · split
      · rename_i h1 h2
        subst h2
        rw [wfFrom_cons]
        exact ⟨hk, hv, hw.2.2⟩
      · rename_i h1 h2
        rw [wfFrom_cons]
        refine ⟨hw.1, hw.2.1, ih _ ?_ hw.2.2⟩
        intro l hl
        cases hl
        omega

/-- A write keeps the canonical form. -/
theorem wf_set [DecidableEq α] (d : Nat → α) (m : List (Nat × α)) (k : Nat) (v : α) (hw : wf d m = true) : wf d (set d m k v) = true := by
  unfold wf set at *
  split
  · exact wfFrom_erase d none k m hw
  · rename_i h
    exact wfFrom_insert d none k v m (fun l hl => by cases hl) h hw

end Sys2Proof.Sparse

namespace Sys2Proof.Machine

/-- A byte write keeps queue memory's canonical form. -/
theorem memSet_wf (m : List Host.Cell) (a : Nat) (b : BitVec 8) (h : Memory.wf m) : Memory.wf (memSet m a b) :=
  Sparse.wf_set _ m a b h

/-- Writes of several bytes keep it. -/
theorem memSetBytes_wf (bs : List Byte) (m : List Host.Cell) (a : Nat) (h : Memory.wf m) : Memory.wf (memSetBytes m a bs) := by
  induction bs generalizing m a with
  | nil => exact h
  | cons b t ih => exact ih _ _ (memSet_wf m a b h)

/-- A slot write keeps it. -/
theorem slotPut_wf (m : List Host.Cell) (slot : Nat) (c : Cell) (h : Memory.wf m) : Memory.wf (slotPut m slot c) :=
  memSetBytes_wf _ m _ h

/-- A byte reads as it was written. -/
@[simp] theorem memGet_memSet_same (m : List Host.Cell) (a : Nat) (b : BitVec 8) : memGet (memSet m a b) a = b :=
  Sparse.get_set_same _ m a b

/-- Every other byte is left. -/
theorem memGet_memSet_other (m : List Host.Cell) (x a : Nat) (b : BitVec 8) (h : x ≠ a) : memGet (memSet m a b) x = memGet m x :=
  Sparse.get_set_other _ m x a b h

/-- A byte outside those written is left. -/
theorem memGet_memSetBytes_outside (bs : List Byte) (m : List Host.Cell) (a x : Nat) (h : x < a ∨ a + bs.length ≤ x) :
    memGet (memSetBytes m a bs) x = memGet m x := by
  induction bs generalizing m a with
  | nil => rfl
  | cons b t ih =>
    simp only [memSetBytes]
    rw [ih]
    · apply memGet_memSet_other
      simp only [List.length_cons] at h
      omega
    · simp only [List.length_cons] at h
      omega

/-- Byte i of those written. -/
theorem memGet_memSetBytes_inside (bs : List Byte) (m : List Host.Cell) (a i : Nat) (h : i < bs.length) :
    memGet (memSetBytes m a bs) (a + i) = bs[i] := by
  induction bs generalizing m a i with
  | nil => simp at h
  | cons b t ih =>
    simp only [memSetBytes]
    cases i with
    | zero =>
      rw [memGet_memSetBytes_outside t _ _ _ (by omega)]
      simp
    | succ n =>
      have := ih (memSet m a b) (a + 1) n (by simpa using h)
      simpa [Nat.add_assoc, Nat.add_comm 1 n] using this

end Sys2Proof.Machine
end

