-- ==== Sys2Proof/Laws/Memory.lean ====
section
/-! SUPPORT. Queue memory keeps its canonical form under the operations of later layers: a window write (R82, R83) and the clearing of a
region's slots (R54). -/

namespace Sys2Proof.Machine

/-- A window write keeps queue memory's canonical form. -/
theorem putImage_wf (bs : List Byte) (m : List Host.Cell) (k : Nat) (h : Memory.wf m) : Memory.wf (putImage m k bs) := by
  induction bs generalizing m k with
  | nil => exact h
  | cons b t ih =>
    refine ih _ _ ?_
    split
    · exact memSet_wf m k b h
    · exact h

/-- A canonical map without some of its entries is canonical. -/
theorem wfFrom_filter (p : Host.Cell → Bool) (lo : Option Nat) (m : List Host.Cell)
    (h : Sparse.wfFrom (fun _ => (0 : BitVec 8)) lo m = true) : Sparse.wfFrom (fun _ => (0 : BitVec 8)) lo (m.filter p) = true := by
  induction m generalizing lo with
  | nil => exact h
  | cons c t ih =>
    obtain ⟨k, v⟩ := c
    rw [Sparse.wfFrom_cons] at h
    by_cases hp : p (k, v) = true
    · rw [List.filter_cons_of_pos hp, Sparse.wfFrom_cons]
      exact ⟨h.1, h.2.1, ih _ h.2.2⟩
    · rw [List.filter_cons_of_neg hp]
      exact Sparse.wfFrom_weaken _ lo (some k) _ (fun j hj l hl => Nat.lt_trans (h.1 l hl) (hj k rfl)) (ih _ h.2.2)

/-- Clearing the slots of a queue or region keeps the canonical form. -/
theorem clearSlots_wf (s : Dev) (q : Nat) (h : Memory.wf s.mem) : Memory.wf (s.clearSlots q).mem := wfFrom_filter _ none _ h

/-- A slot write keeps it. -/
theorem writeSlot_wf (s : Dev) (n : Nat) (c : Cell) (h : Memory.wf s.mem) : Memory.wf (s.writeSlot n c).mem := slotPut_wf s.mem n c h

end Sys2Proof.Machine
end

