-- ==== Sys2Proof/Laws/Regs.lean ====
section
/-! SUPPORT. Laws of the register file: a field written reads back, and every other word is left. -/

namespace Sys2Proof.Machine

@[simp] theorem word_setWord_same (r : RegFile) (a : Nat) (w : Word) : (r.setWord a w).word a = w :=
  Sparse.get_set_same _ r a w

theorem word_setWord_other (r : RegFile) (a b : Nat) (w : Word) (h : b ≠ a) : (r.setWord a w).word b = r.word b :=
  Sparse.get_set_other _ r b a w h

/-- A field that lies inside its word. -/
def Reg.Fld.fits (f : Reg.Fld) : Prop := f.lo + f.width ≤ 64

/-- A field reads as it was put. -/
theorem fieldOf_putField_same (f : Reg.Fld) (w : Word) (v : Nat) (h : Reg.Fld.fits f) : fieldOf f (putField f w v) = v % 2 ^ f.width := by
  unfold Reg.Fld.fits at h
  unfold fieldOf putField
  apply Nat.eq_of_testBit_eq
  intro i
  simp only [Nat.testBit_mod_two_pow, Nat.testBit_shiftRight, BitVec.toNat_or, BitVec.toNat_and, BitVec.toNat_not, BitVec.toNat_ofNat,
    Nat.testBit_or, Nat.testBit_and]
  by_cases hi : i < f.width
  · have hlt : f.lo + i < 64 := by omega
    have e1 : (2 ^ 64 - 1 - (2 ^ f.width - 1) <<< f.lo % 2 ^ 64).testBit (f.lo + i) = false := by
      rw [show 2 ^ 64 - 1 - (2 ^ f.width - 1) <<< f.lo % 2 ^ 64 = 2 ^ 64 - ((2 ^ f.width - 1) <<< f.lo % 2 ^ 64 + 1) by omega]
      rw [Nat.testBit_two_pow_sub_succ (Nat.mod_lt _ (by decide))]
      simp only [Nat.testBit_mod_two_pow, Nat.testBit_shiftLeft, hlt, decide_true, Bool.true_and, ge_iff_le, Nat.le_add_right,
        Nat.add_sub_cancel_left, Nat.testBit_two_pow_sub_one, hi, Bool.not_true]
    simp only [e1, hi, hlt, decide_true, Bool.true_and, Bool.and_false, Bool.false_or, Nat.testBit_mod_two_pow, Nat.testBit_shiftLeft,
      ge_iff_le, Nat.le_add_right, Nat.add_sub_cancel_left]
  · simp [hi]

/-- A field outside the bits that are put is left. -/
theorem fieldOf_putField_other (f g : Reg.Fld) (w : Word) (v : Nat) (h : f.lo + f.width ≤ g.lo ∨ g.lo + g.width ≤ f.lo)
    (hg : Reg.Fld.fits g) : fieldOf g (putField f w v) = fieldOf g w := by
  unfold Reg.Fld.fits at hg
  unfold fieldOf putField
  apply Nat.eq_of_testBit_eq
  intro i
  simp only [Nat.testBit_mod_two_pow, Nat.testBit_shiftRight, BitVec.toNat_or, BitVec.toNat_and, BitVec.toNat_not, BitVec.toNat_ofNat,
    Nat.testBit_or, Nat.testBit_and]
  by_cases hi : i < g.width
  · have hlt : g.lo + i < 64 := by omega
    have e1 : (2 ^ 64 - 1 - (2 ^ f.width - 1) <<< f.lo % 2 ^ 64).testBit (g.lo + i) = true := by
      rw [show 2 ^ 64 - 1 - (2 ^ f.width - 1) <<< f.lo % 2 ^ 64 = 2 ^ 64 - ((2 ^ f.width - 1) <<< f.lo % 2 ^ 64 + 1) by omega]
      rw [Nat.testBit_two_pow_sub_succ (Nat.mod_lt _ (by decide))]
      rw [Nat.testBit_mod_two_pow, Nat.testBit_shiftLeft, Nat.testBit_two_pow_sub_one]
      by_cases hl : f.lo ≤ g.lo + i
      · have : ¬ (g.lo + i - f.lo < f.width) := by omega
        simp [hlt, this]
      · simp [hlt, hl]
    have e2 : ((v % 2 ^ f.width) <<< f.lo).testBit (g.lo + i) = false := by
      rw [Nat.testBit_shiftLeft, Nat.testBit_mod_two_pow]
      by_cases hl : f.lo ≤ g.lo + i
      · have : ¬ (g.lo + i - f.lo < f.width) := by omega
        simp [this]
      · simp [hl]
    simp only [e1, e2, hi, decide_true, Bool.true_and, Bool.and_true, Bool.and_false, Bool.or_false]
  · simp [hi]

/-- A field of a register reads as it was written. -/
theorem fld_setF_same (s : Dev) (f : Reg.Fld) (v i j k : Nat) (h : Reg.Fld.fits f) : (s.setF f v i j k).fld f i j k = v % 2 ^ f.width := by
  simp only [Dev.fld, Dev.setF, RegFile.fld, RegFile.setF, word_setWord_same, fieldOf_putField_same f _ v h]

/-- A field of another word is left. -/
theorem fld_setF_word (s : Dev) (f g : Reg.Fld) (v i j k i' j' k' : Nat) (h : g.addr i' j' k' ≠ f.addr i j k) :
    (s.setF f v i j k).fld g i' j' k' = s.fld g i' j' k' := by
  simp only [Dev.fld, Dev.setF, RegFile.fld, RegFile.setF, word_setWord_other _ _ _ _ h]

/-- Another field of the same word is left. -/
theorem fld_setF_field (s : Dev) (f g : Reg.Fld) (v i j k i' j' k' : Nat) (ha : g.addr i' j' k' = f.addr i j k)
    (h : f.lo + f.width ≤ g.lo ∨ g.lo + g.width ≤ f.lo) (hg : Reg.Fld.fits g) :
    (s.setF f v i j k).fld g i' j' k' = s.fld g i' j' k' := by
  simp only [Dev.fld, Dev.setF, RegFile.fld, RegFile.setF, ha, word_setWord_same, fieldOf_putField_other f g _ v h hg]

/-- A counter moved up saturates (R14). -/
theorem fld_bump_same (s : Dev) (f : Reg.Fld) (i j k n : Nat) (h : Reg.Fld.fits f) :
    (s.bump f i j k n).fld f i j k = min (s.fld f i j k + n) (2 ^ f.width - 1) := by
  unfold Dev.bump
  rw [fld_setF_same s f _ i j k h]
  apply Nat.mod_eq_of_lt
  have := Nat.two_pow_pos f.width
  omega

end Sys2Proof.Machine
end

