-- ==== Sys2Proof/Laws/Ring.lean ====
section
/-! SUPPORT. What a frame and a message of the ring that arrive do (R312, R314, R315), said once: the operations that act on them are
cited by these lemmas and not unfolded. -/

namespace Sys2Proof.Machine

/-- A data frame in sequence is accepted, and acted on. -/
theorem dataFrame_inSequence (s : Dev) (l : Link) (f : Option FrameSeq) (act : Dev → Dev) (h : InSequence s l f) :
    s.dataFrame l.val f act = act (accepted s l f) := by
  obtain ⟨hu, hs⟩ := h
  unfold Dev.dataFrame accepted
  cases f with
  | none => simp [hu]
  | some x => cases hx : x.ack <;> simp [hu, hs x rfl, hx]

/-- A first copy is remembered and acted on, where it is for everyone or for this device. -/
theorem ringIn_first (s : Dev) (l : Link) (m : RingMsg) (act : Dev → Dev) (h : FirstCopy s l m) :
    s.ringIn l.val m act =
      if m.broadcast || (heardFirst s l m).isDest m then act (heardFirst s l m) else heardFirst s l m := by
  obtain ⟨hq, ho, hf⟩ := h
  have ho' : ((accepted s l m.frame).ringForward l.val m).isOrigin m = false := ho
  have hf' : ((accepted s l m.frame).ringForward l.val m).firstCopy m = none := hf
  rw [Dev.ringIn, dataFrame_inSequence s l m.frame _ hq]
  simp only [ho', Dev.copyIn, hf', heardFirst, passedOn]
  simp

/-- Own messages go no further. -/
theorem ringIn_own (s : Dev) (l : Link) (m : RingMsg) (act : Dev → Dev) (h : InSequence s l m.frame)
    (ho : (passedOn s l m).isOrigin m = true) : s.ringIn l.val m act = passedOn s l m := by
  have ho' : ((accepted s l m.frame).ringForward l.val m).isOrigin m = true := ho
  rw [Dev.ringIn, dataFrame_inSequence s l m.frame _ h]
  simp [ho', passedOn]

end Sys2Proof.Machine
end

