-- ==== Sys2Proof/Laws/State.lean ====
section
/-! SUPPORT. One law per field and update of the device: an update of one field leaves every other, and reads back. -/

namespace Sys2Proof.Machine

@[simp] theorem Dev.setQueue_now (s : Dev) (i : Nat) (r : QRec) : (s.setQueue i r).now = s.now := rfl
@[simp] theorem Dev.setQueue_regs (s : Dev) (i : Nat) (r : QRec) : (s.setQueue i r).regs = s.regs := rfl
@[simp] theorem Dev.setQueue_workSets (s : Dev) (i : Nat) (r : QRec) : (s.setQueue i r).workSets = s.workSets := rfl
@[simp] theorem Dev.setQueue_mem (s : Dev) (i : Nat) (r : QRec) : (s.setQueue i r).mem = s.mem := rfl
@[simp] theorem Dev.setQueue_slotErrs (s : Dev) (i : Nat) (r : QRec) : (s.setQueue i r).slotErrs = s.slotErrs := rfl
@[simp] theorem Dev.setQueue_free (s : Dev) (i : Nat) (r : QRec) : (s.setQueue i r).free = s.free := rfl
@[simp] theorem Dev.setQueue_tb (s : Dev) (i : Nat) (r : QRec) : (s.setQueue i r).tb = s.tb := rfl
@[simp] theorem Dev.setQueue_straps (s : Dev) (i : Nat) (r : QRec) : (s.setQueue i r).straps = s.straps := rfl
@[simp] theorem Dev.setQueue_lastRead (s : Dev) (i : Nat) (r : QRec) : (s.setQueue i r).lastRead = s.lastRead := rfl
@[simp] theorem Dev.setQueue_lastStatus (s : Dev) (i : Nat) (r : QRec) : (s.setQueue i r).lastStatus = s.lastStatus := rfl
@[simp] theorem Dev.setQueue_lastGrain (s : Dev) (i : Nat) (r : QRec) : (s.setQueue i r).lastGrain = s.lastGrain := rfl
@[simp] theorem Dev.setQueue_halted (s : Dev) (i : Nat) (r : QRec) : (s.setQueue i r).halted = s.halted := rfl
@[simp] theorem Dev.setQueue_banks (s : Dev) (i : Nat) (r : QRec) : (s.setQueue i r).banks = s.banks := rfl
@[simp] theorem Dev.setQueue_evtSrcs (s : Dev) (i : Nat) (r : QRec) : (s.setQueue i r).evtSrcs = s.evtSrcs := rfl
@[simp] theorem Dev.setQueue_alarmUntil (s : Dev) (i : Nat) (r : QRec) : (s.setQueue i r).alarmUntil = s.alarmUntil := rfl
@[simp] theorem Dev.setQueue_parts (s : Dev) (i : Nat) (r : QRec) : (s.setQueue i r).parts = s.parts := rfl
@[simp] theorem Dev.setQueue_merges (s : Dev) (i : Nat) (r : QRec) : (s.setQueue i r).merges = s.merges := rfl
@[simp] theorem Dev.setQueue_breaks (s : Dev) (i : Nat) (r : QRec) : (s.setQueue i r).breaks = s.breaks := rfl
@[simp] theorem Dev.setQueue_twin (s : Dev) (i : Nat) (r : QRec) : (s.setQueue i r).twin = s.twin := rfl
@[simp] theorem Dev.setQueue_chans (s : Dev) (i : Nat) (r : QRec) : (s.setQueue i r).chans = s.chans := rfl
@[simp] theorem Dev.setQueue_streams (s : Dev) (i : Nat) (r : QRec) : (s.setQueue i r).streams = s.streams := rfl
@[simp] theorem Dev.setQueue_ports (s : Dev) (i : Nat) (r : QRec) : (s.setQueue i r).ports = s.ports := rfl
@[simp] theorem Dev.setQueue_ccis (s : Dev) (i : Nat) (r : QRec) : (s.setQueue i r).ccis = s.ccis := rfl
@[simp] theorem Dev.setQueue_encs (s : Dev) (i : Nat) (r : QRec) : (s.setQueue i r).encs = s.encs := rfl
@[simp] theorem Dev.setQueue_heads (s : Dev) (i : Nat) (r : QRec) : (s.setQueue i r).heads = s.heads := rfl
@[simp] theorem Dev.setQueue_strobes (s : Dev) (i : Nat) (r : QRec) : (s.setQueue i r).strobes = s.strobes := rfl
@[simp] theorem Dev.setQueue_marn (s : Dev) (i : Nat) (r : QRec) : (s.setQueue i r).marn = s.marn := rfl
@[simp] theorem Dev.setQueue_flanks (s : Dev) (i : Nat) (r : QRec) : (s.setQueue i r).flanks = s.flanks := rfl
@[simp] theorem Dev.setQueue_chain (s : Dev) (i : Nat) (r : QRec) : (s.setQueue i r).chain = s.chain := rfl
@[simp] theorem Dev.setQueue_plls (s : Dev) (i : Nat) (r : QRec) : (s.setQueue i r).plls = s.plls := rfl
@[simp] theorem Dev.setQueue_cals (s : Dev) (i : Nat) (r : QRec) : (s.setQueue i r).cals = s.cals := rfl
@[simp] theorem Dev.setQueue_start (s : Dev) (i : Nat) (r : QRec) : (s.setQueue i r).start = s.start := rfl
@[simp] theorem Dev.setQueue_tumbler (s : Dev) (i : Nat) (r : QRec) : (s.setQueue i r).tumbler = s.tumbler := rfl
@[simp] theorem Dev.setQueue_strapPins (s : Dev) (i : Nat) (r : QRec) : (s.setQueue i r).strapPins = s.strapPins := rfl
@[simp] theorem Dev.setQueue_time (s : Dev) (i : Nat) (r : QRec) : (s.setQueue i r).time = s.time := rfl
@[simp] theorem Dev.setQueue_latches (s : Dev) (i : Nat) (r : QRec) : (s.setQueue i r).latches = s.latches := rfl
@[simp] theorem Dev.setQueue_img (s : Dev) (i : Nat) (r : QRec) : (s.setQueue i r).img = s.img := rfl
@[simp] theorem Dev.setQueue_arms (s : Dev) (i : Nat) (r : QRec) : (s.setQueue i r).arms = s.arms := rfl
@[simp] theorem Dev.setQueue_tiles (s : Dev) (i : Nat) (r : QRec) : (s.setQueue i r).tiles = s.tiles := rfl
@[simp] theorem Dev.setQueue_kals (s : Dev) (i : Nat) (r : QRec) : (s.setQueue i r).kals = s.kals := rfl
@[simp] theorem Dev.setQueue_pgrs (s : Dev) (i : Nat) (r : QRec) : (s.setQueue i r).pgrs = s.pgrs := rfl
@[simp] theorem Dev.setQueue_jigs (s : Dev) (i : Nat) (r : QRec) : (s.setQueue i r).jigs = s.jigs := rfl
@[simp] theorem Dev.setQueue_abas (s : Dev) (i : Nat) (r : QRec) : (s.setQueue i r).abas = s.abas := rfl
@[simp] theorem Dev.setQueue_upls (s : Dev) (i : Nat) (r : QRec) : (s.setQueue i r).upls = s.upls := rfl
@[simp] theorem Dev.setQueue_kmp (s : Dev) (i : Nat) (r : QRec) : (s.setQueue i r).kmp = s.kmp := rfl
@[simp] theorem Dev.setQueue_boot (s : Dev) (i : Nat) (r : QRec) : (s.setQueue i r).boot = s.boot := rfl
@[simp] theorem Dev.setQueue_dbg (s : Dev) (i : Nat) (r : QRec) : (s.setQueue i r).dbg = s.dbg := rfl
@[simp] theorem Dev.setQueue_scrub (s : Dev) (i : Nat) (r : QRec) : (s.setQueue i r).scrub = s.scrub := rfl
@[simp] theorem Dev.setQueue_same (s : Dev) (i : Nat) (r : QRec) : (s.setQueue i r).queue i = r := Sparse.get_set_same _ _ i r
theorem Dev.setQueue_other (s : Dev) (i j : Nat) (r : QRec) (h : j ≠ i) : (s.setQueue i r).queue j = s.queue j :=
  Sparse.get_set_other _ _ j i r h

@[simp] theorem Dev.setBankDir_now (s : Dev) (i : Nat) (r : BankRec) : (s.setBankDir i r).now = s.now := rfl
@[simp] theorem Dev.setBankDir_regs (s : Dev) (i : Nat) (r : BankRec) : (s.setBankDir i r).regs = s.regs := rfl
@[simp] theorem Dev.setBankDir_workSets (s : Dev) (i : Nat) (r : BankRec) : (s.setBankDir i r).workSets = s.workSets := rfl
@[simp] theorem Dev.setBankDir_mem (s : Dev) (i : Nat) (r : BankRec) : (s.setBankDir i r).mem = s.mem := rfl
@[simp] theorem Dev.setBankDir_slotErrs (s : Dev) (i : Nat) (r : BankRec) : (s.setBankDir i r).slotErrs = s.slotErrs := rfl
@[simp] theorem Dev.setBankDir_free (s : Dev) (i : Nat) (r : BankRec) : (s.setBankDir i r).free = s.free := rfl
@[simp] theorem Dev.setBankDir_tb (s : Dev) (i : Nat) (r : BankRec) : (s.setBankDir i r).tb = s.tb := rfl
@[simp] theorem Dev.setBankDir_straps (s : Dev) (i : Nat) (r : BankRec) : (s.setBankDir i r).straps = s.straps := rfl
@[simp] theorem Dev.setBankDir_lastRead (s : Dev) (i : Nat) (r : BankRec) : (s.setBankDir i r).lastRead = s.lastRead := rfl
@[simp] theorem Dev.setBankDir_lastStatus (s : Dev) (i : Nat) (r : BankRec) : (s.setBankDir i r).lastStatus = s.lastStatus := rfl
@[simp] theorem Dev.setBankDir_lastGrain (s : Dev) (i : Nat) (r : BankRec) : (s.setBankDir i r).lastGrain = s.lastGrain := rfl
@[simp] theorem Dev.setBankDir_halted (s : Dev) (i : Nat) (r : BankRec) : (s.setBankDir i r).halted = s.halted := rfl
@[simp] theorem Dev.setBankDir_queues (s : Dev) (i : Nat) (r : BankRec) : (s.setBankDir i r).queues = s.queues := rfl
@[simp] theorem Dev.setBankDir_evtSrcs (s : Dev) (i : Nat) (r : BankRec) : (s.setBankDir i r).evtSrcs = s.evtSrcs := rfl
@[simp] theorem Dev.setBankDir_alarmUntil (s : Dev) (i : Nat) (r : BankRec) : (s.setBankDir i r).alarmUntil = s.alarmUntil := rfl
@[simp] theorem Dev.setBankDir_parts (s : Dev) (i : Nat) (r : BankRec) : (s.setBankDir i r).parts = s.parts := rfl
@[simp] theorem Dev.setBankDir_merges (s : Dev) (i : Nat) (r : BankRec) : (s.setBankDir i r).merges = s.merges := rfl
@[simp] theorem Dev.setBankDir_breaks (s : Dev) (i : Nat) (r : BankRec) : (s.setBankDir i r).breaks = s.breaks := rfl
@[simp] theorem Dev.setBankDir_twin (s : Dev) (i : Nat) (r : BankRec) : (s.setBankDir i r).twin = s.twin := rfl
@[simp] theorem Dev.setBankDir_chans (s : Dev) (i : Nat) (r : BankRec) : (s.setBankDir i r).chans = s.chans := rfl
@[simp] theorem Dev.setBankDir_streams (s : Dev) (i : Nat) (r : BankRec) : (s.setBankDir i r).streams = s.streams := rfl
@[simp] theorem Dev.setBankDir_ports (s : Dev) (i : Nat) (r : BankRec) : (s.setBankDir i r).ports = s.ports := rfl
@[simp] theorem Dev.setBankDir_ccis (s : Dev) (i : Nat) (r : BankRec) : (s.setBankDir i r).ccis = s.ccis := rfl
@[simp] theorem Dev.setBankDir_encs (s : Dev) (i : Nat) (r : BankRec) : (s.setBankDir i r).encs = s.encs := rfl
@[simp] theorem Dev.setBankDir_heads (s : Dev) (i : Nat) (r : BankRec) : (s.setBankDir i r).heads = s.heads := rfl
@[simp] theorem Dev.setBankDir_strobes (s : Dev) (i : Nat) (r : BankRec) : (s.setBankDir i r).strobes = s.strobes := rfl
@[simp] theorem Dev.setBankDir_marn (s : Dev) (i : Nat) (r : BankRec) : (s.setBankDir i r).marn = s.marn := rfl
@[simp] theorem Dev.setBankDir_flanks (s : Dev) (i : Nat) (r : BankRec) : (s.setBankDir i r).flanks = s.flanks := rfl
@[simp] theorem Dev.setBankDir_chain (s : Dev) (i : Nat) (r : BankRec) : (s.setBankDir i r).chain = s.chain := rfl
@[simp] theorem Dev.setBankDir_plls (s : Dev) (i : Nat) (r : BankRec) : (s.setBankDir i r).plls = s.plls := rfl
@[simp] theorem Dev.setBankDir_cals (s : Dev) (i : Nat) (r : BankRec) : (s.setBankDir i r).cals = s.cals := rfl
@[simp] theorem Dev.setBankDir_start (s : Dev) (i : Nat) (r : BankRec) : (s.setBankDir i r).start = s.start := rfl
@[simp] theorem Dev.setBankDir_tumbler (s : Dev) (i : Nat) (r : BankRec) : (s.setBankDir i r).tumbler = s.tumbler := rfl
@[simp] theorem Dev.setBankDir_strapPins (s : Dev) (i : Nat) (r : BankRec) : (s.setBankDir i r).strapPins = s.strapPins := rfl
@[simp] theorem Dev.setBankDir_time (s : Dev) (i : Nat) (r : BankRec) : (s.setBankDir i r).time = s.time := rfl
@[simp] theorem Dev.setBankDir_latches (s : Dev) (i : Nat) (r : BankRec) : (s.setBankDir i r).latches = s.latches := rfl
@[simp] theorem Dev.setBankDir_img (s : Dev) (i : Nat) (r : BankRec) : (s.setBankDir i r).img = s.img := rfl
@[simp] theorem Dev.setBankDir_arms (s : Dev) (i : Nat) (r : BankRec) : (s.setBankDir i r).arms = s.arms := rfl
@[simp] theorem Dev.setBankDir_tiles (s : Dev) (i : Nat) (r : BankRec) : (s.setBankDir i r).tiles = s.tiles := rfl
@[simp] theorem Dev.setBankDir_kals (s : Dev) (i : Nat) (r : BankRec) : (s.setBankDir i r).kals = s.kals := rfl
@[simp] theorem Dev.setBankDir_pgrs (s : Dev) (i : Nat) (r : BankRec) : (s.setBankDir i r).pgrs = s.pgrs := rfl
@[simp] theorem Dev.setBankDir_jigs (s : Dev) (i : Nat) (r : BankRec) : (s.setBankDir i r).jigs = s.jigs := rfl
@[simp] theorem Dev.setBankDir_abas (s : Dev) (i : Nat) (r : BankRec) : (s.setBankDir i r).abas = s.abas := rfl
@[simp] theorem Dev.setBankDir_upls (s : Dev) (i : Nat) (r : BankRec) : (s.setBankDir i r).upls = s.upls := rfl
@[simp] theorem Dev.setBankDir_kmp (s : Dev) (i : Nat) (r : BankRec) : (s.setBankDir i r).kmp = s.kmp := rfl
@[simp] theorem Dev.setBankDir_boot (s : Dev) (i : Nat) (r : BankRec) : (s.setBankDir i r).boot = s.boot := rfl
@[simp] theorem Dev.setBankDir_dbg (s : Dev) (i : Nat) (r : BankRec) : (s.setBankDir i r).dbg = s.dbg := rfl
@[simp] theorem Dev.setBankDir_scrub (s : Dev) (i : Nat) (r : BankRec) : (s.setBankDir i r).scrub = s.scrub := rfl
@[simp] theorem Dev.setBankDir_same (s : Dev) (i : Nat) (r : BankRec) : (s.setBankDir i r).bankDir i = r := Sparse.get_set_same _ _ i r
theorem Dev.setBankDir_other (s : Dev) (i j : Nat) (r : BankRec) (h : j ≠ i) : (s.setBankDir i r).bankDir j = s.bankDir j :=
  Sparse.get_set_other _ _ j i r h

@[simp] theorem Dev.setEvtSrc_now (s : Dev) (i : Nat) (r : EvtSrc) : (s.setEvtSrc i r).now = s.now := rfl
@[simp] theorem Dev.setEvtSrc_regs (s : Dev) (i : Nat) (r : EvtSrc) : (s.setEvtSrc i r).regs = s.regs := rfl
@[simp] theorem Dev.setEvtSrc_workSets (s : Dev) (i : Nat) (r : EvtSrc) : (s.setEvtSrc i r).workSets = s.workSets := rfl
@[simp] theorem Dev.setEvtSrc_mem (s : Dev) (i : Nat) (r : EvtSrc) : (s.setEvtSrc i r).mem = s.mem := rfl
@[simp] theorem Dev.setEvtSrc_slotErrs (s : Dev) (i : Nat) (r : EvtSrc) : (s.setEvtSrc i r).slotErrs = s.slotErrs := rfl
@[simp] theorem Dev.setEvtSrc_free (s : Dev) (i : Nat) (r : EvtSrc) : (s.setEvtSrc i r).free = s.free := rfl
@[simp] theorem Dev.setEvtSrc_tb (s : Dev) (i : Nat) (r : EvtSrc) : (s.setEvtSrc i r).tb = s.tb := rfl
@[simp] theorem Dev.setEvtSrc_straps (s : Dev) (i : Nat) (r : EvtSrc) : (s.setEvtSrc i r).straps = s.straps := rfl
@[simp] theorem Dev.setEvtSrc_lastRead (s : Dev) (i : Nat) (r : EvtSrc) : (s.setEvtSrc i r).lastRead = s.lastRead := rfl
@[simp] theorem Dev.setEvtSrc_lastStatus (s : Dev) (i : Nat) (r : EvtSrc) : (s.setEvtSrc i r).lastStatus = s.lastStatus := rfl
@[simp] theorem Dev.setEvtSrc_lastGrain (s : Dev) (i : Nat) (r : EvtSrc) : (s.setEvtSrc i r).lastGrain = s.lastGrain := rfl
@[simp] theorem Dev.setEvtSrc_halted (s : Dev) (i : Nat) (r : EvtSrc) : (s.setEvtSrc i r).halted = s.halted := rfl
@[simp] theorem Dev.setEvtSrc_queues (s : Dev) (i : Nat) (r : EvtSrc) : (s.setEvtSrc i r).queues = s.queues := rfl
@[simp] theorem Dev.setEvtSrc_banks (s : Dev) (i : Nat) (r : EvtSrc) : (s.setEvtSrc i r).banks = s.banks := rfl
@[simp] theorem Dev.setEvtSrc_alarmUntil (s : Dev) (i : Nat) (r : EvtSrc) : (s.setEvtSrc i r).alarmUntil = s.alarmUntil := rfl
@[simp] theorem Dev.setEvtSrc_parts (s : Dev) (i : Nat) (r : EvtSrc) : (s.setEvtSrc i r).parts = s.parts := rfl
@[simp] theorem Dev.setEvtSrc_merges (s : Dev) (i : Nat) (r : EvtSrc) : (s.setEvtSrc i r).merges = s.merges := rfl
@[simp] theorem Dev.setEvtSrc_breaks (s : Dev) (i : Nat) (r : EvtSrc) : (s.setEvtSrc i r).breaks = s.breaks := rfl
@[simp] theorem Dev.setEvtSrc_twin (s : Dev) (i : Nat) (r : EvtSrc) : (s.setEvtSrc i r).twin = s.twin := rfl
@[simp] theorem Dev.setEvtSrc_chans (s : Dev) (i : Nat) (r : EvtSrc) : (s.setEvtSrc i r).chans = s.chans := rfl
@[simp] theorem Dev.setEvtSrc_streams (s : Dev) (i : Nat) (r : EvtSrc) : (s.setEvtSrc i r).streams = s.streams := rfl
@[simp] theorem Dev.setEvtSrc_ports (s : Dev) (i : Nat) (r : EvtSrc) : (s.setEvtSrc i r).ports = s.ports := rfl
@[simp] theorem Dev.setEvtSrc_ccis (s : Dev) (i : Nat) (r : EvtSrc) : (s.setEvtSrc i r).ccis = s.ccis := rfl
@[simp] theorem Dev.setEvtSrc_encs (s : Dev) (i : Nat) (r : EvtSrc) : (s.setEvtSrc i r).encs = s.encs := rfl
@[simp] theorem Dev.setEvtSrc_heads (s : Dev) (i : Nat) (r : EvtSrc) : (s.setEvtSrc i r).heads = s.heads := rfl
@[simp] theorem Dev.setEvtSrc_strobes (s : Dev) (i : Nat) (r : EvtSrc) : (s.setEvtSrc i r).strobes = s.strobes := rfl
@[simp] theorem Dev.setEvtSrc_marn (s : Dev) (i : Nat) (r : EvtSrc) : (s.setEvtSrc i r).marn = s.marn := rfl
@[simp] theorem Dev.setEvtSrc_flanks (s : Dev) (i : Nat) (r : EvtSrc) : (s.setEvtSrc i r).flanks = s.flanks := rfl
@[simp] theorem Dev.setEvtSrc_chain (s : Dev) (i : Nat) (r : EvtSrc) : (s.setEvtSrc i r).chain = s.chain := rfl
@[simp] theorem Dev.setEvtSrc_plls (s : Dev) (i : Nat) (r : EvtSrc) : (s.setEvtSrc i r).plls = s.plls := rfl
@[simp] theorem Dev.setEvtSrc_cals (s : Dev) (i : Nat) (r : EvtSrc) : (s.setEvtSrc i r).cals = s.cals := rfl
@[simp] theorem Dev.setEvtSrc_start (s : Dev) (i : Nat) (r : EvtSrc) : (s.setEvtSrc i r).start = s.start := rfl
@[simp] theorem Dev.setEvtSrc_tumbler (s : Dev) (i : Nat) (r : EvtSrc) : (s.setEvtSrc i r).tumbler = s.tumbler := rfl
@[simp] theorem Dev.setEvtSrc_strapPins (s : Dev) (i : Nat) (r : EvtSrc) : (s.setEvtSrc i r).strapPins = s.strapPins := rfl
@[simp] theorem Dev.setEvtSrc_time (s : Dev) (i : Nat) (r : EvtSrc) : (s.setEvtSrc i r).time = s.time := rfl
@[simp] theorem Dev.setEvtSrc_latches (s : Dev) (i : Nat) (r : EvtSrc) : (s.setEvtSrc i r).latches = s.latches := rfl
@[simp] theorem Dev.setEvtSrc_img (s : Dev) (i : Nat) (r : EvtSrc) : (s.setEvtSrc i r).img = s.img := rfl
@[simp] theorem Dev.setEvtSrc_arms (s : Dev) (i : Nat) (r : EvtSrc) : (s.setEvtSrc i r).arms = s.arms := rfl
@[simp] theorem Dev.setEvtSrc_tiles (s : Dev) (i : Nat) (r : EvtSrc) : (s.setEvtSrc i r).tiles = s.tiles := rfl
@[simp] theorem Dev.setEvtSrc_kals (s : Dev) (i : Nat) (r : EvtSrc) : (s.setEvtSrc i r).kals = s.kals := rfl
@[simp] theorem Dev.setEvtSrc_pgrs (s : Dev) (i : Nat) (r : EvtSrc) : (s.setEvtSrc i r).pgrs = s.pgrs := rfl
@[simp] theorem Dev.setEvtSrc_jigs (s : Dev) (i : Nat) (r : EvtSrc) : (s.setEvtSrc i r).jigs = s.jigs := rfl
@[simp] theorem Dev.setEvtSrc_abas (s : Dev) (i : Nat) (r : EvtSrc) : (s.setEvtSrc i r).abas = s.abas := rfl
@[simp] theorem Dev.setEvtSrc_upls (s : Dev) (i : Nat) (r : EvtSrc) : (s.setEvtSrc i r).upls = s.upls := rfl
@[simp] theorem Dev.setEvtSrc_kmp (s : Dev) (i : Nat) (r : EvtSrc) : (s.setEvtSrc i r).kmp = s.kmp := rfl
@[simp] theorem Dev.setEvtSrc_boot (s : Dev) (i : Nat) (r : EvtSrc) : (s.setEvtSrc i r).boot = s.boot := rfl
@[simp] theorem Dev.setEvtSrc_dbg (s : Dev) (i : Nat) (r : EvtSrc) : (s.setEvtSrc i r).dbg = s.dbg := rfl
@[simp] theorem Dev.setEvtSrc_scrub (s : Dev) (i : Nat) (r : EvtSrc) : (s.setEvtSrc i r).scrub = s.scrub := rfl
@[simp] theorem Dev.setEvtSrc_same (s : Dev) (i : Nat) (r : EvtSrc) : (s.setEvtSrc i r).evtSrc i = r := Sparse.get_set_same _ _ i r
theorem Dev.setEvtSrc_other (s : Dev) (i j : Nat) (r : EvtSrc) (h : j ≠ i) : (s.setEvtSrc i r).evtSrc j = s.evtSrc j :=
  Sparse.get_set_other _ _ j i r h

@[simp] theorem Dev.setAlarmHold_now (s : Dev) (i : Nat) (r : Nat) : (s.setAlarmHold i r).now = s.now := rfl
@[simp] theorem Dev.setAlarmHold_regs (s : Dev) (i : Nat) (r : Nat) : (s.setAlarmHold i r).regs = s.regs := rfl
@[simp] theorem Dev.setAlarmHold_workSets (s : Dev) (i : Nat) (r : Nat) : (s.setAlarmHold i r).workSets = s.workSets := rfl
@[simp] theorem Dev.setAlarmHold_mem (s : Dev) (i : Nat) (r : Nat) : (s.setAlarmHold i r).mem = s.mem := rfl
@[simp] theorem Dev.setAlarmHold_slotErrs (s : Dev) (i : Nat) (r : Nat) : (s.setAlarmHold i r).slotErrs = s.slotErrs := rfl
@[simp] theorem Dev.setAlarmHold_free (s : Dev) (i : Nat) (r : Nat) : (s.setAlarmHold i r).free = s.free := rfl
@[simp] theorem Dev.setAlarmHold_tb (s : Dev) (i : Nat) (r : Nat) : (s.setAlarmHold i r).tb = s.tb := rfl
@[simp] theorem Dev.setAlarmHold_straps (s : Dev) (i : Nat) (r : Nat) : (s.setAlarmHold i r).straps = s.straps := rfl
@[simp] theorem Dev.setAlarmHold_lastRead (s : Dev) (i : Nat) (r : Nat) : (s.setAlarmHold i r).lastRead = s.lastRead := rfl
@[simp] theorem Dev.setAlarmHold_lastStatus (s : Dev) (i : Nat) (r : Nat) : (s.setAlarmHold i r).lastStatus = s.lastStatus := rfl
@[simp] theorem Dev.setAlarmHold_lastGrain (s : Dev) (i : Nat) (r : Nat) : (s.setAlarmHold i r).lastGrain = s.lastGrain := rfl
@[simp] theorem Dev.setAlarmHold_halted (s : Dev) (i : Nat) (r : Nat) : (s.setAlarmHold i r).halted = s.halted := rfl
@[simp] theorem Dev.setAlarmHold_queues (s : Dev) (i : Nat) (r : Nat) : (s.setAlarmHold i r).queues = s.queues := rfl
@[simp] theorem Dev.setAlarmHold_banks (s : Dev) (i : Nat) (r : Nat) : (s.setAlarmHold i r).banks = s.banks := rfl
@[simp] theorem Dev.setAlarmHold_evtSrcs (s : Dev) (i : Nat) (r : Nat) : (s.setAlarmHold i r).evtSrcs = s.evtSrcs := rfl
@[simp] theorem Dev.setAlarmHold_parts (s : Dev) (i : Nat) (r : Nat) : (s.setAlarmHold i r).parts = s.parts := rfl
@[simp] theorem Dev.setAlarmHold_merges (s : Dev) (i : Nat) (r : Nat) : (s.setAlarmHold i r).merges = s.merges := rfl
@[simp] theorem Dev.setAlarmHold_breaks (s : Dev) (i : Nat) (r : Nat) : (s.setAlarmHold i r).breaks = s.breaks := rfl
@[simp] theorem Dev.setAlarmHold_twin (s : Dev) (i : Nat) (r : Nat) : (s.setAlarmHold i r).twin = s.twin := rfl
@[simp] theorem Dev.setAlarmHold_chans (s : Dev) (i : Nat) (r : Nat) : (s.setAlarmHold i r).chans = s.chans := rfl
@[simp] theorem Dev.setAlarmHold_streams (s : Dev) (i : Nat) (r : Nat) : (s.setAlarmHold i r).streams = s.streams := rfl
@[simp] theorem Dev.setAlarmHold_ports (s : Dev) (i : Nat) (r : Nat) : (s.setAlarmHold i r).ports = s.ports := rfl
@[simp] theorem Dev.setAlarmHold_ccis (s : Dev) (i : Nat) (r : Nat) : (s.setAlarmHold i r).ccis = s.ccis := rfl
@[simp] theorem Dev.setAlarmHold_encs (s : Dev) (i : Nat) (r : Nat) : (s.setAlarmHold i r).encs = s.encs := rfl
@[simp] theorem Dev.setAlarmHold_heads (s : Dev) (i : Nat) (r : Nat) : (s.setAlarmHold i r).heads = s.heads := rfl
@[simp] theorem Dev.setAlarmHold_strobes (s : Dev) (i : Nat) (r : Nat) : (s.setAlarmHold i r).strobes = s.strobes := rfl
@[simp] theorem Dev.setAlarmHold_marn (s : Dev) (i : Nat) (r : Nat) : (s.setAlarmHold i r).marn = s.marn := rfl
@[simp] theorem Dev.setAlarmHold_flanks (s : Dev) (i : Nat) (r : Nat) : (s.setAlarmHold i r).flanks = s.flanks := rfl
@[simp] theorem Dev.setAlarmHold_chain (s : Dev) (i : Nat) (r : Nat) : (s.setAlarmHold i r).chain = s.chain := rfl
@[simp] theorem Dev.setAlarmHold_plls (s : Dev) (i : Nat) (r : Nat) : (s.setAlarmHold i r).plls = s.plls := rfl
@[simp] theorem Dev.setAlarmHold_cals (s : Dev) (i : Nat) (r : Nat) : (s.setAlarmHold i r).cals = s.cals := rfl
@[simp] theorem Dev.setAlarmHold_start (s : Dev) (i : Nat) (r : Nat) : (s.setAlarmHold i r).start = s.start := rfl
@[simp] theorem Dev.setAlarmHold_tumbler (s : Dev) (i : Nat) (r : Nat) : (s.setAlarmHold i r).tumbler = s.tumbler := rfl
@[simp] theorem Dev.setAlarmHold_strapPins (s : Dev) (i : Nat) (r : Nat) : (s.setAlarmHold i r).strapPins = s.strapPins := rfl
@[simp] theorem Dev.setAlarmHold_time (s : Dev) (i : Nat) (r : Nat) : (s.setAlarmHold i r).time = s.time := rfl
@[simp] theorem Dev.setAlarmHold_latches (s : Dev) (i : Nat) (r : Nat) : (s.setAlarmHold i r).latches = s.latches := rfl
@[simp] theorem Dev.setAlarmHold_img (s : Dev) (i : Nat) (r : Nat) : (s.setAlarmHold i r).img = s.img := rfl
@[simp] theorem Dev.setAlarmHold_arms (s : Dev) (i : Nat) (r : Nat) : (s.setAlarmHold i r).arms = s.arms := rfl
@[simp] theorem Dev.setAlarmHold_tiles (s : Dev) (i : Nat) (r : Nat) : (s.setAlarmHold i r).tiles = s.tiles := rfl
@[simp] theorem Dev.setAlarmHold_kals (s : Dev) (i : Nat) (r : Nat) : (s.setAlarmHold i r).kals = s.kals := rfl
@[simp] theorem Dev.setAlarmHold_pgrs (s : Dev) (i : Nat) (r : Nat) : (s.setAlarmHold i r).pgrs = s.pgrs := rfl
@[simp] theorem Dev.setAlarmHold_jigs (s : Dev) (i : Nat) (r : Nat) : (s.setAlarmHold i r).jigs = s.jigs := rfl
@[simp] theorem Dev.setAlarmHold_abas (s : Dev) (i : Nat) (r : Nat) : (s.setAlarmHold i r).abas = s.abas := rfl
@[simp] theorem Dev.setAlarmHold_upls (s : Dev) (i : Nat) (r : Nat) : (s.setAlarmHold i r).upls = s.upls := rfl
@[simp] theorem Dev.setAlarmHold_kmp (s : Dev) (i : Nat) (r : Nat) : (s.setAlarmHold i r).kmp = s.kmp := rfl
@[simp] theorem Dev.setAlarmHold_boot (s : Dev) (i : Nat) (r : Nat) : (s.setAlarmHold i r).boot = s.boot := rfl
@[simp] theorem Dev.setAlarmHold_dbg (s : Dev) (i : Nat) (r : Nat) : (s.setAlarmHold i r).dbg = s.dbg := rfl
@[simp] theorem Dev.setAlarmHold_scrub (s : Dev) (i : Nat) (r : Nat) : (s.setAlarmHold i r).scrub = s.scrub := rfl
@[simp] theorem Dev.setAlarmHold_same (s : Dev) (i : Nat) (r : Nat) : (s.setAlarmHold i r).alarmHold i = r := Sparse.get_set_same _ _ i r
theorem Dev.setAlarmHold_other (s : Dev) (i j : Nat) (r : Nat) (h : j ≠ i) : (s.setAlarmHold i r).alarmHold j = s.alarmHold j :=
  Sparse.get_set_other _ _ j i r h

@[simp] theorem Dev.setPart_now (s : Dev) (i : Nat) (r : PartRec) : (s.setPart i r).now = s.now := rfl
@[simp] theorem Dev.setPart_regs (s : Dev) (i : Nat) (r : PartRec) : (s.setPart i r).regs = s.regs := rfl
@[simp] theorem Dev.setPart_workSets (s : Dev) (i : Nat) (r : PartRec) : (s.setPart i r).workSets = s.workSets := rfl
@[simp] theorem Dev.setPart_mem (s : Dev) (i : Nat) (r : PartRec) : (s.setPart i r).mem = s.mem := rfl
@[simp] theorem Dev.setPart_slotErrs (s : Dev) (i : Nat) (r : PartRec) : (s.setPart i r).slotErrs = s.slotErrs := rfl
@[simp] theorem Dev.setPart_free (s : Dev) (i : Nat) (r : PartRec) : (s.setPart i r).free = s.free := rfl
@[simp] theorem Dev.setPart_tb (s : Dev) (i : Nat) (r : PartRec) : (s.setPart i r).tb = s.tb := rfl
@[simp] theorem Dev.setPart_straps (s : Dev) (i : Nat) (r : PartRec) : (s.setPart i r).straps = s.straps := rfl
@[simp] theorem Dev.setPart_lastRead (s : Dev) (i : Nat) (r : PartRec) : (s.setPart i r).lastRead = s.lastRead := rfl
@[simp] theorem Dev.setPart_lastStatus (s : Dev) (i : Nat) (r : PartRec) : (s.setPart i r).lastStatus = s.lastStatus := rfl
@[simp] theorem Dev.setPart_lastGrain (s : Dev) (i : Nat) (r : PartRec) : (s.setPart i r).lastGrain = s.lastGrain := rfl
@[simp] theorem Dev.setPart_halted (s : Dev) (i : Nat) (r : PartRec) : (s.setPart i r).halted = s.halted := rfl
@[simp] theorem Dev.setPart_queues (s : Dev) (i : Nat) (r : PartRec) : (s.setPart i r).queues = s.queues := rfl
@[simp] theorem Dev.setPart_banks (s : Dev) (i : Nat) (r : PartRec) : (s.setPart i r).banks = s.banks := rfl
@[simp] theorem Dev.setPart_evtSrcs (s : Dev) (i : Nat) (r : PartRec) : (s.setPart i r).evtSrcs = s.evtSrcs := rfl
@[simp] theorem Dev.setPart_alarmUntil (s : Dev) (i : Nat) (r : PartRec) : (s.setPart i r).alarmUntil = s.alarmUntil := rfl
@[simp] theorem Dev.setPart_merges (s : Dev) (i : Nat) (r : PartRec) : (s.setPart i r).merges = s.merges := rfl
@[simp] theorem Dev.setPart_breaks (s : Dev) (i : Nat) (r : PartRec) : (s.setPart i r).breaks = s.breaks := rfl
@[simp] theorem Dev.setPart_twin (s : Dev) (i : Nat) (r : PartRec) : (s.setPart i r).twin = s.twin := rfl
@[simp] theorem Dev.setPart_chans (s : Dev) (i : Nat) (r : PartRec) : (s.setPart i r).chans = s.chans := rfl
@[simp] theorem Dev.setPart_streams (s : Dev) (i : Nat) (r : PartRec) : (s.setPart i r).streams = s.streams := rfl
@[simp] theorem Dev.setPart_ports (s : Dev) (i : Nat) (r : PartRec) : (s.setPart i r).ports = s.ports := rfl
@[simp] theorem Dev.setPart_ccis (s : Dev) (i : Nat) (r : PartRec) : (s.setPart i r).ccis = s.ccis := rfl
@[simp] theorem Dev.setPart_encs (s : Dev) (i : Nat) (r : PartRec) : (s.setPart i r).encs = s.encs := rfl
@[simp] theorem Dev.setPart_heads (s : Dev) (i : Nat) (r : PartRec) : (s.setPart i r).heads = s.heads := rfl
@[simp] theorem Dev.setPart_strobes (s : Dev) (i : Nat) (r : PartRec) : (s.setPart i r).strobes = s.strobes := rfl
@[simp] theorem Dev.setPart_marn (s : Dev) (i : Nat) (r : PartRec) : (s.setPart i r).marn = s.marn := rfl
@[simp] theorem Dev.setPart_flanks (s : Dev) (i : Nat) (r : PartRec) : (s.setPart i r).flanks = s.flanks := rfl
@[simp] theorem Dev.setPart_chain (s : Dev) (i : Nat) (r : PartRec) : (s.setPart i r).chain = s.chain := rfl
@[simp] theorem Dev.setPart_plls (s : Dev) (i : Nat) (r : PartRec) : (s.setPart i r).plls = s.plls := rfl
@[simp] theorem Dev.setPart_cals (s : Dev) (i : Nat) (r : PartRec) : (s.setPart i r).cals = s.cals := rfl
@[simp] theorem Dev.setPart_start (s : Dev) (i : Nat) (r : PartRec) : (s.setPart i r).start = s.start := rfl
@[simp] theorem Dev.setPart_tumbler (s : Dev) (i : Nat) (r : PartRec) : (s.setPart i r).tumbler = s.tumbler := rfl
@[simp] theorem Dev.setPart_strapPins (s : Dev) (i : Nat) (r : PartRec) : (s.setPart i r).strapPins = s.strapPins := rfl
@[simp] theorem Dev.setPart_time (s : Dev) (i : Nat) (r : PartRec) : (s.setPart i r).time = s.time := rfl
@[simp] theorem Dev.setPart_latches (s : Dev) (i : Nat) (r : PartRec) : (s.setPart i r).latches = s.latches := rfl
@[simp] theorem Dev.setPart_img (s : Dev) (i : Nat) (r : PartRec) : (s.setPart i r).img = s.img := rfl
@[simp] theorem Dev.setPart_arms (s : Dev) (i : Nat) (r : PartRec) : (s.setPart i r).arms = s.arms := rfl
@[simp] theorem Dev.setPart_tiles (s : Dev) (i : Nat) (r : PartRec) : (s.setPart i r).tiles = s.tiles := rfl
@[simp] theorem Dev.setPart_kals (s : Dev) (i : Nat) (r : PartRec) : (s.setPart i r).kals = s.kals := rfl
@[simp] theorem Dev.setPart_pgrs (s : Dev) (i : Nat) (r : PartRec) : (s.setPart i r).pgrs = s.pgrs := rfl
@[simp] theorem Dev.setPart_jigs (s : Dev) (i : Nat) (r : PartRec) : (s.setPart i r).jigs = s.jigs := rfl
@[simp] theorem Dev.setPart_abas (s : Dev) (i : Nat) (r : PartRec) : (s.setPart i r).abas = s.abas := rfl
@[simp] theorem Dev.setPart_upls (s : Dev) (i : Nat) (r : PartRec) : (s.setPart i r).upls = s.upls := rfl
@[simp] theorem Dev.setPart_kmp (s : Dev) (i : Nat) (r : PartRec) : (s.setPart i r).kmp = s.kmp := rfl
@[simp] theorem Dev.setPart_boot (s : Dev) (i : Nat) (r : PartRec) : (s.setPart i r).boot = s.boot := rfl
@[simp] theorem Dev.setPart_dbg (s : Dev) (i : Nat) (r : PartRec) : (s.setPart i r).dbg = s.dbg := rfl
@[simp] theorem Dev.setPart_scrub (s : Dev) (i : Nat) (r : PartRec) : (s.setPart i r).scrub = s.scrub := rfl
@[simp] theorem Dev.setPart_same (s : Dev) (i : Nat) (r : PartRec) : (s.setPart i r).part i = r := Sparse.get_set_same _ _ i r
theorem Dev.setPart_other (s : Dev) (i j : Nat) (r : PartRec) (h : j ≠ i) : (s.setPart i r).part j = s.part j :=
  Sparse.get_set_other _ _ j i r h

@[simp] theorem Dev.setMerge_now (s : Dev) (i : Nat) (r : MergeRec) : (s.setMerge i r).now = s.now := rfl
@[simp] theorem Dev.setMerge_regs (s : Dev) (i : Nat) (r : MergeRec) : (s.setMerge i r).regs = s.regs := rfl
@[simp] theorem Dev.setMerge_workSets (s : Dev) (i : Nat) (r : MergeRec) : (s.setMerge i r).workSets = s.workSets := rfl
@[simp] theorem Dev.setMerge_mem (s : Dev) (i : Nat) (r : MergeRec) : (s.setMerge i r).mem = s.mem := rfl
@[simp] theorem Dev.setMerge_slotErrs (s : Dev) (i : Nat) (r : MergeRec) : (s.setMerge i r).slotErrs = s.slotErrs := rfl
@[simp] theorem Dev.setMerge_free (s : Dev) (i : Nat) (r : MergeRec) : (s.setMerge i r).free = s.free := rfl
@[simp] theorem Dev.setMerge_tb (s : Dev) (i : Nat) (r : MergeRec) : (s.setMerge i r).tb = s.tb := rfl
@[simp] theorem Dev.setMerge_straps (s : Dev) (i : Nat) (r : MergeRec) : (s.setMerge i r).straps = s.straps := rfl
@[simp] theorem Dev.setMerge_lastRead (s : Dev) (i : Nat) (r : MergeRec) : (s.setMerge i r).lastRead = s.lastRead := rfl
@[simp] theorem Dev.setMerge_lastStatus (s : Dev) (i : Nat) (r : MergeRec) : (s.setMerge i r).lastStatus = s.lastStatus := rfl
@[simp] theorem Dev.setMerge_lastGrain (s : Dev) (i : Nat) (r : MergeRec) : (s.setMerge i r).lastGrain = s.lastGrain := rfl
@[simp] theorem Dev.setMerge_halted (s : Dev) (i : Nat) (r : MergeRec) : (s.setMerge i r).halted = s.halted := rfl
@[simp] theorem Dev.setMerge_queues (s : Dev) (i : Nat) (r : MergeRec) : (s.setMerge i r).queues = s.queues := rfl
@[simp] theorem Dev.setMerge_banks (s : Dev) (i : Nat) (r : MergeRec) : (s.setMerge i r).banks = s.banks := rfl
@[simp] theorem Dev.setMerge_evtSrcs (s : Dev) (i : Nat) (r : MergeRec) : (s.setMerge i r).evtSrcs = s.evtSrcs := rfl
@[simp] theorem Dev.setMerge_alarmUntil (s : Dev) (i : Nat) (r : MergeRec) : (s.setMerge i r).alarmUntil = s.alarmUntil := rfl
@[simp] theorem Dev.setMerge_parts (s : Dev) (i : Nat) (r : MergeRec) : (s.setMerge i r).parts = s.parts := rfl
@[simp] theorem Dev.setMerge_breaks (s : Dev) (i : Nat) (r : MergeRec) : (s.setMerge i r).breaks = s.breaks := rfl
@[simp] theorem Dev.setMerge_twin (s : Dev) (i : Nat) (r : MergeRec) : (s.setMerge i r).twin = s.twin := rfl
@[simp] theorem Dev.setMerge_chans (s : Dev) (i : Nat) (r : MergeRec) : (s.setMerge i r).chans = s.chans := rfl
@[simp] theorem Dev.setMerge_streams (s : Dev) (i : Nat) (r : MergeRec) : (s.setMerge i r).streams = s.streams := rfl
@[simp] theorem Dev.setMerge_ports (s : Dev) (i : Nat) (r : MergeRec) : (s.setMerge i r).ports = s.ports := rfl
@[simp] theorem Dev.setMerge_ccis (s : Dev) (i : Nat) (r : MergeRec) : (s.setMerge i r).ccis = s.ccis := rfl
@[simp] theorem Dev.setMerge_encs (s : Dev) (i : Nat) (r : MergeRec) : (s.setMerge i r).encs = s.encs := rfl
@[simp] theorem Dev.setMerge_heads (s : Dev) (i : Nat) (r : MergeRec) : (s.setMerge i r).heads = s.heads := rfl
@[simp] theorem Dev.setMerge_strobes (s : Dev) (i : Nat) (r : MergeRec) : (s.setMerge i r).strobes = s.strobes := rfl
@[simp] theorem Dev.setMerge_marn (s : Dev) (i : Nat) (r : MergeRec) : (s.setMerge i r).marn = s.marn := rfl
@[simp] theorem Dev.setMerge_flanks (s : Dev) (i : Nat) (r : MergeRec) : (s.setMerge i r).flanks = s.flanks := rfl
@[simp] theorem Dev.setMerge_chain (s : Dev) (i : Nat) (r : MergeRec) : (s.setMerge i r).chain = s.chain := rfl
@[simp] theorem Dev.setMerge_plls (s : Dev) (i : Nat) (r : MergeRec) : (s.setMerge i r).plls = s.plls := rfl
@[simp] theorem Dev.setMerge_cals (s : Dev) (i : Nat) (r : MergeRec) : (s.setMerge i r).cals = s.cals := rfl
@[simp] theorem Dev.setMerge_start (s : Dev) (i : Nat) (r : MergeRec) : (s.setMerge i r).start = s.start := rfl
@[simp] theorem Dev.setMerge_tumbler (s : Dev) (i : Nat) (r : MergeRec) : (s.setMerge i r).tumbler = s.tumbler := rfl
@[simp] theorem Dev.setMerge_strapPins (s : Dev) (i : Nat) (r : MergeRec) : (s.setMerge i r).strapPins = s.strapPins := rfl
@[simp] theorem Dev.setMerge_time (s : Dev) (i : Nat) (r : MergeRec) : (s.setMerge i r).time = s.time := rfl
@[simp] theorem Dev.setMerge_latches (s : Dev) (i : Nat) (r : MergeRec) : (s.setMerge i r).latches = s.latches := rfl
@[simp] theorem Dev.setMerge_img (s : Dev) (i : Nat) (r : MergeRec) : (s.setMerge i r).img = s.img := rfl
@[simp] theorem Dev.setMerge_arms (s : Dev) (i : Nat) (r : MergeRec) : (s.setMerge i r).arms = s.arms := rfl
@[simp] theorem Dev.setMerge_tiles (s : Dev) (i : Nat) (r : MergeRec) : (s.setMerge i r).tiles = s.tiles := rfl
@[simp] theorem Dev.setMerge_kals (s : Dev) (i : Nat) (r : MergeRec) : (s.setMerge i r).kals = s.kals := rfl
@[simp] theorem Dev.setMerge_pgrs (s : Dev) (i : Nat) (r : MergeRec) : (s.setMerge i r).pgrs = s.pgrs := rfl
@[simp] theorem Dev.setMerge_jigs (s : Dev) (i : Nat) (r : MergeRec) : (s.setMerge i r).jigs = s.jigs := rfl
@[simp] theorem Dev.setMerge_abas (s : Dev) (i : Nat) (r : MergeRec) : (s.setMerge i r).abas = s.abas := rfl
@[simp] theorem Dev.setMerge_upls (s : Dev) (i : Nat) (r : MergeRec) : (s.setMerge i r).upls = s.upls := rfl
@[simp] theorem Dev.setMerge_kmp (s : Dev) (i : Nat) (r : MergeRec) : (s.setMerge i r).kmp = s.kmp := rfl
@[simp] theorem Dev.setMerge_boot (s : Dev) (i : Nat) (r : MergeRec) : (s.setMerge i r).boot = s.boot := rfl
@[simp] theorem Dev.setMerge_dbg (s : Dev) (i : Nat) (r : MergeRec) : (s.setMerge i r).dbg = s.dbg := rfl
@[simp] theorem Dev.setMerge_scrub (s : Dev) (i : Nat) (r : MergeRec) : (s.setMerge i r).scrub = s.scrub := rfl
@[simp] theorem Dev.setMerge_same (s : Dev) (i : Nat) (r : MergeRec) : (s.setMerge i r).merge i = r := Sparse.get_set_same _ _ i r
theorem Dev.setMerge_other (s : Dev) (i j : Nat) (r : MergeRec) (h : j ≠ i) : (s.setMerge i r).merge j = s.merge j :=
  Sparse.get_set_other _ _ j i r h

@[simp] theorem Dev.setBreakAt_now (s : Dev) (i : Nat) (r : BreakRec) : (s.setBreakAt i r).now = s.now := rfl
@[simp] theorem Dev.setBreakAt_regs (s : Dev) (i : Nat) (r : BreakRec) : (s.setBreakAt i r).regs = s.regs := rfl
@[simp] theorem Dev.setBreakAt_workSets (s : Dev) (i : Nat) (r : BreakRec) : (s.setBreakAt i r).workSets = s.workSets := rfl
@[simp] theorem Dev.setBreakAt_mem (s : Dev) (i : Nat) (r : BreakRec) : (s.setBreakAt i r).mem = s.mem := rfl
@[simp] theorem Dev.setBreakAt_slotErrs (s : Dev) (i : Nat) (r : BreakRec) : (s.setBreakAt i r).slotErrs = s.slotErrs := rfl
@[simp] theorem Dev.setBreakAt_free (s : Dev) (i : Nat) (r : BreakRec) : (s.setBreakAt i r).free = s.free := rfl
@[simp] theorem Dev.setBreakAt_tb (s : Dev) (i : Nat) (r : BreakRec) : (s.setBreakAt i r).tb = s.tb := rfl
@[simp] theorem Dev.setBreakAt_straps (s : Dev) (i : Nat) (r : BreakRec) : (s.setBreakAt i r).straps = s.straps := rfl
@[simp] theorem Dev.setBreakAt_lastRead (s : Dev) (i : Nat) (r : BreakRec) : (s.setBreakAt i r).lastRead = s.lastRead := rfl
@[simp] theorem Dev.setBreakAt_lastStatus (s : Dev) (i : Nat) (r : BreakRec) : (s.setBreakAt i r).lastStatus = s.lastStatus := rfl
@[simp] theorem Dev.setBreakAt_lastGrain (s : Dev) (i : Nat) (r : BreakRec) : (s.setBreakAt i r).lastGrain = s.lastGrain := rfl
@[simp] theorem Dev.setBreakAt_halted (s : Dev) (i : Nat) (r : BreakRec) : (s.setBreakAt i r).halted = s.halted := rfl
@[simp] theorem Dev.setBreakAt_queues (s : Dev) (i : Nat) (r : BreakRec) : (s.setBreakAt i r).queues = s.queues := rfl
@[simp] theorem Dev.setBreakAt_banks (s : Dev) (i : Nat) (r : BreakRec) : (s.setBreakAt i r).banks = s.banks := rfl
@[simp] theorem Dev.setBreakAt_evtSrcs (s : Dev) (i : Nat) (r : BreakRec) : (s.setBreakAt i r).evtSrcs = s.evtSrcs := rfl
@[simp] theorem Dev.setBreakAt_alarmUntil (s : Dev) (i : Nat) (r : BreakRec) : (s.setBreakAt i r).alarmUntil = s.alarmUntil := rfl
@[simp] theorem Dev.setBreakAt_parts (s : Dev) (i : Nat) (r : BreakRec) : (s.setBreakAt i r).parts = s.parts := rfl
@[simp] theorem Dev.setBreakAt_merges (s : Dev) (i : Nat) (r : BreakRec) : (s.setBreakAt i r).merges = s.merges := rfl
@[simp] theorem Dev.setBreakAt_twin (s : Dev) (i : Nat) (r : BreakRec) : (s.setBreakAt i r).twin = s.twin := rfl
@[simp] theorem Dev.setBreakAt_chans (s : Dev) (i : Nat) (r : BreakRec) : (s.setBreakAt i r).chans = s.chans := rfl
@[simp] theorem Dev.setBreakAt_streams (s : Dev) (i : Nat) (r : BreakRec) : (s.setBreakAt i r).streams = s.streams := rfl
@[simp] theorem Dev.setBreakAt_ports (s : Dev) (i : Nat) (r : BreakRec) : (s.setBreakAt i r).ports = s.ports := rfl
@[simp] theorem Dev.setBreakAt_ccis (s : Dev) (i : Nat) (r : BreakRec) : (s.setBreakAt i r).ccis = s.ccis := rfl
@[simp] theorem Dev.setBreakAt_encs (s : Dev) (i : Nat) (r : BreakRec) : (s.setBreakAt i r).encs = s.encs := rfl
@[simp] theorem Dev.setBreakAt_heads (s : Dev) (i : Nat) (r : BreakRec) : (s.setBreakAt i r).heads = s.heads := rfl
@[simp] theorem Dev.setBreakAt_strobes (s : Dev) (i : Nat) (r : BreakRec) : (s.setBreakAt i r).strobes = s.strobes := rfl
@[simp] theorem Dev.setBreakAt_marn (s : Dev) (i : Nat) (r : BreakRec) : (s.setBreakAt i r).marn = s.marn := rfl
@[simp] theorem Dev.setBreakAt_flanks (s : Dev) (i : Nat) (r : BreakRec) : (s.setBreakAt i r).flanks = s.flanks := rfl
@[simp] theorem Dev.setBreakAt_chain (s : Dev) (i : Nat) (r : BreakRec) : (s.setBreakAt i r).chain = s.chain := rfl
@[simp] theorem Dev.setBreakAt_plls (s : Dev) (i : Nat) (r : BreakRec) : (s.setBreakAt i r).plls = s.plls := rfl
@[simp] theorem Dev.setBreakAt_cals (s : Dev) (i : Nat) (r : BreakRec) : (s.setBreakAt i r).cals = s.cals := rfl
@[simp] theorem Dev.setBreakAt_start (s : Dev) (i : Nat) (r : BreakRec) : (s.setBreakAt i r).start = s.start := rfl
@[simp] theorem Dev.setBreakAt_tumbler (s : Dev) (i : Nat) (r : BreakRec) : (s.setBreakAt i r).tumbler = s.tumbler := rfl
@[simp] theorem Dev.setBreakAt_strapPins (s : Dev) (i : Nat) (r : BreakRec) : (s.setBreakAt i r).strapPins = s.strapPins := rfl
@[simp] theorem Dev.setBreakAt_time (s : Dev) (i : Nat) (r : BreakRec) : (s.setBreakAt i r).time = s.time := rfl
@[simp] theorem Dev.setBreakAt_latches (s : Dev) (i : Nat) (r : BreakRec) : (s.setBreakAt i r).latches = s.latches := rfl
@[simp] theorem Dev.setBreakAt_img (s : Dev) (i : Nat) (r : BreakRec) : (s.setBreakAt i r).img = s.img := rfl
@[simp] theorem Dev.setBreakAt_arms (s : Dev) (i : Nat) (r : BreakRec) : (s.setBreakAt i r).arms = s.arms := rfl
@[simp] theorem Dev.setBreakAt_tiles (s : Dev) (i : Nat) (r : BreakRec) : (s.setBreakAt i r).tiles = s.tiles := rfl
@[simp] theorem Dev.setBreakAt_kals (s : Dev) (i : Nat) (r : BreakRec) : (s.setBreakAt i r).kals = s.kals := rfl
@[simp] theorem Dev.setBreakAt_pgrs (s : Dev) (i : Nat) (r : BreakRec) : (s.setBreakAt i r).pgrs = s.pgrs := rfl
@[simp] theorem Dev.setBreakAt_jigs (s : Dev) (i : Nat) (r : BreakRec) : (s.setBreakAt i r).jigs = s.jigs := rfl
@[simp] theorem Dev.setBreakAt_abas (s : Dev) (i : Nat) (r : BreakRec) : (s.setBreakAt i r).abas = s.abas := rfl
@[simp] theorem Dev.setBreakAt_upls (s : Dev) (i : Nat) (r : BreakRec) : (s.setBreakAt i r).upls = s.upls := rfl
@[simp] theorem Dev.setBreakAt_kmp (s : Dev) (i : Nat) (r : BreakRec) : (s.setBreakAt i r).kmp = s.kmp := rfl
@[simp] theorem Dev.setBreakAt_boot (s : Dev) (i : Nat) (r : BreakRec) : (s.setBreakAt i r).boot = s.boot := rfl
@[simp] theorem Dev.setBreakAt_dbg (s : Dev) (i : Nat) (r : BreakRec) : (s.setBreakAt i r).dbg = s.dbg := rfl
@[simp] theorem Dev.setBreakAt_scrub (s : Dev) (i : Nat) (r : BreakRec) : (s.setBreakAt i r).scrub = s.scrub := rfl
@[simp] theorem Dev.setBreakAt_same (s : Dev) (i : Nat) (r : BreakRec) : (s.setBreakAt i r).breakAt i = r := Sparse.get_set_same _ _ i r
theorem Dev.setBreakAt_other (s : Dev) (i j : Nat) (r : BreakRec) (h : j ≠ i) : (s.setBreakAt i r).breakAt j = s.breakAt j :=
  Sparse.get_set_other _ _ j i r h

@[simp] theorem Dev.setChan_now (s : Dev) (i : Nat) (r : ChanRec) : (s.setChan i r).now = s.now := rfl
@[simp] theorem Dev.setChan_regs (s : Dev) (i : Nat) (r : ChanRec) : (s.setChan i r).regs = s.regs := rfl
@[simp] theorem Dev.setChan_workSets (s : Dev) (i : Nat) (r : ChanRec) : (s.setChan i r).workSets = s.workSets := rfl
@[simp] theorem Dev.setChan_mem (s : Dev) (i : Nat) (r : ChanRec) : (s.setChan i r).mem = s.mem := rfl
@[simp] theorem Dev.setChan_slotErrs (s : Dev) (i : Nat) (r : ChanRec) : (s.setChan i r).slotErrs = s.slotErrs := rfl
@[simp] theorem Dev.setChan_free (s : Dev) (i : Nat) (r : ChanRec) : (s.setChan i r).free = s.free := rfl
@[simp] theorem Dev.setChan_tb (s : Dev) (i : Nat) (r : ChanRec) : (s.setChan i r).tb = s.tb := rfl
@[simp] theorem Dev.setChan_straps (s : Dev) (i : Nat) (r : ChanRec) : (s.setChan i r).straps = s.straps := rfl
@[simp] theorem Dev.setChan_lastRead (s : Dev) (i : Nat) (r : ChanRec) : (s.setChan i r).lastRead = s.lastRead := rfl
@[simp] theorem Dev.setChan_lastStatus (s : Dev) (i : Nat) (r : ChanRec) : (s.setChan i r).lastStatus = s.lastStatus := rfl
@[simp] theorem Dev.setChan_lastGrain (s : Dev) (i : Nat) (r : ChanRec) : (s.setChan i r).lastGrain = s.lastGrain := rfl
@[simp] theorem Dev.setChan_halted (s : Dev) (i : Nat) (r : ChanRec) : (s.setChan i r).halted = s.halted := rfl
@[simp] theorem Dev.setChan_queues (s : Dev) (i : Nat) (r : ChanRec) : (s.setChan i r).queues = s.queues := rfl
@[simp] theorem Dev.setChan_banks (s : Dev) (i : Nat) (r : ChanRec) : (s.setChan i r).banks = s.banks := rfl
@[simp] theorem Dev.setChan_evtSrcs (s : Dev) (i : Nat) (r : ChanRec) : (s.setChan i r).evtSrcs = s.evtSrcs := rfl
@[simp] theorem Dev.setChan_alarmUntil (s : Dev) (i : Nat) (r : ChanRec) : (s.setChan i r).alarmUntil = s.alarmUntil := rfl
@[simp] theorem Dev.setChan_parts (s : Dev) (i : Nat) (r : ChanRec) : (s.setChan i r).parts = s.parts := rfl
@[simp] theorem Dev.setChan_merges (s : Dev) (i : Nat) (r : ChanRec) : (s.setChan i r).merges = s.merges := rfl
@[simp] theorem Dev.setChan_breaks (s : Dev) (i : Nat) (r : ChanRec) : (s.setChan i r).breaks = s.breaks := rfl
@[simp] theorem Dev.setChan_twin (s : Dev) (i : Nat) (r : ChanRec) : (s.setChan i r).twin = s.twin := rfl
@[simp] theorem Dev.setChan_streams (s : Dev) (i : Nat) (r : ChanRec) : (s.setChan i r).streams = s.streams := rfl
@[simp] theorem Dev.setChan_ports (s : Dev) (i : Nat) (r : ChanRec) : (s.setChan i r).ports = s.ports := rfl
@[simp] theorem Dev.setChan_ccis (s : Dev) (i : Nat) (r : ChanRec) : (s.setChan i r).ccis = s.ccis := rfl
@[simp] theorem Dev.setChan_encs (s : Dev) (i : Nat) (r : ChanRec) : (s.setChan i r).encs = s.encs := rfl
@[simp] theorem Dev.setChan_heads (s : Dev) (i : Nat) (r : ChanRec) : (s.setChan i r).heads = s.heads := rfl
@[simp] theorem Dev.setChan_strobes (s : Dev) (i : Nat) (r : ChanRec) : (s.setChan i r).strobes = s.strobes := rfl
@[simp] theorem Dev.setChan_marn (s : Dev) (i : Nat) (r : ChanRec) : (s.setChan i r).marn = s.marn := rfl
@[simp] theorem Dev.setChan_flanks (s : Dev) (i : Nat) (r : ChanRec) : (s.setChan i r).flanks = s.flanks := rfl
@[simp] theorem Dev.setChan_chain (s : Dev) (i : Nat) (r : ChanRec) : (s.setChan i r).chain = s.chain := rfl
@[simp] theorem Dev.setChan_plls (s : Dev) (i : Nat) (r : ChanRec) : (s.setChan i r).plls = s.plls := rfl
@[simp] theorem Dev.setChan_cals (s : Dev) (i : Nat) (r : ChanRec) : (s.setChan i r).cals = s.cals := rfl
@[simp] theorem Dev.setChan_start (s : Dev) (i : Nat) (r : ChanRec) : (s.setChan i r).start = s.start := rfl
@[simp] theorem Dev.setChan_tumbler (s : Dev) (i : Nat) (r : ChanRec) : (s.setChan i r).tumbler = s.tumbler := rfl
@[simp] theorem Dev.setChan_strapPins (s : Dev) (i : Nat) (r : ChanRec) : (s.setChan i r).strapPins = s.strapPins := rfl
@[simp] theorem Dev.setChan_time (s : Dev) (i : Nat) (r : ChanRec) : (s.setChan i r).time = s.time := rfl
@[simp] theorem Dev.setChan_latches (s : Dev) (i : Nat) (r : ChanRec) : (s.setChan i r).latches = s.latches := rfl
@[simp] theorem Dev.setChan_img (s : Dev) (i : Nat) (r : ChanRec) : (s.setChan i r).img = s.img := rfl
@[simp] theorem Dev.setChan_arms (s : Dev) (i : Nat) (r : ChanRec) : (s.setChan i r).arms = s.arms := rfl
@[simp] theorem Dev.setChan_tiles (s : Dev) (i : Nat) (r : ChanRec) : (s.setChan i r).tiles = s.tiles := rfl
@[simp] theorem Dev.setChan_kals (s : Dev) (i : Nat) (r : ChanRec) : (s.setChan i r).kals = s.kals := rfl
@[simp] theorem Dev.setChan_pgrs (s : Dev) (i : Nat) (r : ChanRec) : (s.setChan i r).pgrs = s.pgrs := rfl
@[simp] theorem Dev.setChan_jigs (s : Dev) (i : Nat) (r : ChanRec) : (s.setChan i r).jigs = s.jigs := rfl
@[simp] theorem Dev.setChan_abas (s : Dev) (i : Nat) (r : ChanRec) : (s.setChan i r).abas = s.abas := rfl
@[simp] theorem Dev.setChan_upls (s : Dev) (i : Nat) (r : ChanRec) : (s.setChan i r).upls = s.upls := rfl
@[simp] theorem Dev.setChan_kmp (s : Dev) (i : Nat) (r : ChanRec) : (s.setChan i r).kmp = s.kmp := rfl
@[simp] theorem Dev.setChan_boot (s : Dev) (i : Nat) (r : ChanRec) : (s.setChan i r).boot = s.boot := rfl
@[simp] theorem Dev.setChan_dbg (s : Dev) (i : Nat) (r : ChanRec) : (s.setChan i r).dbg = s.dbg := rfl
@[simp] theorem Dev.setChan_scrub (s : Dev) (i : Nat) (r : ChanRec) : (s.setChan i r).scrub = s.scrub := rfl
@[simp] theorem Dev.setChan_same (s : Dev) (i : Nat) (r : ChanRec) : (s.setChan i r).chan i = r := Sparse.get_set_same _ _ i r
theorem Dev.setChan_other (s : Dev) (i j : Nat) (r : ChanRec) (h : j ≠ i) : (s.setChan i r).chan j = s.chan j :=
  Sparse.get_set_other _ _ j i r h

@[simp] theorem Dev.setStream_now (s : Dev) (i : Nat) (r : StreamRec) : (s.setStream i r).now = s.now := rfl
@[simp] theorem Dev.setStream_regs (s : Dev) (i : Nat) (r : StreamRec) : (s.setStream i r).regs = s.regs := rfl
@[simp] theorem Dev.setStream_workSets (s : Dev) (i : Nat) (r : StreamRec) : (s.setStream i r).workSets = s.workSets := rfl
@[simp] theorem Dev.setStream_mem (s : Dev) (i : Nat) (r : StreamRec) : (s.setStream i r).mem = s.mem := rfl
@[simp] theorem Dev.setStream_slotErrs (s : Dev) (i : Nat) (r : StreamRec) : (s.setStream i r).slotErrs = s.slotErrs := rfl
@[simp] theorem Dev.setStream_free (s : Dev) (i : Nat) (r : StreamRec) : (s.setStream i r).free = s.free := rfl
@[simp] theorem Dev.setStream_tb (s : Dev) (i : Nat) (r : StreamRec) : (s.setStream i r).tb = s.tb := rfl
@[simp] theorem Dev.setStream_straps (s : Dev) (i : Nat) (r : StreamRec) : (s.setStream i r).straps = s.straps := rfl
@[simp] theorem Dev.setStream_lastRead (s : Dev) (i : Nat) (r : StreamRec) : (s.setStream i r).lastRead = s.lastRead := rfl
@[simp] theorem Dev.setStream_lastStatus (s : Dev) (i : Nat) (r : StreamRec) : (s.setStream i r).lastStatus = s.lastStatus := rfl
@[simp] theorem Dev.setStream_lastGrain (s : Dev) (i : Nat) (r : StreamRec) : (s.setStream i r).lastGrain = s.lastGrain := rfl
@[simp] theorem Dev.setStream_halted (s : Dev) (i : Nat) (r : StreamRec) : (s.setStream i r).halted = s.halted := rfl
@[simp] theorem Dev.setStream_queues (s : Dev) (i : Nat) (r : StreamRec) : (s.setStream i r).queues = s.queues := rfl
@[simp] theorem Dev.setStream_banks (s : Dev) (i : Nat) (r : StreamRec) : (s.setStream i r).banks = s.banks := rfl
@[simp] theorem Dev.setStream_evtSrcs (s : Dev) (i : Nat) (r : StreamRec) : (s.setStream i r).evtSrcs = s.evtSrcs := rfl
@[simp] theorem Dev.setStream_alarmUntil (s : Dev) (i : Nat) (r : StreamRec) : (s.setStream i r).alarmUntil = s.alarmUntil := rfl
@[simp] theorem Dev.setStream_parts (s : Dev) (i : Nat) (r : StreamRec) : (s.setStream i r).parts = s.parts := rfl
@[simp] theorem Dev.setStream_merges (s : Dev) (i : Nat) (r : StreamRec) : (s.setStream i r).merges = s.merges := rfl
@[simp] theorem Dev.setStream_breaks (s : Dev) (i : Nat) (r : StreamRec) : (s.setStream i r).breaks = s.breaks := rfl
@[simp] theorem Dev.setStream_twin (s : Dev) (i : Nat) (r : StreamRec) : (s.setStream i r).twin = s.twin := rfl
@[simp] theorem Dev.setStream_chans (s : Dev) (i : Nat) (r : StreamRec) : (s.setStream i r).chans = s.chans := rfl
@[simp] theorem Dev.setStream_ports (s : Dev) (i : Nat) (r : StreamRec) : (s.setStream i r).ports = s.ports := rfl
@[simp] theorem Dev.setStream_ccis (s : Dev) (i : Nat) (r : StreamRec) : (s.setStream i r).ccis = s.ccis := rfl
@[simp] theorem Dev.setStream_encs (s : Dev) (i : Nat) (r : StreamRec) : (s.setStream i r).encs = s.encs := rfl
@[simp] theorem Dev.setStream_heads (s : Dev) (i : Nat) (r : StreamRec) : (s.setStream i r).heads = s.heads := rfl
@[simp] theorem Dev.setStream_strobes (s : Dev) (i : Nat) (r : StreamRec) : (s.setStream i r).strobes = s.strobes := rfl
@[simp] theorem Dev.setStream_marn (s : Dev) (i : Nat) (r : StreamRec) : (s.setStream i r).marn = s.marn := rfl
@[simp] theorem Dev.setStream_flanks (s : Dev) (i : Nat) (r : StreamRec) : (s.setStream i r).flanks = s.flanks := rfl
@[simp] theorem Dev.setStream_chain (s : Dev) (i : Nat) (r : StreamRec) : (s.setStream i r).chain = s.chain := rfl
@[simp] theorem Dev.setStream_plls (s : Dev) (i : Nat) (r : StreamRec) : (s.setStream i r).plls = s.plls := rfl
@[simp] theorem Dev.setStream_cals (s : Dev) (i : Nat) (r : StreamRec) : (s.setStream i r).cals = s.cals := rfl
@[simp] theorem Dev.setStream_start (s : Dev) (i : Nat) (r : StreamRec) : (s.setStream i r).start = s.start := rfl
@[simp] theorem Dev.setStream_tumbler (s : Dev) (i : Nat) (r : StreamRec) : (s.setStream i r).tumbler = s.tumbler := rfl
@[simp] theorem Dev.setStream_strapPins (s : Dev) (i : Nat) (r : StreamRec) : (s.setStream i r).strapPins = s.strapPins := rfl
@[simp] theorem Dev.setStream_time (s : Dev) (i : Nat) (r : StreamRec) : (s.setStream i r).time = s.time := rfl
@[simp] theorem Dev.setStream_latches (s : Dev) (i : Nat) (r : StreamRec) : (s.setStream i r).latches = s.latches := rfl
@[simp] theorem Dev.setStream_img (s : Dev) (i : Nat) (r : StreamRec) : (s.setStream i r).img = s.img := rfl
@[simp] theorem Dev.setStream_arms (s : Dev) (i : Nat) (r : StreamRec) : (s.setStream i r).arms = s.arms := rfl
@[simp] theorem Dev.setStream_tiles (s : Dev) (i : Nat) (r : StreamRec) : (s.setStream i r).tiles = s.tiles := rfl
@[simp] theorem Dev.setStream_kals (s : Dev) (i : Nat) (r : StreamRec) : (s.setStream i r).kals = s.kals := rfl
@[simp] theorem Dev.setStream_pgrs (s : Dev) (i : Nat) (r : StreamRec) : (s.setStream i r).pgrs = s.pgrs := rfl
@[simp] theorem Dev.setStream_jigs (s : Dev) (i : Nat) (r : StreamRec) : (s.setStream i r).jigs = s.jigs := rfl
@[simp] theorem Dev.setStream_abas (s : Dev) (i : Nat) (r : StreamRec) : (s.setStream i r).abas = s.abas := rfl
@[simp] theorem Dev.setStream_upls (s : Dev) (i : Nat) (r : StreamRec) : (s.setStream i r).upls = s.upls := rfl
@[simp] theorem Dev.setStream_kmp (s : Dev) (i : Nat) (r : StreamRec) : (s.setStream i r).kmp = s.kmp := rfl
@[simp] theorem Dev.setStream_boot (s : Dev) (i : Nat) (r : StreamRec) : (s.setStream i r).boot = s.boot := rfl
@[simp] theorem Dev.setStream_dbg (s : Dev) (i : Nat) (r : StreamRec) : (s.setStream i r).dbg = s.dbg := rfl
@[simp] theorem Dev.setStream_scrub (s : Dev) (i : Nat) (r : StreamRec) : (s.setStream i r).scrub = s.scrub := rfl
@[simp] theorem Dev.setStream_same (s : Dev) (i : Nat) (r : StreamRec) : (s.setStream i r).stream i = r := Sparse.get_set_same _ _ i r
theorem Dev.setStream_other (s : Dev) (i j : Nat) (r : StreamRec) (h : j ≠ i) : (s.setStream i r).stream j = s.stream j :=
  Sparse.get_set_other _ _ j i r h

@[simp] theorem Dev.setPort_now (s : Dev) (i : Nat) (r : PortRec) : (s.setPort i r).now = s.now := rfl
@[simp] theorem Dev.setPort_regs (s : Dev) (i : Nat) (r : PortRec) : (s.setPort i r).regs = s.regs := rfl
@[simp] theorem Dev.setPort_workSets (s : Dev) (i : Nat) (r : PortRec) : (s.setPort i r).workSets = s.workSets := rfl
@[simp] theorem Dev.setPort_mem (s : Dev) (i : Nat) (r : PortRec) : (s.setPort i r).mem = s.mem := rfl
@[simp] theorem Dev.setPort_slotErrs (s : Dev) (i : Nat) (r : PortRec) : (s.setPort i r).slotErrs = s.slotErrs := rfl
@[simp] theorem Dev.setPort_free (s : Dev) (i : Nat) (r : PortRec) : (s.setPort i r).free = s.free := rfl
@[simp] theorem Dev.setPort_tb (s : Dev) (i : Nat) (r : PortRec) : (s.setPort i r).tb = s.tb := rfl
@[simp] theorem Dev.setPort_straps (s : Dev) (i : Nat) (r : PortRec) : (s.setPort i r).straps = s.straps := rfl
@[simp] theorem Dev.setPort_lastRead (s : Dev) (i : Nat) (r : PortRec) : (s.setPort i r).lastRead = s.lastRead := rfl
@[simp] theorem Dev.setPort_lastStatus (s : Dev) (i : Nat) (r : PortRec) : (s.setPort i r).lastStatus = s.lastStatus := rfl
@[simp] theorem Dev.setPort_lastGrain (s : Dev) (i : Nat) (r : PortRec) : (s.setPort i r).lastGrain = s.lastGrain := rfl
@[simp] theorem Dev.setPort_halted (s : Dev) (i : Nat) (r : PortRec) : (s.setPort i r).halted = s.halted := rfl
@[simp] theorem Dev.setPort_queues (s : Dev) (i : Nat) (r : PortRec) : (s.setPort i r).queues = s.queues := rfl
@[simp] theorem Dev.setPort_banks (s : Dev) (i : Nat) (r : PortRec) : (s.setPort i r).banks = s.banks := rfl
@[simp] theorem Dev.setPort_evtSrcs (s : Dev) (i : Nat) (r : PortRec) : (s.setPort i r).evtSrcs = s.evtSrcs := rfl
@[simp] theorem Dev.setPort_alarmUntil (s : Dev) (i : Nat) (r : PortRec) : (s.setPort i r).alarmUntil = s.alarmUntil := rfl
@[simp] theorem Dev.setPort_parts (s : Dev) (i : Nat) (r : PortRec) : (s.setPort i r).parts = s.parts := rfl
@[simp] theorem Dev.setPort_merges (s : Dev) (i : Nat) (r : PortRec) : (s.setPort i r).merges = s.merges := rfl
@[simp] theorem Dev.setPort_breaks (s : Dev) (i : Nat) (r : PortRec) : (s.setPort i r).breaks = s.breaks := rfl
@[simp] theorem Dev.setPort_twin (s : Dev) (i : Nat) (r : PortRec) : (s.setPort i r).twin = s.twin := rfl
@[simp] theorem Dev.setPort_chans (s : Dev) (i : Nat) (r : PortRec) : (s.setPort i r).chans = s.chans := rfl
@[simp] theorem Dev.setPort_streams (s : Dev) (i : Nat) (r : PortRec) : (s.setPort i r).streams = s.streams := rfl
@[simp] theorem Dev.setPort_ccis (s : Dev) (i : Nat) (r : PortRec) : (s.setPort i r).ccis = s.ccis := rfl
@[simp] theorem Dev.setPort_encs (s : Dev) (i : Nat) (r : PortRec) : (s.setPort i r).encs = s.encs := rfl
@[simp] theorem Dev.setPort_heads (s : Dev) (i : Nat) (r : PortRec) : (s.setPort i r).heads = s.heads := rfl
@[simp] theorem Dev.setPort_strobes (s : Dev) (i : Nat) (r : PortRec) : (s.setPort i r).strobes = s.strobes := rfl
@[simp] theorem Dev.setPort_marn (s : Dev) (i : Nat) (r : PortRec) : (s.setPort i r).marn = s.marn := rfl
@[simp] theorem Dev.setPort_flanks (s : Dev) (i : Nat) (r : PortRec) : (s.setPort i r).flanks = s.flanks := rfl
@[simp] theorem Dev.setPort_chain (s : Dev) (i : Nat) (r : PortRec) : (s.setPort i r).chain = s.chain := rfl
@[simp] theorem Dev.setPort_plls (s : Dev) (i : Nat) (r : PortRec) : (s.setPort i r).plls = s.plls := rfl
@[simp] theorem Dev.setPort_cals (s : Dev) (i : Nat) (r : PortRec) : (s.setPort i r).cals = s.cals := rfl
@[simp] theorem Dev.setPort_start (s : Dev) (i : Nat) (r : PortRec) : (s.setPort i r).start = s.start := rfl
@[simp] theorem Dev.setPort_tumbler (s : Dev) (i : Nat) (r : PortRec) : (s.setPort i r).tumbler = s.tumbler := rfl
@[simp] theorem Dev.setPort_strapPins (s : Dev) (i : Nat) (r : PortRec) : (s.setPort i r).strapPins = s.strapPins := rfl
@[simp] theorem Dev.setPort_time (s : Dev) (i : Nat) (r : PortRec) : (s.setPort i r).time = s.time := rfl
@[simp] theorem Dev.setPort_latches (s : Dev) (i : Nat) (r : PortRec) : (s.setPort i r).latches = s.latches := rfl
@[simp] theorem Dev.setPort_img (s : Dev) (i : Nat) (r : PortRec) : (s.setPort i r).img = s.img := rfl
@[simp] theorem Dev.setPort_arms (s : Dev) (i : Nat) (r : PortRec) : (s.setPort i r).arms = s.arms := rfl
@[simp] theorem Dev.setPort_tiles (s : Dev) (i : Nat) (r : PortRec) : (s.setPort i r).tiles = s.tiles := rfl
@[simp] theorem Dev.setPort_kals (s : Dev) (i : Nat) (r : PortRec) : (s.setPort i r).kals = s.kals := rfl
@[simp] theorem Dev.setPort_pgrs (s : Dev) (i : Nat) (r : PortRec) : (s.setPort i r).pgrs = s.pgrs := rfl
@[simp] theorem Dev.setPort_jigs (s : Dev) (i : Nat) (r : PortRec) : (s.setPort i r).jigs = s.jigs := rfl
@[simp] theorem Dev.setPort_abas (s : Dev) (i : Nat) (r : PortRec) : (s.setPort i r).abas = s.abas := rfl
@[simp] theorem Dev.setPort_upls (s : Dev) (i : Nat) (r : PortRec) : (s.setPort i r).upls = s.upls := rfl
@[simp] theorem Dev.setPort_kmp (s : Dev) (i : Nat) (r : PortRec) : (s.setPort i r).kmp = s.kmp := rfl
@[simp] theorem Dev.setPort_boot (s : Dev) (i : Nat) (r : PortRec) : (s.setPort i r).boot = s.boot := rfl
@[simp] theorem Dev.setPort_dbg (s : Dev) (i : Nat) (r : PortRec) : (s.setPort i r).dbg = s.dbg := rfl
@[simp] theorem Dev.setPort_scrub (s : Dev) (i : Nat) (r : PortRec) : (s.setPort i r).scrub = s.scrub := rfl
@[simp] theorem Dev.setPort_same (s : Dev) (i : Nat) (r : PortRec) : (s.setPort i r).port i = r := Sparse.get_set_same _ _ i r
theorem Dev.setPort_other (s : Dev) (i j : Nat) (r : PortRec) (h : j ≠ i) : (s.setPort i r).port j = s.port j :=
  Sparse.get_set_other _ _ j i r h

@[simp] theorem Dev.setCci_now (s : Dev) (i : Nat) (r : CciRec) : (s.setCci i r).now = s.now := rfl
@[simp] theorem Dev.setCci_regs (s : Dev) (i : Nat) (r : CciRec) : (s.setCci i r).regs = s.regs := rfl
@[simp] theorem Dev.setCci_workSets (s : Dev) (i : Nat) (r : CciRec) : (s.setCci i r).workSets = s.workSets := rfl
@[simp] theorem Dev.setCci_mem (s : Dev) (i : Nat) (r : CciRec) : (s.setCci i r).mem = s.mem := rfl
@[simp] theorem Dev.setCci_slotErrs (s : Dev) (i : Nat) (r : CciRec) : (s.setCci i r).slotErrs = s.slotErrs := rfl
@[simp] theorem Dev.setCci_free (s : Dev) (i : Nat) (r : CciRec) : (s.setCci i r).free = s.free := rfl
@[simp] theorem Dev.setCci_tb (s : Dev) (i : Nat) (r : CciRec) : (s.setCci i r).tb = s.tb := rfl
@[simp] theorem Dev.setCci_straps (s : Dev) (i : Nat) (r : CciRec) : (s.setCci i r).straps = s.straps := rfl
@[simp] theorem Dev.setCci_lastRead (s : Dev) (i : Nat) (r : CciRec) : (s.setCci i r).lastRead = s.lastRead := rfl
@[simp] theorem Dev.setCci_lastStatus (s : Dev) (i : Nat) (r : CciRec) : (s.setCci i r).lastStatus = s.lastStatus := rfl
@[simp] theorem Dev.setCci_lastGrain (s : Dev) (i : Nat) (r : CciRec) : (s.setCci i r).lastGrain = s.lastGrain := rfl
@[simp] theorem Dev.setCci_halted (s : Dev) (i : Nat) (r : CciRec) : (s.setCci i r).halted = s.halted := rfl
@[simp] theorem Dev.setCci_queues (s : Dev) (i : Nat) (r : CciRec) : (s.setCci i r).queues = s.queues := rfl
@[simp] theorem Dev.setCci_banks (s : Dev) (i : Nat) (r : CciRec) : (s.setCci i r).banks = s.banks := rfl
@[simp] theorem Dev.setCci_evtSrcs (s : Dev) (i : Nat) (r : CciRec) : (s.setCci i r).evtSrcs = s.evtSrcs := rfl
@[simp] theorem Dev.setCci_alarmUntil (s : Dev) (i : Nat) (r : CciRec) : (s.setCci i r).alarmUntil = s.alarmUntil := rfl
@[simp] theorem Dev.setCci_parts (s : Dev) (i : Nat) (r : CciRec) : (s.setCci i r).parts = s.parts := rfl
@[simp] theorem Dev.setCci_merges (s : Dev) (i : Nat) (r : CciRec) : (s.setCci i r).merges = s.merges := rfl
@[simp] theorem Dev.setCci_breaks (s : Dev) (i : Nat) (r : CciRec) : (s.setCci i r).breaks = s.breaks := rfl
@[simp] theorem Dev.setCci_twin (s : Dev) (i : Nat) (r : CciRec) : (s.setCci i r).twin = s.twin := rfl
@[simp] theorem Dev.setCci_chans (s : Dev) (i : Nat) (r : CciRec) : (s.setCci i r).chans = s.chans := rfl
@[simp] theorem Dev.setCci_streams (s : Dev) (i : Nat) (r : CciRec) : (s.setCci i r).streams = s.streams := rfl
@[simp] theorem Dev.setCci_ports (s : Dev) (i : Nat) (r : CciRec) : (s.setCci i r).ports = s.ports := rfl
@[simp] theorem Dev.setCci_encs (s : Dev) (i : Nat) (r : CciRec) : (s.setCci i r).encs = s.encs := rfl
@[simp] theorem Dev.setCci_heads (s : Dev) (i : Nat) (r : CciRec) : (s.setCci i r).heads = s.heads := rfl
@[simp] theorem Dev.setCci_strobes (s : Dev) (i : Nat) (r : CciRec) : (s.setCci i r).strobes = s.strobes := rfl
@[simp] theorem Dev.setCci_marn (s : Dev) (i : Nat) (r : CciRec) : (s.setCci i r).marn = s.marn := rfl
@[simp] theorem Dev.setCci_flanks (s : Dev) (i : Nat) (r : CciRec) : (s.setCci i r).flanks = s.flanks := rfl
@[simp] theorem Dev.setCci_chain (s : Dev) (i : Nat) (r : CciRec) : (s.setCci i r).chain = s.chain := rfl
@[simp] theorem Dev.setCci_plls (s : Dev) (i : Nat) (r : CciRec) : (s.setCci i r).plls = s.plls := rfl
@[simp] theorem Dev.setCci_cals (s : Dev) (i : Nat) (r : CciRec) : (s.setCci i r).cals = s.cals := rfl
@[simp] theorem Dev.setCci_start (s : Dev) (i : Nat) (r : CciRec) : (s.setCci i r).start = s.start := rfl
@[simp] theorem Dev.setCci_tumbler (s : Dev) (i : Nat) (r : CciRec) : (s.setCci i r).tumbler = s.tumbler := rfl
@[simp] theorem Dev.setCci_strapPins (s : Dev) (i : Nat) (r : CciRec) : (s.setCci i r).strapPins = s.strapPins := rfl
@[simp] theorem Dev.setCci_time (s : Dev) (i : Nat) (r : CciRec) : (s.setCci i r).time = s.time := rfl
@[simp] theorem Dev.setCci_latches (s : Dev) (i : Nat) (r : CciRec) : (s.setCci i r).latches = s.latches := rfl
@[simp] theorem Dev.setCci_img (s : Dev) (i : Nat) (r : CciRec) : (s.setCci i r).img = s.img := rfl
@[simp] theorem Dev.setCci_arms (s : Dev) (i : Nat) (r : CciRec) : (s.setCci i r).arms = s.arms := rfl
@[simp] theorem Dev.setCci_tiles (s : Dev) (i : Nat) (r : CciRec) : (s.setCci i r).tiles = s.tiles := rfl
@[simp] theorem Dev.setCci_kals (s : Dev) (i : Nat) (r : CciRec) : (s.setCci i r).kals = s.kals := rfl
@[simp] theorem Dev.setCci_pgrs (s : Dev) (i : Nat) (r : CciRec) : (s.setCci i r).pgrs = s.pgrs := rfl
@[simp] theorem Dev.setCci_jigs (s : Dev) (i : Nat) (r : CciRec) : (s.setCci i r).jigs = s.jigs := rfl
@[simp] theorem Dev.setCci_abas (s : Dev) (i : Nat) (r : CciRec) : (s.setCci i r).abas = s.abas := rfl
@[simp] theorem Dev.setCci_upls (s : Dev) (i : Nat) (r : CciRec) : (s.setCci i r).upls = s.upls := rfl
@[simp] theorem Dev.setCci_kmp (s : Dev) (i : Nat) (r : CciRec) : (s.setCci i r).kmp = s.kmp := rfl
@[simp] theorem Dev.setCci_boot (s : Dev) (i : Nat) (r : CciRec) : (s.setCci i r).boot = s.boot := rfl
@[simp] theorem Dev.setCci_dbg (s : Dev) (i : Nat) (r : CciRec) : (s.setCci i r).dbg = s.dbg := rfl
@[simp] theorem Dev.setCci_scrub (s : Dev) (i : Nat) (r : CciRec) : (s.setCci i r).scrub = s.scrub := rfl
@[simp] theorem Dev.setCci_same (s : Dev) (i : Nat) (r : CciRec) : (s.setCci i r).cci i = r := Sparse.get_set_same _ _ i r
theorem Dev.setCci_other (s : Dev) (i j : Nat) (r : CciRec) (h : j ≠ i) : (s.setCci i r).cci j = s.cci j :=
  Sparse.get_set_other _ _ j i r h

@[simp] theorem Dev.setEnc_now (s : Dev) (i : Nat) (r : EncRec) : (s.setEnc i r).now = s.now := rfl
@[simp] theorem Dev.setEnc_regs (s : Dev) (i : Nat) (r : EncRec) : (s.setEnc i r).regs = s.regs := rfl
@[simp] theorem Dev.setEnc_workSets (s : Dev) (i : Nat) (r : EncRec) : (s.setEnc i r).workSets = s.workSets := rfl
@[simp] theorem Dev.setEnc_mem (s : Dev) (i : Nat) (r : EncRec) : (s.setEnc i r).mem = s.mem := rfl
@[simp] theorem Dev.setEnc_slotErrs (s : Dev) (i : Nat) (r : EncRec) : (s.setEnc i r).slotErrs = s.slotErrs := rfl
@[simp] theorem Dev.setEnc_free (s : Dev) (i : Nat) (r : EncRec) : (s.setEnc i r).free = s.free := rfl
@[simp] theorem Dev.setEnc_tb (s : Dev) (i : Nat) (r : EncRec) : (s.setEnc i r).tb = s.tb := rfl
@[simp] theorem Dev.setEnc_straps (s : Dev) (i : Nat) (r : EncRec) : (s.setEnc i r).straps = s.straps := rfl
@[simp] theorem Dev.setEnc_lastRead (s : Dev) (i : Nat) (r : EncRec) : (s.setEnc i r).lastRead = s.lastRead := rfl
@[simp] theorem Dev.setEnc_lastStatus (s : Dev) (i : Nat) (r : EncRec) : (s.setEnc i r).lastStatus = s.lastStatus := rfl
@[simp] theorem Dev.setEnc_lastGrain (s : Dev) (i : Nat) (r : EncRec) : (s.setEnc i r).lastGrain = s.lastGrain := rfl
@[simp] theorem Dev.setEnc_halted (s : Dev) (i : Nat) (r : EncRec) : (s.setEnc i r).halted = s.halted := rfl
@[simp] theorem Dev.setEnc_queues (s : Dev) (i : Nat) (r : EncRec) : (s.setEnc i r).queues = s.queues := rfl
@[simp] theorem Dev.setEnc_banks (s : Dev) (i : Nat) (r : EncRec) : (s.setEnc i r).banks = s.banks := rfl
@[simp] theorem Dev.setEnc_evtSrcs (s : Dev) (i : Nat) (r : EncRec) : (s.setEnc i r).evtSrcs = s.evtSrcs := rfl
@[simp] theorem Dev.setEnc_alarmUntil (s : Dev) (i : Nat) (r : EncRec) : (s.setEnc i r).alarmUntil = s.alarmUntil := rfl
@[simp] theorem Dev.setEnc_parts (s : Dev) (i : Nat) (r : EncRec) : (s.setEnc i r).parts = s.parts := rfl
@[simp] theorem Dev.setEnc_merges (s : Dev) (i : Nat) (r : EncRec) : (s.setEnc i r).merges = s.merges := rfl
@[simp] theorem Dev.setEnc_breaks (s : Dev) (i : Nat) (r : EncRec) : (s.setEnc i r).breaks = s.breaks := rfl
@[simp] theorem Dev.setEnc_twin (s : Dev) (i : Nat) (r : EncRec) : (s.setEnc i r).twin = s.twin := rfl
@[simp] theorem Dev.setEnc_chans (s : Dev) (i : Nat) (r : EncRec) : (s.setEnc i r).chans = s.chans := rfl
@[simp] theorem Dev.setEnc_streams (s : Dev) (i : Nat) (r : EncRec) : (s.setEnc i r).streams = s.streams := rfl
@[simp] theorem Dev.setEnc_ports (s : Dev) (i : Nat) (r : EncRec) : (s.setEnc i r).ports = s.ports := rfl
@[simp] theorem Dev.setEnc_ccis (s : Dev) (i : Nat) (r : EncRec) : (s.setEnc i r).ccis = s.ccis := rfl
@[simp] theorem Dev.setEnc_heads (s : Dev) (i : Nat) (r : EncRec) : (s.setEnc i r).heads = s.heads := rfl
@[simp] theorem Dev.setEnc_strobes (s : Dev) (i : Nat) (r : EncRec) : (s.setEnc i r).strobes = s.strobes := rfl
@[simp] theorem Dev.setEnc_marn (s : Dev) (i : Nat) (r : EncRec) : (s.setEnc i r).marn = s.marn := rfl
@[simp] theorem Dev.setEnc_flanks (s : Dev) (i : Nat) (r : EncRec) : (s.setEnc i r).flanks = s.flanks := rfl
@[simp] theorem Dev.setEnc_chain (s : Dev) (i : Nat) (r : EncRec) : (s.setEnc i r).chain = s.chain := rfl
@[simp] theorem Dev.setEnc_plls (s : Dev) (i : Nat) (r : EncRec) : (s.setEnc i r).plls = s.plls := rfl
@[simp] theorem Dev.setEnc_cals (s : Dev) (i : Nat) (r : EncRec) : (s.setEnc i r).cals = s.cals := rfl
@[simp] theorem Dev.setEnc_start (s : Dev) (i : Nat) (r : EncRec) : (s.setEnc i r).start = s.start := rfl
@[simp] theorem Dev.setEnc_tumbler (s : Dev) (i : Nat) (r : EncRec) : (s.setEnc i r).tumbler = s.tumbler := rfl
@[simp] theorem Dev.setEnc_strapPins (s : Dev) (i : Nat) (r : EncRec) : (s.setEnc i r).strapPins = s.strapPins := rfl
@[simp] theorem Dev.setEnc_time (s : Dev) (i : Nat) (r : EncRec) : (s.setEnc i r).time = s.time := rfl
@[simp] theorem Dev.setEnc_latches (s : Dev) (i : Nat) (r : EncRec) : (s.setEnc i r).latches = s.latches := rfl
@[simp] theorem Dev.setEnc_img (s : Dev) (i : Nat) (r : EncRec) : (s.setEnc i r).img = s.img := rfl
@[simp] theorem Dev.setEnc_arms (s : Dev) (i : Nat) (r : EncRec) : (s.setEnc i r).arms = s.arms := rfl
@[simp] theorem Dev.setEnc_tiles (s : Dev) (i : Nat) (r : EncRec) : (s.setEnc i r).tiles = s.tiles := rfl
@[simp] theorem Dev.setEnc_kals (s : Dev) (i : Nat) (r : EncRec) : (s.setEnc i r).kals = s.kals := rfl
@[simp] theorem Dev.setEnc_pgrs (s : Dev) (i : Nat) (r : EncRec) : (s.setEnc i r).pgrs = s.pgrs := rfl
@[simp] theorem Dev.setEnc_jigs (s : Dev) (i : Nat) (r : EncRec) : (s.setEnc i r).jigs = s.jigs := rfl
@[simp] theorem Dev.setEnc_abas (s : Dev) (i : Nat) (r : EncRec) : (s.setEnc i r).abas = s.abas := rfl
@[simp] theorem Dev.setEnc_upls (s : Dev) (i : Nat) (r : EncRec) : (s.setEnc i r).upls = s.upls := rfl
@[simp] theorem Dev.setEnc_kmp (s : Dev) (i : Nat) (r : EncRec) : (s.setEnc i r).kmp = s.kmp := rfl
@[simp] theorem Dev.setEnc_boot (s : Dev) (i : Nat) (r : EncRec) : (s.setEnc i r).boot = s.boot := rfl
@[simp] theorem Dev.setEnc_dbg (s : Dev) (i : Nat) (r : EncRec) : (s.setEnc i r).dbg = s.dbg := rfl
@[simp] theorem Dev.setEnc_scrub (s : Dev) (i : Nat) (r : EncRec) : (s.setEnc i r).scrub = s.scrub := rfl
@[simp] theorem Dev.setEnc_same (s : Dev) (i : Nat) (r : EncRec) : (s.setEnc i r).enc i = r := Sparse.get_set_same _ _ i r
theorem Dev.setEnc_other (s : Dev) (i j : Nat) (r : EncRec) (h : j ≠ i) : (s.setEnc i r).enc j = s.enc j :=
  Sparse.get_set_other _ _ j i r h

@[simp] theorem Dev.setHead_now (s : Dev) (i : Nat) (r : HeadRec) : (s.setHead i r).now = s.now := rfl
@[simp] theorem Dev.setHead_regs (s : Dev) (i : Nat) (r : HeadRec) : (s.setHead i r).regs = s.regs := rfl
@[simp] theorem Dev.setHead_workSets (s : Dev) (i : Nat) (r : HeadRec) : (s.setHead i r).workSets = s.workSets := rfl
@[simp] theorem Dev.setHead_mem (s : Dev) (i : Nat) (r : HeadRec) : (s.setHead i r).mem = s.mem := rfl
@[simp] theorem Dev.setHead_slotErrs (s : Dev) (i : Nat) (r : HeadRec) : (s.setHead i r).slotErrs = s.slotErrs := rfl
@[simp] theorem Dev.setHead_free (s : Dev) (i : Nat) (r : HeadRec) : (s.setHead i r).free = s.free := rfl
@[simp] theorem Dev.setHead_tb (s : Dev) (i : Nat) (r : HeadRec) : (s.setHead i r).tb = s.tb := rfl
@[simp] theorem Dev.setHead_straps (s : Dev) (i : Nat) (r : HeadRec) : (s.setHead i r).straps = s.straps := rfl
@[simp] theorem Dev.setHead_lastRead (s : Dev) (i : Nat) (r : HeadRec) : (s.setHead i r).lastRead = s.lastRead := rfl
@[simp] theorem Dev.setHead_lastStatus (s : Dev) (i : Nat) (r : HeadRec) : (s.setHead i r).lastStatus = s.lastStatus := rfl
@[simp] theorem Dev.setHead_lastGrain (s : Dev) (i : Nat) (r : HeadRec) : (s.setHead i r).lastGrain = s.lastGrain := rfl
@[simp] theorem Dev.setHead_halted (s : Dev) (i : Nat) (r : HeadRec) : (s.setHead i r).halted = s.halted := rfl
@[simp] theorem Dev.setHead_queues (s : Dev) (i : Nat) (r : HeadRec) : (s.setHead i r).queues = s.queues := rfl
@[simp] theorem Dev.setHead_banks (s : Dev) (i : Nat) (r : HeadRec) : (s.setHead i r).banks = s.banks := rfl
@[simp] theorem Dev.setHead_evtSrcs (s : Dev) (i : Nat) (r : HeadRec) : (s.setHead i r).evtSrcs = s.evtSrcs := rfl
@[simp] theorem Dev.setHead_alarmUntil (s : Dev) (i : Nat) (r : HeadRec) : (s.setHead i r).alarmUntil = s.alarmUntil := rfl
@[simp] theorem Dev.setHead_parts (s : Dev) (i : Nat) (r : HeadRec) : (s.setHead i r).parts = s.parts := rfl
@[simp] theorem Dev.setHead_merges (s : Dev) (i : Nat) (r : HeadRec) : (s.setHead i r).merges = s.merges := rfl
@[simp] theorem Dev.setHead_breaks (s : Dev) (i : Nat) (r : HeadRec) : (s.setHead i r).breaks = s.breaks := rfl
@[simp] theorem Dev.setHead_twin (s : Dev) (i : Nat) (r : HeadRec) : (s.setHead i r).twin = s.twin := rfl
@[simp] theorem Dev.setHead_chans (s : Dev) (i : Nat) (r : HeadRec) : (s.setHead i r).chans = s.chans := rfl
@[simp] theorem Dev.setHead_streams (s : Dev) (i : Nat) (r : HeadRec) : (s.setHead i r).streams = s.streams := rfl
@[simp] theorem Dev.setHead_ports (s : Dev) (i : Nat) (r : HeadRec) : (s.setHead i r).ports = s.ports := rfl
@[simp] theorem Dev.setHead_ccis (s : Dev) (i : Nat) (r : HeadRec) : (s.setHead i r).ccis = s.ccis := rfl
@[simp] theorem Dev.setHead_encs (s : Dev) (i : Nat) (r : HeadRec) : (s.setHead i r).encs = s.encs := rfl
@[simp] theorem Dev.setHead_strobes (s : Dev) (i : Nat) (r : HeadRec) : (s.setHead i r).strobes = s.strobes := rfl
@[simp] theorem Dev.setHead_marn (s : Dev) (i : Nat) (r : HeadRec) : (s.setHead i r).marn = s.marn := rfl
@[simp] theorem Dev.setHead_flanks (s : Dev) (i : Nat) (r : HeadRec) : (s.setHead i r).flanks = s.flanks := rfl
@[simp] theorem Dev.setHead_chain (s : Dev) (i : Nat) (r : HeadRec) : (s.setHead i r).chain = s.chain := rfl
@[simp] theorem Dev.setHead_plls (s : Dev) (i : Nat) (r : HeadRec) : (s.setHead i r).plls = s.plls := rfl
@[simp] theorem Dev.setHead_cals (s : Dev) (i : Nat) (r : HeadRec) : (s.setHead i r).cals = s.cals := rfl
@[simp] theorem Dev.setHead_start (s : Dev) (i : Nat) (r : HeadRec) : (s.setHead i r).start = s.start := rfl
@[simp] theorem Dev.setHead_tumbler (s : Dev) (i : Nat) (r : HeadRec) : (s.setHead i r).tumbler = s.tumbler := rfl
@[simp] theorem Dev.setHead_strapPins (s : Dev) (i : Nat) (r : HeadRec) : (s.setHead i r).strapPins = s.strapPins := rfl
@[simp] theorem Dev.setHead_time (s : Dev) (i : Nat) (r : HeadRec) : (s.setHead i r).time = s.time := rfl
@[simp] theorem Dev.setHead_latches (s : Dev) (i : Nat) (r : HeadRec) : (s.setHead i r).latches = s.latches := rfl
@[simp] theorem Dev.setHead_img (s : Dev) (i : Nat) (r : HeadRec) : (s.setHead i r).img = s.img := rfl
@[simp] theorem Dev.setHead_arms (s : Dev) (i : Nat) (r : HeadRec) : (s.setHead i r).arms = s.arms := rfl
@[simp] theorem Dev.setHead_tiles (s : Dev) (i : Nat) (r : HeadRec) : (s.setHead i r).tiles = s.tiles := rfl
@[simp] theorem Dev.setHead_kals (s : Dev) (i : Nat) (r : HeadRec) : (s.setHead i r).kals = s.kals := rfl
@[simp] theorem Dev.setHead_pgrs (s : Dev) (i : Nat) (r : HeadRec) : (s.setHead i r).pgrs = s.pgrs := rfl
@[simp] theorem Dev.setHead_jigs (s : Dev) (i : Nat) (r : HeadRec) : (s.setHead i r).jigs = s.jigs := rfl
@[simp] theorem Dev.setHead_abas (s : Dev) (i : Nat) (r : HeadRec) : (s.setHead i r).abas = s.abas := rfl
@[simp] theorem Dev.setHead_upls (s : Dev) (i : Nat) (r : HeadRec) : (s.setHead i r).upls = s.upls := rfl
@[simp] theorem Dev.setHead_kmp (s : Dev) (i : Nat) (r : HeadRec) : (s.setHead i r).kmp = s.kmp := rfl
@[simp] theorem Dev.setHead_boot (s : Dev) (i : Nat) (r : HeadRec) : (s.setHead i r).boot = s.boot := rfl
@[simp] theorem Dev.setHead_dbg (s : Dev) (i : Nat) (r : HeadRec) : (s.setHead i r).dbg = s.dbg := rfl
@[simp] theorem Dev.setHead_scrub (s : Dev) (i : Nat) (r : HeadRec) : (s.setHead i r).scrub = s.scrub := rfl
@[simp] theorem Dev.setHead_same (s : Dev) (i : Nat) (r : HeadRec) : (s.setHead i r).head i = r := Sparse.get_set_same _ _ i r
theorem Dev.setHead_other (s : Dev) (i j : Nat) (r : HeadRec) (h : j ≠ i) : (s.setHead i r).head j = s.head j :=
  Sparse.get_set_other _ _ j i r h

@[simp] theorem Dev.setStrobe_now (s : Dev) (i : Nat) (r : StrobeRec) : (s.setStrobe i r).now = s.now := rfl
@[simp] theorem Dev.setStrobe_regs (s : Dev) (i : Nat) (r : StrobeRec) : (s.setStrobe i r).regs = s.regs := rfl
@[simp] theorem Dev.setStrobe_workSets (s : Dev) (i : Nat) (r : StrobeRec) : (s.setStrobe i r).workSets = s.workSets := rfl
@[simp] theorem Dev.setStrobe_mem (s : Dev) (i : Nat) (r : StrobeRec) : (s.setStrobe i r).mem = s.mem := rfl
@[simp] theorem Dev.setStrobe_slotErrs (s : Dev) (i : Nat) (r : StrobeRec) : (s.setStrobe i r).slotErrs = s.slotErrs := rfl
@[simp] theorem Dev.setStrobe_free (s : Dev) (i : Nat) (r : StrobeRec) : (s.setStrobe i r).free = s.free := rfl
@[simp] theorem Dev.setStrobe_tb (s : Dev) (i : Nat) (r : StrobeRec) : (s.setStrobe i r).tb = s.tb := rfl
@[simp] theorem Dev.setStrobe_straps (s : Dev) (i : Nat) (r : StrobeRec) : (s.setStrobe i r).straps = s.straps := rfl
@[simp] theorem Dev.setStrobe_lastRead (s : Dev) (i : Nat) (r : StrobeRec) : (s.setStrobe i r).lastRead = s.lastRead := rfl
@[simp] theorem Dev.setStrobe_lastStatus (s : Dev) (i : Nat) (r : StrobeRec) : (s.setStrobe i r).lastStatus = s.lastStatus := rfl
@[simp] theorem Dev.setStrobe_lastGrain (s : Dev) (i : Nat) (r : StrobeRec) : (s.setStrobe i r).lastGrain = s.lastGrain := rfl
@[simp] theorem Dev.setStrobe_halted (s : Dev) (i : Nat) (r : StrobeRec) : (s.setStrobe i r).halted = s.halted := rfl
@[simp] theorem Dev.setStrobe_queues (s : Dev) (i : Nat) (r : StrobeRec) : (s.setStrobe i r).queues = s.queues := rfl
@[simp] theorem Dev.setStrobe_banks (s : Dev) (i : Nat) (r : StrobeRec) : (s.setStrobe i r).banks = s.banks := rfl
@[simp] theorem Dev.setStrobe_evtSrcs (s : Dev) (i : Nat) (r : StrobeRec) : (s.setStrobe i r).evtSrcs = s.evtSrcs := rfl
@[simp] theorem Dev.setStrobe_alarmUntil (s : Dev) (i : Nat) (r : StrobeRec) : (s.setStrobe i r).alarmUntil = s.alarmUntil := rfl
@[simp] theorem Dev.setStrobe_parts (s : Dev) (i : Nat) (r : StrobeRec) : (s.setStrobe i r).parts = s.parts := rfl
@[simp] theorem Dev.setStrobe_merges (s : Dev) (i : Nat) (r : StrobeRec) : (s.setStrobe i r).merges = s.merges := rfl
@[simp] theorem Dev.setStrobe_breaks (s : Dev) (i : Nat) (r : StrobeRec) : (s.setStrobe i r).breaks = s.breaks := rfl
@[simp] theorem Dev.setStrobe_twin (s : Dev) (i : Nat) (r : StrobeRec) : (s.setStrobe i r).twin = s.twin := rfl
@[simp] theorem Dev.setStrobe_chans (s : Dev) (i : Nat) (r : StrobeRec) : (s.setStrobe i r).chans = s.chans := rfl
@[simp] theorem Dev.setStrobe_streams (s : Dev) (i : Nat) (r : StrobeRec) : (s.setStrobe i r).streams = s.streams := rfl
@[simp] theorem Dev.setStrobe_ports (s : Dev) (i : Nat) (r : StrobeRec) : (s.setStrobe i r).ports = s.ports := rfl
@[simp] theorem Dev.setStrobe_ccis (s : Dev) (i : Nat) (r : StrobeRec) : (s.setStrobe i r).ccis = s.ccis := rfl
@[simp] theorem Dev.setStrobe_encs (s : Dev) (i : Nat) (r : StrobeRec) : (s.setStrobe i r).encs = s.encs := rfl
@[simp] theorem Dev.setStrobe_heads (s : Dev) (i : Nat) (r : StrobeRec) : (s.setStrobe i r).heads = s.heads := rfl
@[simp] theorem Dev.setStrobe_marn (s : Dev) (i : Nat) (r : StrobeRec) : (s.setStrobe i r).marn = s.marn := rfl
@[simp] theorem Dev.setStrobe_flanks (s : Dev) (i : Nat) (r : StrobeRec) : (s.setStrobe i r).flanks = s.flanks := rfl
@[simp] theorem Dev.setStrobe_chain (s : Dev) (i : Nat) (r : StrobeRec) : (s.setStrobe i r).chain = s.chain := rfl
@[simp] theorem Dev.setStrobe_plls (s : Dev) (i : Nat) (r : StrobeRec) : (s.setStrobe i r).plls = s.plls := rfl
@[simp] theorem Dev.setStrobe_cals (s : Dev) (i : Nat) (r : StrobeRec) : (s.setStrobe i r).cals = s.cals := rfl
@[simp] theorem Dev.setStrobe_start (s : Dev) (i : Nat) (r : StrobeRec) : (s.setStrobe i r).start = s.start := rfl
@[simp] theorem Dev.setStrobe_tumbler (s : Dev) (i : Nat) (r : StrobeRec) : (s.setStrobe i r).tumbler = s.tumbler := rfl
@[simp] theorem Dev.setStrobe_strapPins (s : Dev) (i : Nat) (r : StrobeRec) : (s.setStrobe i r).strapPins = s.strapPins := rfl
@[simp] theorem Dev.setStrobe_time (s : Dev) (i : Nat) (r : StrobeRec) : (s.setStrobe i r).time = s.time := rfl
@[simp] theorem Dev.setStrobe_latches (s : Dev) (i : Nat) (r : StrobeRec) : (s.setStrobe i r).latches = s.latches := rfl
@[simp] theorem Dev.setStrobe_img (s : Dev) (i : Nat) (r : StrobeRec) : (s.setStrobe i r).img = s.img := rfl
@[simp] theorem Dev.setStrobe_arms (s : Dev) (i : Nat) (r : StrobeRec) : (s.setStrobe i r).arms = s.arms := rfl
@[simp] theorem Dev.setStrobe_tiles (s : Dev) (i : Nat) (r : StrobeRec) : (s.setStrobe i r).tiles = s.tiles := rfl
@[simp] theorem Dev.setStrobe_kals (s : Dev) (i : Nat) (r : StrobeRec) : (s.setStrobe i r).kals = s.kals := rfl
@[simp] theorem Dev.setStrobe_pgrs (s : Dev) (i : Nat) (r : StrobeRec) : (s.setStrobe i r).pgrs = s.pgrs := rfl
@[simp] theorem Dev.setStrobe_jigs (s : Dev) (i : Nat) (r : StrobeRec) : (s.setStrobe i r).jigs = s.jigs := rfl
@[simp] theorem Dev.setStrobe_abas (s : Dev) (i : Nat) (r : StrobeRec) : (s.setStrobe i r).abas = s.abas := rfl
@[simp] theorem Dev.setStrobe_upls (s : Dev) (i : Nat) (r : StrobeRec) : (s.setStrobe i r).upls = s.upls := rfl
@[simp] theorem Dev.setStrobe_kmp (s : Dev) (i : Nat) (r : StrobeRec) : (s.setStrobe i r).kmp = s.kmp := rfl
@[simp] theorem Dev.setStrobe_boot (s : Dev) (i : Nat) (r : StrobeRec) : (s.setStrobe i r).boot = s.boot := rfl
@[simp] theorem Dev.setStrobe_dbg (s : Dev) (i : Nat) (r : StrobeRec) : (s.setStrobe i r).dbg = s.dbg := rfl
@[simp] theorem Dev.setStrobe_scrub (s : Dev) (i : Nat) (r : StrobeRec) : (s.setStrobe i r).scrub = s.scrub := rfl
@[simp] theorem Dev.setStrobe_same (s : Dev) (i : Nat) (r : StrobeRec) : (s.setStrobe i r).strobe i = r := Sparse.get_set_same _ _ i r
theorem Dev.setStrobe_other (s : Dev) (i j : Nat) (r : StrobeRec) (h : j ≠ i) : (s.setStrobe i r).strobe j = s.strobe j :=
  Sparse.get_set_other _ _ j i r h

@[simp] theorem Dev.setFlank_now (s : Dev) (i : Nat) (r : FlkRec) : (s.setFlank i r).now = s.now := rfl
@[simp] theorem Dev.setFlank_regs (s : Dev) (i : Nat) (r : FlkRec) : (s.setFlank i r).regs = s.regs := rfl
@[simp] theorem Dev.setFlank_workSets (s : Dev) (i : Nat) (r : FlkRec) : (s.setFlank i r).workSets = s.workSets := rfl
@[simp] theorem Dev.setFlank_mem (s : Dev) (i : Nat) (r : FlkRec) : (s.setFlank i r).mem = s.mem := rfl
@[simp] theorem Dev.setFlank_slotErrs (s : Dev) (i : Nat) (r : FlkRec) : (s.setFlank i r).slotErrs = s.slotErrs := rfl
@[simp] theorem Dev.setFlank_free (s : Dev) (i : Nat) (r : FlkRec) : (s.setFlank i r).free = s.free := rfl
@[simp] theorem Dev.setFlank_tb (s : Dev) (i : Nat) (r : FlkRec) : (s.setFlank i r).tb = s.tb := rfl
@[simp] theorem Dev.setFlank_straps (s : Dev) (i : Nat) (r : FlkRec) : (s.setFlank i r).straps = s.straps := rfl
@[simp] theorem Dev.setFlank_lastRead (s : Dev) (i : Nat) (r : FlkRec) : (s.setFlank i r).lastRead = s.lastRead := rfl
@[simp] theorem Dev.setFlank_lastStatus (s : Dev) (i : Nat) (r : FlkRec) : (s.setFlank i r).lastStatus = s.lastStatus := rfl
@[simp] theorem Dev.setFlank_lastGrain (s : Dev) (i : Nat) (r : FlkRec) : (s.setFlank i r).lastGrain = s.lastGrain := rfl
@[simp] theorem Dev.setFlank_halted (s : Dev) (i : Nat) (r : FlkRec) : (s.setFlank i r).halted = s.halted := rfl
@[simp] theorem Dev.setFlank_queues (s : Dev) (i : Nat) (r : FlkRec) : (s.setFlank i r).queues = s.queues := rfl
@[simp] theorem Dev.setFlank_banks (s : Dev) (i : Nat) (r : FlkRec) : (s.setFlank i r).banks = s.banks := rfl
@[simp] theorem Dev.setFlank_evtSrcs (s : Dev) (i : Nat) (r : FlkRec) : (s.setFlank i r).evtSrcs = s.evtSrcs := rfl
@[simp] theorem Dev.setFlank_alarmUntil (s : Dev) (i : Nat) (r : FlkRec) : (s.setFlank i r).alarmUntil = s.alarmUntil := rfl
@[simp] theorem Dev.setFlank_parts (s : Dev) (i : Nat) (r : FlkRec) : (s.setFlank i r).parts = s.parts := rfl
@[simp] theorem Dev.setFlank_merges (s : Dev) (i : Nat) (r : FlkRec) : (s.setFlank i r).merges = s.merges := rfl
@[simp] theorem Dev.setFlank_breaks (s : Dev) (i : Nat) (r : FlkRec) : (s.setFlank i r).breaks = s.breaks := rfl
@[simp] theorem Dev.setFlank_twin (s : Dev) (i : Nat) (r : FlkRec) : (s.setFlank i r).twin = s.twin := rfl
@[simp] theorem Dev.setFlank_chans (s : Dev) (i : Nat) (r : FlkRec) : (s.setFlank i r).chans = s.chans := rfl
@[simp] theorem Dev.setFlank_streams (s : Dev) (i : Nat) (r : FlkRec) : (s.setFlank i r).streams = s.streams := rfl
@[simp] theorem Dev.setFlank_ports (s : Dev) (i : Nat) (r : FlkRec) : (s.setFlank i r).ports = s.ports := rfl
@[simp] theorem Dev.setFlank_ccis (s : Dev) (i : Nat) (r : FlkRec) : (s.setFlank i r).ccis = s.ccis := rfl
@[simp] theorem Dev.setFlank_encs (s : Dev) (i : Nat) (r : FlkRec) : (s.setFlank i r).encs = s.encs := rfl
@[simp] theorem Dev.setFlank_heads (s : Dev) (i : Nat) (r : FlkRec) : (s.setFlank i r).heads = s.heads := rfl
@[simp] theorem Dev.setFlank_strobes (s : Dev) (i : Nat) (r : FlkRec) : (s.setFlank i r).strobes = s.strobes := rfl
@[simp] theorem Dev.setFlank_marn (s : Dev) (i : Nat) (r : FlkRec) : (s.setFlank i r).marn = s.marn := rfl
@[simp] theorem Dev.setFlank_chain (s : Dev) (i : Nat) (r : FlkRec) : (s.setFlank i r).chain = s.chain := rfl
@[simp] theorem Dev.setFlank_plls (s : Dev) (i : Nat) (r : FlkRec) : (s.setFlank i r).plls = s.plls := rfl
@[simp] theorem Dev.setFlank_cals (s : Dev) (i : Nat) (r : FlkRec) : (s.setFlank i r).cals = s.cals := rfl
@[simp] theorem Dev.setFlank_start (s : Dev) (i : Nat) (r : FlkRec) : (s.setFlank i r).start = s.start := rfl
@[simp] theorem Dev.setFlank_tumbler (s : Dev) (i : Nat) (r : FlkRec) : (s.setFlank i r).tumbler = s.tumbler := rfl
@[simp] theorem Dev.setFlank_strapPins (s : Dev) (i : Nat) (r : FlkRec) : (s.setFlank i r).strapPins = s.strapPins := rfl
@[simp] theorem Dev.setFlank_time (s : Dev) (i : Nat) (r : FlkRec) : (s.setFlank i r).time = s.time := rfl
@[simp] theorem Dev.setFlank_latches (s : Dev) (i : Nat) (r : FlkRec) : (s.setFlank i r).latches = s.latches := rfl
@[simp] theorem Dev.setFlank_img (s : Dev) (i : Nat) (r : FlkRec) : (s.setFlank i r).img = s.img := rfl
@[simp] theorem Dev.setFlank_arms (s : Dev) (i : Nat) (r : FlkRec) : (s.setFlank i r).arms = s.arms := rfl
@[simp] theorem Dev.setFlank_tiles (s : Dev) (i : Nat) (r : FlkRec) : (s.setFlank i r).tiles = s.tiles := rfl
@[simp] theorem Dev.setFlank_kals (s : Dev) (i : Nat) (r : FlkRec) : (s.setFlank i r).kals = s.kals := rfl
@[simp] theorem Dev.setFlank_pgrs (s : Dev) (i : Nat) (r : FlkRec) : (s.setFlank i r).pgrs = s.pgrs := rfl
@[simp] theorem Dev.setFlank_jigs (s : Dev) (i : Nat) (r : FlkRec) : (s.setFlank i r).jigs = s.jigs := rfl
@[simp] theorem Dev.setFlank_abas (s : Dev) (i : Nat) (r : FlkRec) : (s.setFlank i r).abas = s.abas := rfl
@[simp] theorem Dev.setFlank_upls (s : Dev) (i : Nat) (r : FlkRec) : (s.setFlank i r).upls = s.upls := rfl
@[simp] theorem Dev.setFlank_kmp (s : Dev) (i : Nat) (r : FlkRec) : (s.setFlank i r).kmp = s.kmp := rfl
@[simp] theorem Dev.setFlank_boot (s : Dev) (i : Nat) (r : FlkRec) : (s.setFlank i r).boot = s.boot := rfl
@[simp] theorem Dev.setFlank_dbg (s : Dev) (i : Nat) (r : FlkRec) : (s.setFlank i r).dbg = s.dbg := rfl
@[simp] theorem Dev.setFlank_scrub (s : Dev) (i : Nat) (r : FlkRec) : (s.setFlank i r).scrub = s.scrub := rfl
@[simp] theorem Dev.setFlank_same (s : Dev) (i : Nat) (r : FlkRec) : (s.setFlank i r).flank i = r := Sparse.get_set_same _ _ i r
theorem Dev.setFlank_other (s : Dev) (i j : Nat) (r : FlkRec) (h : j ≠ i) : (s.setFlank i r).flank j = s.flank j :=
  Sparse.get_set_other _ _ j i r h

@[simp] theorem Dev.setPll_now (s : Dev) (i : Nat) (r : PllRec) : (s.setPll i r).now = s.now := rfl
@[simp] theorem Dev.setPll_regs (s : Dev) (i : Nat) (r : PllRec) : (s.setPll i r).regs = s.regs := rfl
@[simp] theorem Dev.setPll_workSets (s : Dev) (i : Nat) (r : PllRec) : (s.setPll i r).workSets = s.workSets := rfl
@[simp] theorem Dev.setPll_mem (s : Dev) (i : Nat) (r : PllRec) : (s.setPll i r).mem = s.mem := rfl
@[simp] theorem Dev.setPll_slotErrs (s : Dev) (i : Nat) (r : PllRec) : (s.setPll i r).slotErrs = s.slotErrs := rfl
@[simp] theorem Dev.setPll_free (s : Dev) (i : Nat) (r : PllRec) : (s.setPll i r).free = s.free := rfl
@[simp] theorem Dev.setPll_tb (s : Dev) (i : Nat) (r : PllRec) : (s.setPll i r).tb = s.tb := rfl
@[simp] theorem Dev.setPll_straps (s : Dev) (i : Nat) (r : PllRec) : (s.setPll i r).straps = s.straps := rfl
@[simp] theorem Dev.setPll_lastRead (s : Dev) (i : Nat) (r : PllRec) : (s.setPll i r).lastRead = s.lastRead := rfl
@[simp] theorem Dev.setPll_lastStatus (s : Dev) (i : Nat) (r : PllRec) : (s.setPll i r).lastStatus = s.lastStatus := rfl
@[simp] theorem Dev.setPll_lastGrain (s : Dev) (i : Nat) (r : PllRec) : (s.setPll i r).lastGrain = s.lastGrain := rfl
@[simp] theorem Dev.setPll_halted (s : Dev) (i : Nat) (r : PllRec) : (s.setPll i r).halted = s.halted := rfl
@[simp] theorem Dev.setPll_queues (s : Dev) (i : Nat) (r : PllRec) : (s.setPll i r).queues = s.queues := rfl
@[simp] theorem Dev.setPll_banks (s : Dev) (i : Nat) (r : PllRec) : (s.setPll i r).banks = s.banks := rfl
@[simp] theorem Dev.setPll_evtSrcs (s : Dev) (i : Nat) (r : PllRec) : (s.setPll i r).evtSrcs = s.evtSrcs := rfl
@[simp] theorem Dev.setPll_alarmUntil (s : Dev) (i : Nat) (r : PllRec) : (s.setPll i r).alarmUntil = s.alarmUntil := rfl
@[simp] theorem Dev.setPll_parts (s : Dev) (i : Nat) (r : PllRec) : (s.setPll i r).parts = s.parts := rfl
@[simp] theorem Dev.setPll_merges (s : Dev) (i : Nat) (r : PllRec) : (s.setPll i r).merges = s.merges := rfl
@[simp] theorem Dev.setPll_breaks (s : Dev) (i : Nat) (r : PllRec) : (s.setPll i r).breaks = s.breaks := rfl
@[simp] theorem Dev.setPll_twin (s : Dev) (i : Nat) (r : PllRec) : (s.setPll i r).twin = s.twin := rfl
@[simp] theorem Dev.setPll_chans (s : Dev) (i : Nat) (r : PllRec) : (s.setPll i r).chans = s.chans := rfl
@[simp] theorem Dev.setPll_streams (s : Dev) (i : Nat) (r : PllRec) : (s.setPll i r).streams = s.streams := rfl
@[simp] theorem Dev.setPll_ports (s : Dev) (i : Nat) (r : PllRec) : (s.setPll i r).ports = s.ports := rfl
@[simp] theorem Dev.setPll_ccis (s : Dev) (i : Nat) (r : PllRec) : (s.setPll i r).ccis = s.ccis := rfl
@[simp] theorem Dev.setPll_encs (s : Dev) (i : Nat) (r : PllRec) : (s.setPll i r).encs = s.encs := rfl
@[simp] theorem Dev.setPll_heads (s : Dev) (i : Nat) (r : PllRec) : (s.setPll i r).heads = s.heads := rfl
@[simp] theorem Dev.setPll_strobes (s : Dev) (i : Nat) (r : PllRec) : (s.setPll i r).strobes = s.strobes := rfl
@[simp] theorem Dev.setPll_marn (s : Dev) (i : Nat) (r : PllRec) : (s.setPll i r).marn = s.marn := rfl
@[simp] theorem Dev.setPll_flanks (s : Dev) (i : Nat) (r : PllRec) : (s.setPll i r).flanks = s.flanks := rfl
@[simp] theorem Dev.setPll_chain (s : Dev) (i : Nat) (r : PllRec) : (s.setPll i r).chain = s.chain := rfl
@[simp] theorem Dev.setPll_cals (s : Dev) (i : Nat) (r : PllRec) : (s.setPll i r).cals = s.cals := rfl
@[simp] theorem Dev.setPll_start (s : Dev) (i : Nat) (r : PllRec) : (s.setPll i r).start = s.start := rfl
@[simp] theorem Dev.setPll_tumbler (s : Dev) (i : Nat) (r : PllRec) : (s.setPll i r).tumbler = s.tumbler := rfl
@[simp] theorem Dev.setPll_strapPins (s : Dev) (i : Nat) (r : PllRec) : (s.setPll i r).strapPins = s.strapPins := rfl
@[simp] theorem Dev.setPll_time (s : Dev) (i : Nat) (r : PllRec) : (s.setPll i r).time = s.time := rfl
@[simp] theorem Dev.setPll_latches (s : Dev) (i : Nat) (r : PllRec) : (s.setPll i r).latches = s.latches := rfl
@[simp] theorem Dev.setPll_img (s : Dev) (i : Nat) (r : PllRec) : (s.setPll i r).img = s.img := rfl
@[simp] theorem Dev.setPll_arms (s : Dev) (i : Nat) (r : PllRec) : (s.setPll i r).arms = s.arms := rfl
@[simp] theorem Dev.setPll_tiles (s : Dev) (i : Nat) (r : PllRec) : (s.setPll i r).tiles = s.tiles := rfl
@[simp] theorem Dev.setPll_kals (s : Dev) (i : Nat) (r : PllRec) : (s.setPll i r).kals = s.kals := rfl
@[simp] theorem Dev.setPll_pgrs (s : Dev) (i : Nat) (r : PllRec) : (s.setPll i r).pgrs = s.pgrs := rfl
@[simp] theorem Dev.setPll_jigs (s : Dev) (i : Nat) (r : PllRec) : (s.setPll i r).jigs = s.jigs := rfl
@[simp] theorem Dev.setPll_abas (s : Dev) (i : Nat) (r : PllRec) : (s.setPll i r).abas = s.abas := rfl
@[simp] theorem Dev.setPll_upls (s : Dev) (i : Nat) (r : PllRec) : (s.setPll i r).upls = s.upls := rfl
@[simp] theorem Dev.setPll_kmp (s : Dev) (i : Nat) (r : PllRec) : (s.setPll i r).kmp = s.kmp := rfl
@[simp] theorem Dev.setPll_boot (s : Dev) (i : Nat) (r : PllRec) : (s.setPll i r).boot = s.boot := rfl
@[simp] theorem Dev.setPll_dbg (s : Dev) (i : Nat) (r : PllRec) : (s.setPll i r).dbg = s.dbg := rfl
@[simp] theorem Dev.setPll_scrub (s : Dev) (i : Nat) (r : PllRec) : (s.setPll i r).scrub = s.scrub := rfl
@[simp] theorem Dev.setPll_same (s : Dev) (i : Nat) (r : PllRec) : (s.setPll i r).pll i = r := Sparse.get_set_same _ _ i r
theorem Dev.setPll_other (s : Dev) (i j : Nat) (r : PllRec) (h : j ≠ i) : (s.setPll i r).pll j = s.pll j :=
  Sparse.get_set_other _ _ j i r h

@[simp] theorem Dev.setCal_now (s : Dev) (i : Nat) (r : CalRec) : (s.setCal i r).now = s.now := rfl
@[simp] theorem Dev.setCal_regs (s : Dev) (i : Nat) (r : CalRec) : (s.setCal i r).regs = s.regs := rfl
@[simp] theorem Dev.setCal_workSets (s : Dev) (i : Nat) (r : CalRec) : (s.setCal i r).workSets = s.workSets := rfl
@[simp] theorem Dev.setCal_mem (s : Dev) (i : Nat) (r : CalRec) : (s.setCal i r).mem = s.mem := rfl
@[simp] theorem Dev.setCal_slotErrs (s : Dev) (i : Nat) (r : CalRec) : (s.setCal i r).slotErrs = s.slotErrs := rfl
@[simp] theorem Dev.setCal_free (s : Dev) (i : Nat) (r : CalRec) : (s.setCal i r).free = s.free := rfl
@[simp] theorem Dev.setCal_tb (s : Dev) (i : Nat) (r : CalRec) : (s.setCal i r).tb = s.tb := rfl
@[simp] theorem Dev.setCal_straps (s : Dev) (i : Nat) (r : CalRec) : (s.setCal i r).straps = s.straps := rfl
@[simp] theorem Dev.setCal_lastRead (s : Dev) (i : Nat) (r : CalRec) : (s.setCal i r).lastRead = s.lastRead := rfl
@[simp] theorem Dev.setCal_lastStatus (s : Dev) (i : Nat) (r : CalRec) : (s.setCal i r).lastStatus = s.lastStatus := rfl
@[simp] theorem Dev.setCal_lastGrain (s : Dev) (i : Nat) (r : CalRec) : (s.setCal i r).lastGrain = s.lastGrain := rfl
@[simp] theorem Dev.setCal_halted (s : Dev) (i : Nat) (r : CalRec) : (s.setCal i r).halted = s.halted := rfl
@[simp] theorem Dev.setCal_queues (s : Dev) (i : Nat) (r : CalRec) : (s.setCal i r).queues = s.queues := rfl
@[simp] theorem Dev.setCal_banks (s : Dev) (i : Nat) (r : CalRec) : (s.setCal i r).banks = s.banks := rfl
@[simp] theorem Dev.setCal_evtSrcs (s : Dev) (i : Nat) (r : CalRec) : (s.setCal i r).evtSrcs = s.evtSrcs := rfl
@[simp] theorem Dev.setCal_alarmUntil (s : Dev) (i : Nat) (r : CalRec) : (s.setCal i r).alarmUntil = s.alarmUntil := rfl
@[simp] theorem Dev.setCal_parts (s : Dev) (i : Nat) (r : CalRec) : (s.setCal i r).parts = s.parts := rfl
@[simp] theorem Dev.setCal_merges (s : Dev) (i : Nat) (r : CalRec) : (s.setCal i r).merges = s.merges := rfl
@[simp] theorem Dev.setCal_breaks (s : Dev) (i : Nat) (r : CalRec) : (s.setCal i r).breaks = s.breaks := rfl
@[simp] theorem Dev.setCal_twin (s : Dev) (i : Nat) (r : CalRec) : (s.setCal i r).twin = s.twin := rfl
@[simp] theorem Dev.setCal_chans (s : Dev) (i : Nat) (r : CalRec) : (s.setCal i r).chans = s.chans := rfl
@[simp] theorem Dev.setCal_streams (s : Dev) (i : Nat) (r : CalRec) : (s.setCal i r).streams = s.streams := rfl
@[simp] theorem Dev.setCal_ports (s : Dev) (i : Nat) (r : CalRec) : (s.setCal i r).ports = s.ports := rfl
@[simp] theorem Dev.setCal_ccis (s : Dev) (i : Nat) (r : CalRec) : (s.setCal i r).ccis = s.ccis := rfl
@[simp] theorem Dev.setCal_encs (s : Dev) (i : Nat) (r : CalRec) : (s.setCal i r).encs = s.encs := rfl
@[simp] theorem Dev.setCal_heads (s : Dev) (i : Nat) (r : CalRec) : (s.setCal i r).heads = s.heads := rfl
@[simp] theorem Dev.setCal_strobes (s : Dev) (i : Nat) (r : CalRec) : (s.setCal i r).strobes = s.strobes := rfl
@[simp] theorem Dev.setCal_marn (s : Dev) (i : Nat) (r : CalRec) : (s.setCal i r).marn = s.marn := rfl
@[simp] theorem Dev.setCal_flanks (s : Dev) (i : Nat) (r : CalRec) : (s.setCal i r).flanks = s.flanks := rfl
@[simp] theorem Dev.setCal_chain (s : Dev) (i : Nat) (r : CalRec) : (s.setCal i r).chain = s.chain := rfl
@[simp] theorem Dev.setCal_plls (s : Dev) (i : Nat) (r : CalRec) : (s.setCal i r).plls = s.plls := rfl
@[simp] theorem Dev.setCal_start (s : Dev) (i : Nat) (r : CalRec) : (s.setCal i r).start = s.start := rfl
@[simp] theorem Dev.setCal_tumbler (s : Dev) (i : Nat) (r : CalRec) : (s.setCal i r).tumbler = s.tumbler := rfl
@[simp] theorem Dev.setCal_strapPins (s : Dev) (i : Nat) (r : CalRec) : (s.setCal i r).strapPins = s.strapPins := rfl
@[simp] theorem Dev.setCal_time (s : Dev) (i : Nat) (r : CalRec) : (s.setCal i r).time = s.time := rfl
@[simp] theorem Dev.setCal_latches (s : Dev) (i : Nat) (r : CalRec) : (s.setCal i r).latches = s.latches := rfl
@[simp] theorem Dev.setCal_img (s : Dev) (i : Nat) (r : CalRec) : (s.setCal i r).img = s.img := rfl
@[simp] theorem Dev.setCal_arms (s : Dev) (i : Nat) (r : CalRec) : (s.setCal i r).arms = s.arms := rfl
@[simp] theorem Dev.setCal_tiles (s : Dev) (i : Nat) (r : CalRec) : (s.setCal i r).tiles = s.tiles := rfl
@[simp] theorem Dev.setCal_kals (s : Dev) (i : Nat) (r : CalRec) : (s.setCal i r).kals = s.kals := rfl
@[simp] theorem Dev.setCal_pgrs (s : Dev) (i : Nat) (r : CalRec) : (s.setCal i r).pgrs = s.pgrs := rfl
@[simp] theorem Dev.setCal_jigs (s : Dev) (i : Nat) (r : CalRec) : (s.setCal i r).jigs = s.jigs := rfl
@[simp] theorem Dev.setCal_abas (s : Dev) (i : Nat) (r : CalRec) : (s.setCal i r).abas = s.abas := rfl
@[simp] theorem Dev.setCal_upls (s : Dev) (i : Nat) (r : CalRec) : (s.setCal i r).upls = s.upls := rfl
@[simp] theorem Dev.setCal_kmp (s : Dev) (i : Nat) (r : CalRec) : (s.setCal i r).kmp = s.kmp := rfl
@[simp] theorem Dev.setCal_boot (s : Dev) (i : Nat) (r : CalRec) : (s.setCal i r).boot = s.boot := rfl
@[simp] theorem Dev.setCal_dbg (s : Dev) (i : Nat) (r : CalRec) : (s.setCal i r).dbg = s.dbg := rfl
@[simp] theorem Dev.setCal_scrub (s : Dev) (i : Nat) (r : CalRec) : (s.setCal i r).scrub = s.scrub := rfl
@[simp] theorem Dev.setCal_same (s : Dev) (i : Nat) (r : CalRec) : (s.setCal i r).cal i = r := Sparse.get_set_same _ _ i r
theorem Dev.setCal_other (s : Dev) (i j : Nat) (r : CalRec) (h : j ≠ i) : (s.setCal i r).cal j = s.cal j :=
  Sparse.get_set_other _ _ j i r h

@[simp] theorem Dev.setTile_now (s : Dev) (i : Nat) (r : TileRec) : (s.setTile i r).now = s.now := rfl
@[simp] theorem Dev.setTile_regs (s : Dev) (i : Nat) (r : TileRec) : (s.setTile i r).regs = s.regs := rfl
@[simp] theorem Dev.setTile_workSets (s : Dev) (i : Nat) (r : TileRec) : (s.setTile i r).workSets = s.workSets := rfl
@[simp] theorem Dev.setTile_mem (s : Dev) (i : Nat) (r : TileRec) : (s.setTile i r).mem = s.mem := rfl
@[simp] theorem Dev.setTile_slotErrs (s : Dev) (i : Nat) (r : TileRec) : (s.setTile i r).slotErrs = s.slotErrs := rfl
@[simp] theorem Dev.setTile_free (s : Dev) (i : Nat) (r : TileRec) : (s.setTile i r).free = s.free := rfl
@[simp] theorem Dev.setTile_tb (s : Dev) (i : Nat) (r : TileRec) : (s.setTile i r).tb = s.tb := rfl
@[simp] theorem Dev.setTile_straps (s : Dev) (i : Nat) (r : TileRec) : (s.setTile i r).straps = s.straps := rfl
@[simp] theorem Dev.setTile_lastRead (s : Dev) (i : Nat) (r : TileRec) : (s.setTile i r).lastRead = s.lastRead := rfl
@[simp] theorem Dev.setTile_lastStatus (s : Dev) (i : Nat) (r : TileRec) : (s.setTile i r).lastStatus = s.lastStatus := rfl
@[simp] theorem Dev.setTile_lastGrain (s : Dev) (i : Nat) (r : TileRec) : (s.setTile i r).lastGrain = s.lastGrain := rfl
@[simp] theorem Dev.setTile_halted (s : Dev) (i : Nat) (r : TileRec) : (s.setTile i r).halted = s.halted := rfl
@[simp] theorem Dev.setTile_queues (s : Dev) (i : Nat) (r : TileRec) : (s.setTile i r).queues = s.queues := rfl
@[simp] theorem Dev.setTile_banks (s : Dev) (i : Nat) (r : TileRec) : (s.setTile i r).banks = s.banks := rfl
@[simp] theorem Dev.setTile_evtSrcs (s : Dev) (i : Nat) (r : TileRec) : (s.setTile i r).evtSrcs = s.evtSrcs := rfl
@[simp] theorem Dev.setTile_alarmUntil (s : Dev) (i : Nat) (r : TileRec) : (s.setTile i r).alarmUntil = s.alarmUntil := rfl
@[simp] theorem Dev.setTile_parts (s : Dev) (i : Nat) (r : TileRec) : (s.setTile i r).parts = s.parts := rfl
@[simp] theorem Dev.setTile_merges (s : Dev) (i : Nat) (r : TileRec) : (s.setTile i r).merges = s.merges := rfl
@[simp] theorem Dev.setTile_breaks (s : Dev) (i : Nat) (r : TileRec) : (s.setTile i r).breaks = s.breaks := rfl
@[simp] theorem Dev.setTile_twin (s : Dev) (i : Nat) (r : TileRec) : (s.setTile i r).twin = s.twin := rfl
@[simp] theorem Dev.setTile_chans (s : Dev) (i : Nat) (r : TileRec) : (s.setTile i r).chans = s.chans := rfl
@[simp] theorem Dev.setTile_streams (s : Dev) (i : Nat) (r : TileRec) : (s.setTile i r).streams = s.streams := rfl
@[simp] theorem Dev.setTile_ports (s : Dev) (i : Nat) (r : TileRec) : (s.setTile i r).ports = s.ports := rfl
@[simp] theorem Dev.setTile_ccis (s : Dev) (i : Nat) (r : TileRec) : (s.setTile i r).ccis = s.ccis := rfl
@[simp] theorem Dev.setTile_encs (s : Dev) (i : Nat) (r : TileRec) : (s.setTile i r).encs = s.encs := rfl
@[simp] theorem Dev.setTile_heads (s : Dev) (i : Nat) (r : TileRec) : (s.setTile i r).heads = s.heads := rfl
@[simp] theorem Dev.setTile_strobes (s : Dev) (i : Nat) (r : TileRec) : (s.setTile i r).strobes = s.strobes := rfl
@[simp] theorem Dev.setTile_marn (s : Dev) (i : Nat) (r : TileRec) : (s.setTile i r).marn = s.marn := rfl
@[simp] theorem Dev.setTile_flanks (s : Dev) (i : Nat) (r : TileRec) : (s.setTile i r).flanks = s.flanks := rfl
@[simp] theorem Dev.setTile_chain (s : Dev) (i : Nat) (r : TileRec) : (s.setTile i r).chain = s.chain := rfl
@[simp] theorem Dev.setTile_plls (s : Dev) (i : Nat) (r : TileRec) : (s.setTile i r).plls = s.plls := rfl
@[simp] theorem Dev.setTile_cals (s : Dev) (i : Nat) (r : TileRec) : (s.setTile i r).cals = s.cals := rfl
@[simp] theorem Dev.setTile_start (s : Dev) (i : Nat) (r : TileRec) : (s.setTile i r).start = s.start := rfl
@[simp] theorem Dev.setTile_tumbler (s : Dev) (i : Nat) (r : TileRec) : (s.setTile i r).tumbler = s.tumbler := rfl
@[simp] theorem Dev.setTile_strapPins (s : Dev) (i : Nat) (r : TileRec) : (s.setTile i r).strapPins = s.strapPins := rfl
@[simp] theorem Dev.setTile_time (s : Dev) (i : Nat) (r : TileRec) : (s.setTile i r).time = s.time := rfl
@[simp] theorem Dev.setTile_latches (s : Dev) (i : Nat) (r : TileRec) : (s.setTile i r).latches = s.latches := rfl
@[simp] theorem Dev.setTile_img (s : Dev) (i : Nat) (r : TileRec) : (s.setTile i r).img = s.img := rfl
@[simp] theorem Dev.setTile_arms (s : Dev) (i : Nat) (r : TileRec) : (s.setTile i r).arms = s.arms := rfl
@[simp] theorem Dev.setTile_kals (s : Dev) (i : Nat) (r : TileRec) : (s.setTile i r).kals = s.kals := rfl
@[simp] theorem Dev.setTile_pgrs (s : Dev) (i : Nat) (r : TileRec) : (s.setTile i r).pgrs = s.pgrs := rfl
@[simp] theorem Dev.setTile_jigs (s : Dev) (i : Nat) (r : TileRec) : (s.setTile i r).jigs = s.jigs := rfl
@[simp] theorem Dev.setTile_abas (s : Dev) (i : Nat) (r : TileRec) : (s.setTile i r).abas = s.abas := rfl
@[simp] theorem Dev.setTile_upls (s : Dev) (i : Nat) (r : TileRec) : (s.setTile i r).upls = s.upls := rfl
@[simp] theorem Dev.setTile_kmp (s : Dev) (i : Nat) (r : TileRec) : (s.setTile i r).kmp = s.kmp := rfl
@[simp] theorem Dev.setTile_boot (s : Dev) (i : Nat) (r : TileRec) : (s.setTile i r).boot = s.boot := rfl
@[simp] theorem Dev.setTile_dbg (s : Dev) (i : Nat) (r : TileRec) : (s.setTile i r).dbg = s.dbg := rfl
@[simp] theorem Dev.setTile_scrub (s : Dev) (i : Nat) (r : TileRec) : (s.setTile i r).scrub = s.scrub := rfl
@[simp] theorem Dev.setTile_same (s : Dev) (i : Nat) (r : TileRec) : (s.setTile i r).tile i = r := Sparse.get_set_same _ _ i r
theorem Dev.setTile_other (s : Dev) (i j : Nat) (r : TileRec) (h : j ≠ i) : (s.setTile i r).tile j = s.tile j :=
  Sparse.get_set_other _ _ j i r h

@[simp] theorem Dev.setKal_now (s : Dev) (i : Nat) (r : KalRec) : (s.setKal i r).now = s.now := rfl
@[simp] theorem Dev.setKal_regs (s : Dev) (i : Nat) (r : KalRec) : (s.setKal i r).regs = s.regs := rfl
@[simp] theorem Dev.setKal_workSets (s : Dev) (i : Nat) (r : KalRec) : (s.setKal i r).workSets = s.workSets := rfl
@[simp] theorem Dev.setKal_mem (s : Dev) (i : Nat) (r : KalRec) : (s.setKal i r).mem = s.mem := rfl
@[simp] theorem Dev.setKal_slotErrs (s : Dev) (i : Nat) (r : KalRec) : (s.setKal i r).slotErrs = s.slotErrs := rfl
@[simp] theorem Dev.setKal_free (s : Dev) (i : Nat) (r : KalRec) : (s.setKal i r).free = s.free := rfl
@[simp] theorem Dev.setKal_tb (s : Dev) (i : Nat) (r : KalRec) : (s.setKal i r).tb = s.tb := rfl
@[simp] theorem Dev.setKal_straps (s : Dev) (i : Nat) (r : KalRec) : (s.setKal i r).straps = s.straps := rfl
@[simp] theorem Dev.setKal_lastRead (s : Dev) (i : Nat) (r : KalRec) : (s.setKal i r).lastRead = s.lastRead := rfl
@[simp] theorem Dev.setKal_lastStatus (s : Dev) (i : Nat) (r : KalRec) : (s.setKal i r).lastStatus = s.lastStatus := rfl
@[simp] theorem Dev.setKal_lastGrain (s : Dev) (i : Nat) (r : KalRec) : (s.setKal i r).lastGrain = s.lastGrain := rfl
@[simp] theorem Dev.setKal_halted (s : Dev) (i : Nat) (r : KalRec) : (s.setKal i r).halted = s.halted := rfl
@[simp] theorem Dev.setKal_queues (s : Dev) (i : Nat) (r : KalRec) : (s.setKal i r).queues = s.queues := rfl
@[simp] theorem Dev.setKal_banks (s : Dev) (i : Nat) (r : KalRec) : (s.setKal i r).banks = s.banks := rfl
@[simp] theorem Dev.setKal_evtSrcs (s : Dev) (i : Nat) (r : KalRec) : (s.setKal i r).evtSrcs = s.evtSrcs := rfl
@[simp] theorem Dev.setKal_alarmUntil (s : Dev) (i : Nat) (r : KalRec) : (s.setKal i r).alarmUntil = s.alarmUntil := rfl
@[simp] theorem Dev.setKal_parts (s : Dev) (i : Nat) (r : KalRec) : (s.setKal i r).parts = s.parts := rfl
@[simp] theorem Dev.setKal_merges (s : Dev) (i : Nat) (r : KalRec) : (s.setKal i r).merges = s.merges := rfl
@[simp] theorem Dev.setKal_breaks (s : Dev) (i : Nat) (r : KalRec) : (s.setKal i r).breaks = s.breaks := rfl
@[simp] theorem Dev.setKal_twin (s : Dev) (i : Nat) (r : KalRec) : (s.setKal i r).twin = s.twin := rfl
@[simp] theorem Dev.setKal_chans (s : Dev) (i : Nat) (r : KalRec) : (s.setKal i r).chans = s.chans := rfl
@[simp] theorem Dev.setKal_streams (s : Dev) (i : Nat) (r : KalRec) : (s.setKal i r).streams = s.streams := rfl
@[simp] theorem Dev.setKal_ports (s : Dev) (i : Nat) (r : KalRec) : (s.setKal i r).ports = s.ports := rfl
@[simp] theorem Dev.setKal_ccis (s : Dev) (i : Nat) (r : KalRec) : (s.setKal i r).ccis = s.ccis := rfl
@[simp] theorem Dev.setKal_encs (s : Dev) (i : Nat) (r : KalRec) : (s.setKal i r).encs = s.encs := rfl
@[simp] theorem Dev.setKal_heads (s : Dev) (i : Nat) (r : KalRec) : (s.setKal i r).heads = s.heads := rfl
@[simp] theorem Dev.setKal_strobes (s : Dev) (i : Nat) (r : KalRec) : (s.setKal i r).strobes = s.strobes := rfl
@[simp] theorem Dev.setKal_marn (s : Dev) (i : Nat) (r : KalRec) : (s.setKal i r).marn = s.marn := rfl
@[simp] theorem Dev.setKal_flanks (s : Dev) (i : Nat) (r : KalRec) : (s.setKal i r).flanks = s.flanks := rfl
@[simp] theorem Dev.setKal_chain (s : Dev) (i : Nat) (r : KalRec) : (s.setKal i r).chain = s.chain := rfl
@[simp] theorem Dev.setKal_plls (s : Dev) (i : Nat) (r : KalRec) : (s.setKal i r).plls = s.plls := rfl
@[simp] theorem Dev.setKal_cals (s : Dev) (i : Nat) (r : KalRec) : (s.setKal i r).cals = s.cals := rfl
@[simp] theorem Dev.setKal_start (s : Dev) (i : Nat) (r : KalRec) : (s.setKal i r).start = s.start := rfl
@[simp] theorem Dev.setKal_tumbler (s : Dev) (i : Nat) (r : KalRec) : (s.setKal i r).tumbler = s.tumbler := rfl
@[simp] theorem Dev.setKal_strapPins (s : Dev) (i : Nat) (r : KalRec) : (s.setKal i r).strapPins = s.strapPins := rfl
@[simp] theorem Dev.setKal_time (s : Dev) (i : Nat) (r : KalRec) : (s.setKal i r).time = s.time := rfl
@[simp] theorem Dev.setKal_latches (s : Dev) (i : Nat) (r : KalRec) : (s.setKal i r).latches = s.latches := rfl
@[simp] theorem Dev.setKal_img (s : Dev) (i : Nat) (r : KalRec) : (s.setKal i r).img = s.img := rfl
@[simp] theorem Dev.setKal_arms (s : Dev) (i : Nat) (r : KalRec) : (s.setKal i r).arms = s.arms := rfl
@[simp] theorem Dev.setKal_tiles (s : Dev) (i : Nat) (r : KalRec) : (s.setKal i r).tiles = s.tiles := rfl
@[simp] theorem Dev.setKal_pgrs (s : Dev) (i : Nat) (r : KalRec) : (s.setKal i r).pgrs = s.pgrs := rfl
@[simp] theorem Dev.setKal_jigs (s : Dev) (i : Nat) (r : KalRec) : (s.setKal i r).jigs = s.jigs := rfl
@[simp] theorem Dev.setKal_abas (s : Dev) (i : Nat) (r : KalRec) : (s.setKal i r).abas = s.abas := rfl
@[simp] theorem Dev.setKal_upls (s : Dev) (i : Nat) (r : KalRec) : (s.setKal i r).upls = s.upls := rfl
@[simp] theorem Dev.setKal_kmp (s : Dev) (i : Nat) (r : KalRec) : (s.setKal i r).kmp = s.kmp := rfl
@[simp] theorem Dev.setKal_boot (s : Dev) (i : Nat) (r : KalRec) : (s.setKal i r).boot = s.boot := rfl
@[simp] theorem Dev.setKal_dbg (s : Dev) (i : Nat) (r : KalRec) : (s.setKal i r).dbg = s.dbg := rfl
@[simp] theorem Dev.setKal_scrub (s : Dev) (i : Nat) (r : KalRec) : (s.setKal i r).scrub = s.scrub := rfl
@[simp] theorem Dev.setKal_same (s : Dev) (i : Nat) (r : KalRec) : (s.setKal i r).kal i = r := Sparse.get_set_same _ _ i r
theorem Dev.setKal_other (s : Dev) (i j : Nat) (r : KalRec) (h : j ≠ i) : (s.setKal i r).kal j = s.kal j :=
  Sparse.get_set_other _ _ j i r h

@[simp] theorem Dev.setPgr_now (s : Dev) (i : Nat) (r : PgrRec) : (s.setPgr i r).now = s.now := rfl
@[simp] theorem Dev.setPgr_regs (s : Dev) (i : Nat) (r : PgrRec) : (s.setPgr i r).regs = s.regs := rfl
@[simp] theorem Dev.setPgr_workSets (s : Dev) (i : Nat) (r : PgrRec) : (s.setPgr i r).workSets = s.workSets := rfl
@[simp] theorem Dev.setPgr_mem (s : Dev) (i : Nat) (r : PgrRec) : (s.setPgr i r).mem = s.mem := rfl
@[simp] theorem Dev.setPgr_slotErrs (s : Dev) (i : Nat) (r : PgrRec) : (s.setPgr i r).slotErrs = s.slotErrs := rfl
@[simp] theorem Dev.setPgr_free (s : Dev) (i : Nat) (r : PgrRec) : (s.setPgr i r).free = s.free := rfl
@[simp] theorem Dev.setPgr_tb (s : Dev) (i : Nat) (r : PgrRec) : (s.setPgr i r).tb = s.tb := rfl
@[simp] theorem Dev.setPgr_straps (s : Dev) (i : Nat) (r : PgrRec) : (s.setPgr i r).straps = s.straps := rfl
@[simp] theorem Dev.setPgr_lastRead (s : Dev) (i : Nat) (r : PgrRec) : (s.setPgr i r).lastRead = s.lastRead := rfl
@[simp] theorem Dev.setPgr_lastStatus (s : Dev) (i : Nat) (r : PgrRec) : (s.setPgr i r).lastStatus = s.lastStatus := rfl
@[simp] theorem Dev.setPgr_lastGrain (s : Dev) (i : Nat) (r : PgrRec) : (s.setPgr i r).lastGrain = s.lastGrain := rfl
@[simp] theorem Dev.setPgr_halted (s : Dev) (i : Nat) (r : PgrRec) : (s.setPgr i r).halted = s.halted := rfl
@[simp] theorem Dev.setPgr_queues (s : Dev) (i : Nat) (r : PgrRec) : (s.setPgr i r).queues = s.queues := rfl
@[simp] theorem Dev.setPgr_banks (s : Dev) (i : Nat) (r : PgrRec) : (s.setPgr i r).banks = s.banks := rfl
@[simp] theorem Dev.setPgr_evtSrcs (s : Dev) (i : Nat) (r : PgrRec) : (s.setPgr i r).evtSrcs = s.evtSrcs := rfl
@[simp] theorem Dev.setPgr_alarmUntil (s : Dev) (i : Nat) (r : PgrRec) : (s.setPgr i r).alarmUntil = s.alarmUntil := rfl
@[simp] theorem Dev.setPgr_parts (s : Dev) (i : Nat) (r : PgrRec) : (s.setPgr i r).parts = s.parts := rfl
@[simp] theorem Dev.setPgr_merges (s : Dev) (i : Nat) (r : PgrRec) : (s.setPgr i r).merges = s.merges := rfl
@[simp] theorem Dev.setPgr_breaks (s : Dev) (i : Nat) (r : PgrRec) : (s.setPgr i r).breaks = s.breaks := rfl
@[simp] theorem Dev.setPgr_twin (s : Dev) (i : Nat) (r : PgrRec) : (s.setPgr i r).twin = s.twin := rfl
@[simp] theorem Dev.setPgr_chans (s : Dev) (i : Nat) (r : PgrRec) : (s.setPgr i r).chans = s.chans := rfl
@[simp] theorem Dev.setPgr_streams (s : Dev) (i : Nat) (r : PgrRec) : (s.setPgr i r).streams = s.streams := rfl
@[simp] theorem Dev.setPgr_ports (s : Dev) (i : Nat) (r : PgrRec) : (s.setPgr i r).ports = s.ports := rfl
@[simp] theorem Dev.setPgr_ccis (s : Dev) (i : Nat) (r : PgrRec) : (s.setPgr i r).ccis = s.ccis := rfl
@[simp] theorem Dev.setPgr_encs (s : Dev) (i : Nat) (r : PgrRec) : (s.setPgr i r).encs = s.encs := rfl
@[simp] theorem Dev.setPgr_heads (s : Dev) (i : Nat) (r : PgrRec) : (s.setPgr i r).heads = s.heads := rfl
@[simp] theorem Dev.setPgr_strobes (s : Dev) (i : Nat) (r : PgrRec) : (s.setPgr i r).strobes = s.strobes := rfl
@[simp] theorem Dev.setPgr_marn (s : Dev) (i : Nat) (r : PgrRec) : (s.setPgr i r).marn = s.marn := rfl
@[simp] theorem Dev.setPgr_flanks (s : Dev) (i : Nat) (r : PgrRec) : (s.setPgr i r).flanks = s.flanks := rfl
@[simp] theorem Dev.setPgr_chain (s : Dev) (i : Nat) (r : PgrRec) : (s.setPgr i r).chain = s.chain := rfl
@[simp] theorem Dev.setPgr_plls (s : Dev) (i : Nat) (r : PgrRec) : (s.setPgr i r).plls = s.plls := rfl
@[simp] theorem Dev.setPgr_cals (s : Dev) (i : Nat) (r : PgrRec) : (s.setPgr i r).cals = s.cals := rfl
@[simp] theorem Dev.setPgr_start (s : Dev) (i : Nat) (r : PgrRec) : (s.setPgr i r).start = s.start := rfl
@[simp] theorem Dev.setPgr_tumbler (s : Dev) (i : Nat) (r : PgrRec) : (s.setPgr i r).tumbler = s.tumbler := rfl
@[simp] theorem Dev.setPgr_strapPins (s : Dev) (i : Nat) (r : PgrRec) : (s.setPgr i r).strapPins = s.strapPins := rfl
@[simp] theorem Dev.setPgr_time (s : Dev) (i : Nat) (r : PgrRec) : (s.setPgr i r).time = s.time := rfl
@[simp] theorem Dev.setPgr_latches (s : Dev) (i : Nat) (r : PgrRec) : (s.setPgr i r).latches = s.latches := rfl
@[simp] theorem Dev.setPgr_img (s : Dev) (i : Nat) (r : PgrRec) : (s.setPgr i r).img = s.img := rfl
@[simp] theorem Dev.setPgr_arms (s : Dev) (i : Nat) (r : PgrRec) : (s.setPgr i r).arms = s.arms := rfl
@[simp] theorem Dev.setPgr_tiles (s : Dev) (i : Nat) (r : PgrRec) : (s.setPgr i r).tiles = s.tiles := rfl
@[simp] theorem Dev.setPgr_kals (s : Dev) (i : Nat) (r : PgrRec) : (s.setPgr i r).kals = s.kals := rfl
@[simp] theorem Dev.setPgr_jigs (s : Dev) (i : Nat) (r : PgrRec) : (s.setPgr i r).jigs = s.jigs := rfl
@[simp] theorem Dev.setPgr_abas (s : Dev) (i : Nat) (r : PgrRec) : (s.setPgr i r).abas = s.abas := rfl
@[simp] theorem Dev.setPgr_upls (s : Dev) (i : Nat) (r : PgrRec) : (s.setPgr i r).upls = s.upls := rfl
@[simp] theorem Dev.setPgr_kmp (s : Dev) (i : Nat) (r : PgrRec) : (s.setPgr i r).kmp = s.kmp := rfl
@[simp] theorem Dev.setPgr_boot (s : Dev) (i : Nat) (r : PgrRec) : (s.setPgr i r).boot = s.boot := rfl
@[simp] theorem Dev.setPgr_dbg (s : Dev) (i : Nat) (r : PgrRec) : (s.setPgr i r).dbg = s.dbg := rfl
@[simp] theorem Dev.setPgr_scrub (s : Dev) (i : Nat) (r : PgrRec) : (s.setPgr i r).scrub = s.scrub := rfl
@[simp] theorem Dev.setPgr_same (s : Dev) (i : Nat) (r : PgrRec) : (s.setPgr i r).pgr i = r := Sparse.get_set_same _ _ i r
theorem Dev.setPgr_other (s : Dev) (i j : Nat) (r : PgrRec) (h : j ≠ i) : (s.setPgr i r).pgr j = s.pgr j :=
  Sparse.get_set_other _ _ j i r h

@[simp] theorem Dev.setJig_now (s : Dev) (i : Nat) (r : JigRec) : (s.setJig i r).now = s.now := rfl
@[simp] theorem Dev.setJig_regs (s : Dev) (i : Nat) (r : JigRec) : (s.setJig i r).regs = s.regs := rfl
@[simp] theorem Dev.setJig_workSets (s : Dev) (i : Nat) (r : JigRec) : (s.setJig i r).workSets = s.workSets := rfl
@[simp] theorem Dev.setJig_mem (s : Dev) (i : Nat) (r : JigRec) : (s.setJig i r).mem = s.mem := rfl
@[simp] theorem Dev.setJig_slotErrs (s : Dev) (i : Nat) (r : JigRec) : (s.setJig i r).slotErrs = s.slotErrs := rfl
@[simp] theorem Dev.setJig_free (s : Dev) (i : Nat) (r : JigRec) : (s.setJig i r).free = s.free := rfl
@[simp] theorem Dev.setJig_tb (s : Dev) (i : Nat) (r : JigRec) : (s.setJig i r).tb = s.tb := rfl
@[simp] theorem Dev.setJig_straps (s : Dev) (i : Nat) (r : JigRec) : (s.setJig i r).straps = s.straps := rfl
@[simp] theorem Dev.setJig_lastRead (s : Dev) (i : Nat) (r : JigRec) : (s.setJig i r).lastRead = s.lastRead := rfl
@[simp] theorem Dev.setJig_lastStatus (s : Dev) (i : Nat) (r : JigRec) : (s.setJig i r).lastStatus = s.lastStatus := rfl
@[simp] theorem Dev.setJig_lastGrain (s : Dev) (i : Nat) (r : JigRec) : (s.setJig i r).lastGrain = s.lastGrain := rfl
@[simp] theorem Dev.setJig_halted (s : Dev) (i : Nat) (r : JigRec) : (s.setJig i r).halted = s.halted := rfl
@[simp] theorem Dev.setJig_queues (s : Dev) (i : Nat) (r : JigRec) : (s.setJig i r).queues = s.queues := rfl
@[simp] theorem Dev.setJig_banks (s : Dev) (i : Nat) (r : JigRec) : (s.setJig i r).banks = s.banks := rfl
@[simp] theorem Dev.setJig_evtSrcs (s : Dev) (i : Nat) (r : JigRec) : (s.setJig i r).evtSrcs = s.evtSrcs := rfl
@[simp] theorem Dev.setJig_alarmUntil (s : Dev) (i : Nat) (r : JigRec) : (s.setJig i r).alarmUntil = s.alarmUntil := rfl
@[simp] theorem Dev.setJig_parts (s : Dev) (i : Nat) (r : JigRec) : (s.setJig i r).parts = s.parts := rfl
@[simp] theorem Dev.setJig_merges (s : Dev) (i : Nat) (r : JigRec) : (s.setJig i r).merges = s.merges := rfl
@[simp] theorem Dev.setJig_breaks (s : Dev) (i : Nat) (r : JigRec) : (s.setJig i r).breaks = s.breaks := rfl
@[simp] theorem Dev.setJig_twin (s : Dev) (i : Nat) (r : JigRec) : (s.setJig i r).twin = s.twin := rfl
@[simp] theorem Dev.setJig_chans (s : Dev) (i : Nat) (r : JigRec) : (s.setJig i r).chans = s.chans := rfl
@[simp] theorem Dev.setJig_streams (s : Dev) (i : Nat) (r : JigRec) : (s.setJig i r).streams = s.streams := rfl
@[simp] theorem Dev.setJig_ports (s : Dev) (i : Nat) (r : JigRec) : (s.setJig i r).ports = s.ports := rfl
@[simp] theorem Dev.setJig_ccis (s : Dev) (i : Nat) (r : JigRec) : (s.setJig i r).ccis = s.ccis := rfl
@[simp] theorem Dev.setJig_encs (s : Dev) (i : Nat) (r : JigRec) : (s.setJig i r).encs = s.encs := rfl
@[simp] theorem Dev.setJig_heads (s : Dev) (i : Nat) (r : JigRec) : (s.setJig i r).heads = s.heads := rfl
@[simp] theorem Dev.setJig_strobes (s : Dev) (i : Nat) (r : JigRec) : (s.setJig i r).strobes = s.strobes := rfl
@[simp] theorem Dev.setJig_marn (s : Dev) (i : Nat) (r : JigRec) : (s.setJig i r).marn = s.marn := rfl
@[simp] theorem Dev.setJig_flanks (s : Dev) (i : Nat) (r : JigRec) : (s.setJig i r).flanks = s.flanks := rfl
@[simp] theorem Dev.setJig_chain (s : Dev) (i : Nat) (r : JigRec) : (s.setJig i r).chain = s.chain := rfl
@[simp] theorem Dev.setJig_plls (s : Dev) (i : Nat) (r : JigRec) : (s.setJig i r).plls = s.plls := rfl
@[simp] theorem Dev.setJig_cals (s : Dev) (i : Nat) (r : JigRec) : (s.setJig i r).cals = s.cals := rfl
@[simp] theorem Dev.setJig_start (s : Dev) (i : Nat) (r : JigRec) : (s.setJig i r).start = s.start := rfl
@[simp] theorem Dev.setJig_tumbler (s : Dev) (i : Nat) (r : JigRec) : (s.setJig i r).tumbler = s.tumbler := rfl
@[simp] theorem Dev.setJig_strapPins (s : Dev) (i : Nat) (r : JigRec) : (s.setJig i r).strapPins = s.strapPins := rfl
@[simp] theorem Dev.setJig_time (s : Dev) (i : Nat) (r : JigRec) : (s.setJig i r).time = s.time := rfl
@[simp] theorem Dev.setJig_latches (s : Dev) (i : Nat) (r : JigRec) : (s.setJig i r).latches = s.latches := rfl
@[simp] theorem Dev.setJig_img (s : Dev) (i : Nat) (r : JigRec) : (s.setJig i r).img = s.img := rfl
@[simp] theorem Dev.setJig_arms (s : Dev) (i : Nat) (r : JigRec) : (s.setJig i r).arms = s.arms := rfl
@[simp] theorem Dev.setJig_tiles (s : Dev) (i : Nat) (r : JigRec) : (s.setJig i r).tiles = s.tiles := rfl
@[simp] theorem Dev.setJig_kals (s : Dev) (i : Nat) (r : JigRec) : (s.setJig i r).kals = s.kals := rfl
@[simp] theorem Dev.setJig_pgrs (s : Dev) (i : Nat) (r : JigRec) : (s.setJig i r).pgrs = s.pgrs := rfl
@[simp] theorem Dev.setJig_abas (s : Dev) (i : Nat) (r : JigRec) : (s.setJig i r).abas = s.abas := rfl
@[simp] theorem Dev.setJig_upls (s : Dev) (i : Nat) (r : JigRec) : (s.setJig i r).upls = s.upls := rfl
@[simp] theorem Dev.setJig_kmp (s : Dev) (i : Nat) (r : JigRec) : (s.setJig i r).kmp = s.kmp := rfl
@[simp] theorem Dev.setJig_boot (s : Dev) (i : Nat) (r : JigRec) : (s.setJig i r).boot = s.boot := rfl
@[simp] theorem Dev.setJig_dbg (s : Dev) (i : Nat) (r : JigRec) : (s.setJig i r).dbg = s.dbg := rfl
@[simp] theorem Dev.setJig_scrub (s : Dev) (i : Nat) (r : JigRec) : (s.setJig i r).scrub = s.scrub := rfl
@[simp] theorem Dev.setJig_same (s : Dev) (i : Nat) (r : JigRec) : (s.setJig i r).jig i = r := Sparse.get_set_same _ _ i r
theorem Dev.setJig_other (s : Dev) (i j : Nat) (r : JigRec) (h : j ≠ i) : (s.setJig i r).jig j = s.jig j :=
  Sparse.get_set_other _ _ j i r h

@[simp] theorem Dev.setAba_now (s : Dev) (i : Nat) (r : AbaRec) : (s.setAba i r).now = s.now := rfl
@[simp] theorem Dev.setAba_regs (s : Dev) (i : Nat) (r : AbaRec) : (s.setAba i r).regs = s.regs := rfl
@[simp] theorem Dev.setAba_workSets (s : Dev) (i : Nat) (r : AbaRec) : (s.setAba i r).workSets = s.workSets := rfl
@[simp] theorem Dev.setAba_mem (s : Dev) (i : Nat) (r : AbaRec) : (s.setAba i r).mem = s.mem := rfl
@[simp] theorem Dev.setAba_slotErrs (s : Dev) (i : Nat) (r : AbaRec) : (s.setAba i r).slotErrs = s.slotErrs := rfl
@[simp] theorem Dev.setAba_free (s : Dev) (i : Nat) (r : AbaRec) : (s.setAba i r).free = s.free := rfl
@[simp] theorem Dev.setAba_tb (s : Dev) (i : Nat) (r : AbaRec) : (s.setAba i r).tb = s.tb := rfl
@[simp] theorem Dev.setAba_straps (s : Dev) (i : Nat) (r : AbaRec) : (s.setAba i r).straps = s.straps := rfl
@[simp] theorem Dev.setAba_lastRead (s : Dev) (i : Nat) (r : AbaRec) : (s.setAba i r).lastRead = s.lastRead := rfl
@[simp] theorem Dev.setAba_lastStatus (s : Dev) (i : Nat) (r : AbaRec) : (s.setAba i r).lastStatus = s.lastStatus := rfl
@[simp] theorem Dev.setAba_lastGrain (s : Dev) (i : Nat) (r : AbaRec) : (s.setAba i r).lastGrain = s.lastGrain := rfl
@[simp] theorem Dev.setAba_halted (s : Dev) (i : Nat) (r : AbaRec) : (s.setAba i r).halted = s.halted := rfl
@[simp] theorem Dev.setAba_queues (s : Dev) (i : Nat) (r : AbaRec) : (s.setAba i r).queues = s.queues := rfl
@[simp] theorem Dev.setAba_banks (s : Dev) (i : Nat) (r : AbaRec) : (s.setAba i r).banks = s.banks := rfl
@[simp] theorem Dev.setAba_evtSrcs (s : Dev) (i : Nat) (r : AbaRec) : (s.setAba i r).evtSrcs = s.evtSrcs := rfl
@[simp] theorem Dev.setAba_alarmUntil (s : Dev) (i : Nat) (r : AbaRec) : (s.setAba i r).alarmUntil = s.alarmUntil := rfl
@[simp] theorem Dev.setAba_parts (s : Dev) (i : Nat) (r : AbaRec) : (s.setAba i r).parts = s.parts := rfl
@[simp] theorem Dev.setAba_merges (s : Dev) (i : Nat) (r : AbaRec) : (s.setAba i r).merges = s.merges := rfl
@[simp] theorem Dev.setAba_breaks (s : Dev) (i : Nat) (r : AbaRec) : (s.setAba i r).breaks = s.breaks := rfl
@[simp] theorem Dev.setAba_twin (s : Dev) (i : Nat) (r : AbaRec) : (s.setAba i r).twin = s.twin := rfl
@[simp] theorem Dev.setAba_chans (s : Dev) (i : Nat) (r : AbaRec) : (s.setAba i r).chans = s.chans := rfl
@[simp] theorem Dev.setAba_streams (s : Dev) (i : Nat) (r : AbaRec) : (s.setAba i r).streams = s.streams := rfl
@[simp] theorem Dev.setAba_ports (s : Dev) (i : Nat) (r : AbaRec) : (s.setAba i r).ports = s.ports := rfl
@[simp] theorem Dev.setAba_ccis (s : Dev) (i : Nat) (r : AbaRec) : (s.setAba i r).ccis = s.ccis := rfl
@[simp] theorem Dev.setAba_encs (s : Dev) (i : Nat) (r : AbaRec) : (s.setAba i r).encs = s.encs := rfl
@[simp] theorem Dev.setAba_heads (s : Dev) (i : Nat) (r : AbaRec) : (s.setAba i r).heads = s.heads := rfl
@[simp] theorem Dev.setAba_strobes (s : Dev) (i : Nat) (r : AbaRec) : (s.setAba i r).strobes = s.strobes := rfl
@[simp] theorem Dev.setAba_marn (s : Dev) (i : Nat) (r : AbaRec) : (s.setAba i r).marn = s.marn := rfl
@[simp] theorem Dev.setAba_flanks (s : Dev) (i : Nat) (r : AbaRec) : (s.setAba i r).flanks = s.flanks := rfl
@[simp] theorem Dev.setAba_chain (s : Dev) (i : Nat) (r : AbaRec) : (s.setAba i r).chain = s.chain := rfl
@[simp] theorem Dev.setAba_plls (s : Dev) (i : Nat) (r : AbaRec) : (s.setAba i r).plls = s.plls := rfl
@[simp] theorem Dev.setAba_cals (s : Dev) (i : Nat) (r : AbaRec) : (s.setAba i r).cals = s.cals := rfl
@[simp] theorem Dev.setAba_start (s : Dev) (i : Nat) (r : AbaRec) : (s.setAba i r).start = s.start := rfl
@[simp] theorem Dev.setAba_tumbler (s : Dev) (i : Nat) (r : AbaRec) : (s.setAba i r).tumbler = s.tumbler := rfl
@[simp] theorem Dev.setAba_strapPins (s : Dev) (i : Nat) (r : AbaRec) : (s.setAba i r).strapPins = s.strapPins := rfl
@[simp] theorem Dev.setAba_time (s : Dev) (i : Nat) (r : AbaRec) : (s.setAba i r).time = s.time := rfl
@[simp] theorem Dev.setAba_latches (s : Dev) (i : Nat) (r : AbaRec) : (s.setAba i r).latches = s.latches := rfl
@[simp] theorem Dev.setAba_img (s : Dev) (i : Nat) (r : AbaRec) : (s.setAba i r).img = s.img := rfl
@[simp] theorem Dev.setAba_arms (s : Dev) (i : Nat) (r : AbaRec) : (s.setAba i r).arms = s.arms := rfl
@[simp] theorem Dev.setAba_tiles (s : Dev) (i : Nat) (r : AbaRec) : (s.setAba i r).tiles = s.tiles := rfl
@[simp] theorem Dev.setAba_kals (s : Dev) (i : Nat) (r : AbaRec) : (s.setAba i r).kals = s.kals := rfl
@[simp] theorem Dev.setAba_pgrs (s : Dev) (i : Nat) (r : AbaRec) : (s.setAba i r).pgrs = s.pgrs := rfl
@[simp] theorem Dev.setAba_jigs (s : Dev) (i : Nat) (r : AbaRec) : (s.setAba i r).jigs = s.jigs := rfl
@[simp] theorem Dev.setAba_upls (s : Dev) (i : Nat) (r : AbaRec) : (s.setAba i r).upls = s.upls := rfl
@[simp] theorem Dev.setAba_kmp (s : Dev) (i : Nat) (r : AbaRec) : (s.setAba i r).kmp = s.kmp := rfl
@[simp] theorem Dev.setAba_boot (s : Dev) (i : Nat) (r : AbaRec) : (s.setAba i r).boot = s.boot := rfl
@[simp] theorem Dev.setAba_dbg (s : Dev) (i : Nat) (r : AbaRec) : (s.setAba i r).dbg = s.dbg := rfl
@[simp] theorem Dev.setAba_scrub (s : Dev) (i : Nat) (r : AbaRec) : (s.setAba i r).scrub = s.scrub := rfl
@[simp] theorem Dev.setAba_same (s : Dev) (i : Nat) (r : AbaRec) : (s.setAba i r).aba i = r := Sparse.get_set_same _ _ i r
theorem Dev.setAba_other (s : Dev) (i j : Nat) (r : AbaRec) (h : j ≠ i) : (s.setAba i r).aba j = s.aba j :=
  Sparse.get_set_other _ _ j i r h

@[simp] theorem Dev.setUpl_now (s : Dev) (i : Nat) (r : UplRec) : (s.setUpl i r).now = s.now := rfl
@[simp] theorem Dev.setUpl_regs (s : Dev) (i : Nat) (r : UplRec) : (s.setUpl i r).regs = s.regs := rfl
@[simp] theorem Dev.setUpl_workSets (s : Dev) (i : Nat) (r : UplRec) : (s.setUpl i r).workSets = s.workSets := rfl
@[simp] theorem Dev.setUpl_mem (s : Dev) (i : Nat) (r : UplRec) : (s.setUpl i r).mem = s.mem := rfl
@[simp] theorem Dev.setUpl_slotErrs (s : Dev) (i : Nat) (r : UplRec) : (s.setUpl i r).slotErrs = s.slotErrs := rfl
@[simp] theorem Dev.setUpl_free (s : Dev) (i : Nat) (r : UplRec) : (s.setUpl i r).free = s.free := rfl
@[simp] theorem Dev.setUpl_tb (s : Dev) (i : Nat) (r : UplRec) : (s.setUpl i r).tb = s.tb := rfl
@[simp] theorem Dev.setUpl_straps (s : Dev) (i : Nat) (r : UplRec) : (s.setUpl i r).straps = s.straps := rfl
@[simp] theorem Dev.setUpl_lastRead (s : Dev) (i : Nat) (r : UplRec) : (s.setUpl i r).lastRead = s.lastRead := rfl
@[simp] theorem Dev.setUpl_lastStatus (s : Dev) (i : Nat) (r : UplRec) : (s.setUpl i r).lastStatus = s.lastStatus := rfl
@[simp] theorem Dev.setUpl_lastGrain (s : Dev) (i : Nat) (r : UplRec) : (s.setUpl i r).lastGrain = s.lastGrain := rfl
@[simp] theorem Dev.setUpl_halted (s : Dev) (i : Nat) (r : UplRec) : (s.setUpl i r).halted = s.halted := rfl
@[simp] theorem Dev.setUpl_queues (s : Dev) (i : Nat) (r : UplRec) : (s.setUpl i r).queues = s.queues := rfl
@[simp] theorem Dev.setUpl_banks (s : Dev) (i : Nat) (r : UplRec) : (s.setUpl i r).banks = s.banks := rfl
@[simp] theorem Dev.setUpl_evtSrcs (s : Dev) (i : Nat) (r : UplRec) : (s.setUpl i r).evtSrcs = s.evtSrcs := rfl
@[simp] theorem Dev.setUpl_alarmUntil (s : Dev) (i : Nat) (r : UplRec) : (s.setUpl i r).alarmUntil = s.alarmUntil := rfl
@[simp] theorem Dev.setUpl_parts (s : Dev) (i : Nat) (r : UplRec) : (s.setUpl i r).parts = s.parts := rfl
@[simp] theorem Dev.setUpl_merges (s : Dev) (i : Nat) (r : UplRec) : (s.setUpl i r).merges = s.merges := rfl
@[simp] theorem Dev.setUpl_breaks (s : Dev) (i : Nat) (r : UplRec) : (s.setUpl i r).breaks = s.breaks := rfl
@[simp] theorem Dev.setUpl_twin (s : Dev) (i : Nat) (r : UplRec) : (s.setUpl i r).twin = s.twin := rfl
@[simp] theorem Dev.setUpl_chans (s : Dev) (i : Nat) (r : UplRec) : (s.setUpl i r).chans = s.chans := rfl
@[simp] theorem Dev.setUpl_streams (s : Dev) (i : Nat) (r : UplRec) : (s.setUpl i r).streams = s.streams := rfl
@[simp] theorem Dev.setUpl_ports (s : Dev) (i : Nat) (r : UplRec) : (s.setUpl i r).ports = s.ports := rfl
@[simp] theorem Dev.setUpl_ccis (s : Dev) (i : Nat) (r : UplRec) : (s.setUpl i r).ccis = s.ccis := rfl
@[simp] theorem Dev.setUpl_encs (s : Dev) (i : Nat) (r : UplRec) : (s.setUpl i r).encs = s.encs := rfl
@[simp] theorem Dev.setUpl_heads (s : Dev) (i : Nat) (r : UplRec) : (s.setUpl i r).heads = s.heads := rfl
@[simp] theorem Dev.setUpl_strobes (s : Dev) (i : Nat) (r : UplRec) : (s.setUpl i r).strobes = s.strobes := rfl
@[simp] theorem Dev.setUpl_marn (s : Dev) (i : Nat) (r : UplRec) : (s.setUpl i r).marn = s.marn := rfl
@[simp] theorem Dev.setUpl_flanks (s : Dev) (i : Nat) (r : UplRec) : (s.setUpl i r).flanks = s.flanks := rfl
@[simp] theorem Dev.setUpl_chain (s : Dev) (i : Nat) (r : UplRec) : (s.setUpl i r).chain = s.chain := rfl
@[simp] theorem Dev.setUpl_plls (s : Dev) (i : Nat) (r : UplRec) : (s.setUpl i r).plls = s.plls := rfl
@[simp] theorem Dev.setUpl_cals (s : Dev) (i : Nat) (r : UplRec) : (s.setUpl i r).cals = s.cals := rfl
@[simp] theorem Dev.setUpl_start (s : Dev) (i : Nat) (r : UplRec) : (s.setUpl i r).start = s.start := rfl
@[simp] theorem Dev.setUpl_tumbler (s : Dev) (i : Nat) (r : UplRec) : (s.setUpl i r).tumbler = s.tumbler := rfl
@[simp] theorem Dev.setUpl_strapPins (s : Dev) (i : Nat) (r : UplRec) : (s.setUpl i r).strapPins = s.strapPins := rfl
@[simp] theorem Dev.setUpl_time (s : Dev) (i : Nat) (r : UplRec) : (s.setUpl i r).time = s.time := rfl
@[simp] theorem Dev.setUpl_latches (s : Dev) (i : Nat) (r : UplRec) : (s.setUpl i r).latches = s.latches := rfl
@[simp] theorem Dev.setUpl_img (s : Dev) (i : Nat) (r : UplRec) : (s.setUpl i r).img = s.img := rfl
@[simp] theorem Dev.setUpl_arms (s : Dev) (i : Nat) (r : UplRec) : (s.setUpl i r).arms = s.arms := rfl
@[simp] theorem Dev.setUpl_tiles (s : Dev) (i : Nat) (r : UplRec) : (s.setUpl i r).tiles = s.tiles := rfl
@[simp] theorem Dev.setUpl_kals (s : Dev) (i : Nat) (r : UplRec) : (s.setUpl i r).kals = s.kals := rfl
@[simp] theorem Dev.setUpl_pgrs (s : Dev) (i : Nat) (r : UplRec) : (s.setUpl i r).pgrs = s.pgrs := rfl
@[simp] theorem Dev.setUpl_jigs (s : Dev) (i : Nat) (r : UplRec) : (s.setUpl i r).jigs = s.jigs := rfl
@[simp] theorem Dev.setUpl_abas (s : Dev) (i : Nat) (r : UplRec) : (s.setUpl i r).abas = s.abas := rfl
@[simp] theorem Dev.setUpl_kmp (s : Dev) (i : Nat) (r : UplRec) : (s.setUpl i r).kmp = s.kmp := rfl
@[simp] theorem Dev.setUpl_boot (s : Dev) (i : Nat) (r : UplRec) : (s.setUpl i r).boot = s.boot := rfl
@[simp] theorem Dev.setUpl_dbg (s : Dev) (i : Nat) (r : UplRec) : (s.setUpl i r).dbg = s.dbg := rfl
@[simp] theorem Dev.setUpl_scrub (s : Dev) (i : Nat) (r : UplRec) : (s.setUpl i r).scrub = s.scrub := rfl
@[simp] theorem Dev.setUpl_same (s : Dev) (i : Nat) (r : UplRec) : (s.setUpl i r).upl i = r := Sparse.get_set_same _ _ i r
theorem Dev.setUpl_other (s : Dev) (i j : Nat) (r : UplRec) (h : j ≠ i) : (s.setUpl i r).upl j = s.upl j :=
  Sparse.get_set_other _ _ j i r h

@[simp] theorem Dev.setF_now (s : Dev) (f : Reg.Fld) (v i j k : Nat) : (s.setF f v i j k).now = s.now := rfl
@[simp] theorem Dev.bump_now (s : Dev) (f : Reg.Fld) (i j k n : Nat) : (s.bump f i j k n).now = s.now := rfl
@[simp] theorem Dev.writeSlot_now (s : Dev) (n : Nat) (c : Cell) : (s.writeSlot n c).now = s.now := rfl
@[simp] theorem Dev.reach_regs (s : Dev) (t : Nat) : (s.reach t).regs = s.regs := rfl
@[simp] theorem Dev.writeSlot_regs (s : Dev) (n : Nat) (c : Cell) : (s.writeSlot n c).regs = s.regs := rfl
@[simp] theorem Dev.setF_workSets (s : Dev) (f : Reg.Fld) (v i j k : Nat) : (s.setF f v i j k).workSets = s.workSets := rfl
@[simp] theorem Dev.bump_workSets (s : Dev) (f : Reg.Fld) (i j k n : Nat) : (s.bump f i j k n).workSets = s.workSets := rfl
@[simp] theorem Dev.reach_workSets (s : Dev) (t : Nat) : (s.reach t).workSets = s.workSets := rfl
@[simp] theorem Dev.writeSlot_workSets (s : Dev) (n : Nat) (c : Cell) : (s.writeSlot n c).workSets = s.workSets := rfl
@[simp] theorem Dev.setF_mem (s : Dev) (f : Reg.Fld) (v i j k : Nat) : (s.setF f v i j k).mem = s.mem := rfl
@[simp] theorem Dev.bump_mem (s : Dev) (f : Reg.Fld) (i j k n : Nat) : (s.bump f i j k n).mem = s.mem := rfl
@[simp] theorem Dev.reach_mem (s : Dev) (t : Nat) : (s.reach t).mem = s.mem := rfl
@[simp] theorem Dev.setF_slotErrs (s : Dev) (f : Reg.Fld) (v i j k : Nat) : (s.setF f v i j k).slotErrs = s.slotErrs := rfl
@[simp] theorem Dev.bump_slotErrs (s : Dev) (f : Reg.Fld) (i j k n : Nat) : (s.bump f i j k n).slotErrs = s.slotErrs := rfl
@[simp] theorem Dev.reach_slotErrs (s : Dev) (t : Nat) : (s.reach t).slotErrs = s.slotErrs := rfl
@[simp] theorem Dev.setF_free (s : Dev) (f : Reg.Fld) (v i j k : Nat) : (s.setF f v i j k).free = s.free := rfl
@[simp] theorem Dev.bump_free (s : Dev) (f : Reg.Fld) (i j k n : Nat) : (s.bump f i j k n).free = s.free := rfl
@[simp] theorem Dev.reach_free (s : Dev) (t : Nat) : (s.reach t).free = s.free := rfl
@[simp] theorem Dev.writeSlot_free (s : Dev) (n : Nat) (c : Cell) : (s.writeSlot n c).free = s.free := rfl
@[simp] theorem Dev.setF_tb (s : Dev) (f : Reg.Fld) (v i j k : Nat) : (s.setF f v i j k).tb = s.tb := rfl
@[simp] theorem Dev.bump_tb (s : Dev) (f : Reg.Fld) (i j k n : Nat) : (s.bump f i j k n).tb = s.tb := rfl
@[simp] theorem Dev.reach_tb (s : Dev) (t : Nat) : (s.reach t).tb = s.tb := rfl
@[simp] theorem Dev.writeSlot_tb (s : Dev) (n : Nat) (c : Cell) : (s.writeSlot n c).tb = s.tb := rfl
@[simp] theorem Dev.setF_straps (s : Dev) (f : Reg.Fld) (v i j k : Nat) : (s.setF f v i j k).straps = s.straps := rfl
@[simp] theorem Dev.bump_straps (s : Dev) (f : Reg.Fld) (i j k n : Nat) : (s.bump f i j k n).straps = s.straps := rfl
@[simp] theorem Dev.reach_straps (s : Dev) (t : Nat) : (s.reach t).straps = s.straps := rfl
@[simp] theorem Dev.writeSlot_straps (s : Dev) (n : Nat) (c : Cell) : (s.writeSlot n c).straps = s.straps := rfl
@[simp] theorem Dev.setF_lastRead (s : Dev) (f : Reg.Fld) (v i j k : Nat) : (s.setF f v i j k).lastRead = s.lastRead := rfl
@[simp] theorem Dev.bump_lastRead (s : Dev) (f : Reg.Fld) (i j k n : Nat) : (s.bump f i j k n).lastRead = s.lastRead := rfl
@[simp] theorem Dev.reach_lastRead (s : Dev) (t : Nat) : (s.reach t).lastRead = s.lastRead := rfl
@[simp] theorem Dev.writeSlot_lastRead (s : Dev) (n : Nat) (c : Cell) : (s.writeSlot n c).lastRead = s.lastRead := rfl
@[simp] theorem Dev.setF_lastStatus (s : Dev) (f : Reg.Fld) (v i j k : Nat) : (s.setF f v i j k).lastStatus = s.lastStatus := rfl
@[simp] theorem Dev.bump_lastStatus (s : Dev) (f : Reg.Fld) (i j k n : Nat) : (s.bump f i j k n).lastStatus = s.lastStatus := rfl
@[simp] theorem Dev.reach_lastStatus (s : Dev) (t : Nat) : (s.reach t).lastStatus = s.lastStatus := rfl
@[simp] theorem Dev.writeSlot_lastStatus (s : Dev) (n : Nat) (c : Cell) : (s.writeSlot n c).lastStatus = s.lastStatus := rfl
@[simp] theorem Dev.setF_lastGrain (s : Dev) (f : Reg.Fld) (v i j k : Nat) : (s.setF f v i j k).lastGrain = s.lastGrain := rfl
@[simp] theorem Dev.bump_lastGrain (s : Dev) (f : Reg.Fld) (i j k n : Nat) : (s.bump f i j k n).lastGrain = s.lastGrain := rfl
@[simp] theorem Dev.reach_lastGrain (s : Dev) (t : Nat) : (s.reach t).lastGrain = s.lastGrain := rfl
@[simp] theorem Dev.writeSlot_lastGrain (s : Dev) (n : Nat) (c : Cell) : (s.writeSlot n c).lastGrain = s.lastGrain := rfl
@[simp] theorem Dev.setF_halted (s : Dev) (f : Reg.Fld) (v i j k : Nat) : (s.setF f v i j k).halted = s.halted := rfl
@[simp] theorem Dev.bump_halted (s : Dev) (f : Reg.Fld) (i j k n : Nat) : (s.bump f i j k n).halted = s.halted := rfl
@[simp] theorem Dev.reach_halted (s : Dev) (t : Nat) : (s.reach t).halted = s.halted := rfl
@[simp] theorem Dev.writeSlot_halted (s : Dev) (n : Nat) (c : Cell) : (s.writeSlot n c).halted = s.halted := rfl
@[simp] theorem Dev.setF_queues (s : Dev) (f : Reg.Fld) (v i j k : Nat) : (s.setF f v i j k).queues = s.queues := rfl
@[simp] theorem Dev.bump_queues (s : Dev) (f : Reg.Fld) (i j k n : Nat) : (s.bump f i j k n).queues = s.queues := rfl
@[simp] theorem Dev.reach_queues (s : Dev) (t : Nat) : (s.reach t).queues = s.queues := rfl
@[simp] theorem Dev.writeSlot_queues (s : Dev) (n : Nat) (c : Cell) : (s.writeSlot n c).queues = s.queues := rfl
@[simp] theorem Dev.setF_banks (s : Dev) (f : Reg.Fld) (v i j k : Nat) : (s.setF f v i j k).banks = s.banks := rfl
@[simp] theorem Dev.bump_banks (s : Dev) (f : Reg.Fld) (i j k n : Nat) : (s.bump f i j k n).banks = s.banks := rfl
@[simp] theorem Dev.reach_banks (s : Dev) (t : Nat) : (s.reach t).banks = s.banks := rfl
@[simp] theorem Dev.writeSlot_banks (s : Dev) (n : Nat) (c : Cell) : (s.writeSlot n c).banks = s.banks := rfl
@[simp] theorem Dev.setF_evtSrcs (s : Dev) (f : Reg.Fld) (v i j k : Nat) : (s.setF f v i j k).evtSrcs = s.evtSrcs := rfl
@[simp] theorem Dev.bump_evtSrcs (s : Dev) (f : Reg.Fld) (i j k n : Nat) : (s.bump f i j k n).evtSrcs = s.evtSrcs := rfl
@[simp] theorem Dev.reach_evtSrcs (s : Dev) (t : Nat) : (s.reach t).evtSrcs = s.evtSrcs := rfl
@[simp] theorem Dev.writeSlot_evtSrcs (s : Dev) (n : Nat) (c : Cell) : (s.writeSlot n c).evtSrcs = s.evtSrcs := rfl
@[simp] theorem Dev.setF_alarmUntil (s : Dev) (f : Reg.Fld) (v i j k : Nat) : (s.setF f v i j k).alarmUntil = s.alarmUntil := rfl
@[simp] theorem Dev.bump_alarmUntil (s : Dev) (f : Reg.Fld) (i j k n : Nat) : (s.bump f i j k n).alarmUntil = s.alarmUntil := rfl
@[simp] theorem Dev.reach_alarmUntil (s : Dev) (t : Nat) : (s.reach t).alarmUntil = s.alarmUntil := rfl
@[simp] theorem Dev.writeSlot_alarmUntil (s : Dev) (n : Nat) (c : Cell) : (s.writeSlot n c).alarmUntil = s.alarmUntil := rfl
@[simp] theorem Dev.setF_parts (s : Dev) (f : Reg.Fld) (v i j k : Nat) : (s.setF f v i j k).parts = s.parts := rfl
@[simp] theorem Dev.bump_parts (s : Dev) (f : Reg.Fld) (i j k n : Nat) : (s.bump f i j k n).parts = s.parts := rfl
@[simp] theorem Dev.reach_parts (s : Dev) (t : Nat) : (s.reach t).parts = s.parts := rfl
@[simp] theorem Dev.writeSlot_parts (s : Dev) (n : Nat) (c : Cell) : (s.writeSlot n c).parts = s.parts := rfl
@[simp] theorem Dev.setF_merges (s : Dev) (f : Reg.Fld) (v i j k : Nat) : (s.setF f v i j k).merges = s.merges := rfl
@[simp] theorem Dev.bump_merges (s : Dev) (f : Reg.Fld) (i j k n : Nat) : (s.bump f i j k n).merges = s.merges := rfl
@[simp] theorem Dev.reach_merges (s : Dev) (t : Nat) : (s.reach t).merges = s.merges := rfl
@[simp] theorem Dev.writeSlot_merges (s : Dev) (n : Nat) (c : Cell) : (s.writeSlot n c).merges = s.merges := rfl
@[simp] theorem Dev.setF_breaks (s : Dev) (f : Reg.Fld) (v i j k : Nat) : (s.setF f v i j k).breaks = s.breaks := rfl
@[simp] theorem Dev.bump_breaks (s : Dev) (f : Reg.Fld) (i j k n : Nat) : (s.bump f i j k n).breaks = s.breaks := rfl
@[simp] theorem Dev.reach_breaks (s : Dev) (t : Nat) : (s.reach t).breaks = s.breaks := rfl
@[simp] theorem Dev.writeSlot_breaks (s : Dev) (n : Nat) (c : Cell) : (s.writeSlot n c).breaks = s.breaks := rfl
@[simp] theorem Dev.setF_twin (s : Dev) (f : Reg.Fld) (v i j k : Nat) : (s.setF f v i j k).twin = s.twin := rfl
@[simp] theorem Dev.bump_twin (s : Dev) (f : Reg.Fld) (i j k n : Nat) : (s.bump f i j k n).twin = s.twin := rfl
@[simp] theorem Dev.reach_twin (s : Dev) (t : Nat) : (s.reach t).twin = s.twin := rfl
@[simp] theorem Dev.writeSlot_twin (s : Dev) (n : Nat) (c : Cell) : (s.writeSlot n c).twin = s.twin := rfl
@[simp] theorem Dev.setF_chans (s : Dev) (f : Reg.Fld) (v i j k : Nat) : (s.setF f v i j k).chans = s.chans := rfl
@[simp] theorem Dev.bump_chans (s : Dev) (f : Reg.Fld) (i j k n : Nat) : (s.bump f i j k n).chans = s.chans := rfl
@[simp] theorem Dev.reach_chans (s : Dev) (t : Nat) : (s.reach t).chans = s.chans := rfl
@[simp] theorem Dev.writeSlot_chans (s : Dev) (n : Nat) (c : Cell) : (s.writeSlot n c).chans = s.chans := rfl
@[simp] theorem Dev.setF_streams (s : Dev) (f : Reg.Fld) (v i j k : Nat) : (s.setF f v i j k).streams = s.streams := rfl
@[simp] theorem Dev.bump_streams (s : Dev) (f : Reg.Fld) (i j k n : Nat) : (s.bump f i j k n).streams = s.streams := rfl
@[simp] theorem Dev.reach_streams (s : Dev) (t : Nat) : (s.reach t).streams = s.streams := rfl
@[simp] theorem Dev.writeSlot_streams (s : Dev) (n : Nat) (c : Cell) : (s.writeSlot n c).streams = s.streams := rfl
@[simp] theorem Dev.setF_ports (s : Dev) (f : Reg.Fld) (v i j k : Nat) : (s.setF f v i j k).ports = s.ports := rfl
@[simp] theorem Dev.bump_ports (s : Dev) (f : Reg.Fld) (i j k n : Nat) : (s.bump f i j k n).ports = s.ports := rfl
@[simp] theorem Dev.reach_ports (s : Dev) (t : Nat) : (s.reach t).ports = s.ports := rfl
@[simp] theorem Dev.writeSlot_ports (s : Dev) (n : Nat) (c : Cell) : (s.writeSlot n c).ports = s.ports := rfl
@[simp] theorem Dev.setF_ccis (s : Dev) (f : Reg.Fld) (v i j k : Nat) : (s.setF f v i j k).ccis = s.ccis := rfl
@[simp] theorem Dev.bump_ccis (s : Dev) (f : Reg.Fld) (i j k n : Nat) : (s.bump f i j k n).ccis = s.ccis := rfl
@[simp] theorem Dev.reach_ccis (s : Dev) (t : Nat) : (s.reach t).ccis = s.ccis := rfl
@[simp] theorem Dev.writeSlot_ccis (s : Dev) (n : Nat) (c : Cell) : (s.writeSlot n c).ccis = s.ccis := rfl
@[simp] theorem Dev.setF_encs (s : Dev) (f : Reg.Fld) (v i j k : Nat) : (s.setF f v i j k).encs = s.encs := rfl
@[simp] theorem Dev.bump_encs (s : Dev) (f : Reg.Fld) (i j k n : Nat) : (s.bump f i j k n).encs = s.encs := rfl
@[simp] theorem Dev.reach_encs (s : Dev) (t : Nat) : (s.reach t).encs = s.encs := rfl
@[simp] theorem Dev.writeSlot_encs (s : Dev) (n : Nat) (c : Cell) : (s.writeSlot n c).encs = s.encs := rfl
@[simp] theorem Dev.setF_heads (s : Dev) (f : Reg.Fld) (v i j k : Nat) : (s.setF f v i j k).heads = s.heads := rfl
@[simp] theorem Dev.bump_heads (s : Dev) (f : Reg.Fld) (i j k n : Nat) : (s.bump f i j k n).heads = s.heads := rfl
@[simp] theorem Dev.reach_heads (s : Dev) (t : Nat) : (s.reach t).heads = s.heads := rfl
@[simp] theorem Dev.writeSlot_heads (s : Dev) (n : Nat) (c : Cell) : (s.writeSlot n c).heads = s.heads := rfl
@[simp] theorem Dev.setF_strobes (s : Dev) (f : Reg.Fld) (v i j k : Nat) : (s.setF f v i j k).strobes = s.strobes := rfl
@[simp] theorem Dev.bump_strobes (s : Dev) (f : Reg.Fld) (i j k n : Nat) : (s.bump f i j k n).strobes = s.strobes := rfl
@[simp] theorem Dev.reach_strobes (s : Dev) (t : Nat) : (s.reach t).strobes = s.strobes := rfl
@[simp] theorem Dev.writeSlot_strobes (s : Dev) (n : Nat) (c : Cell) : (s.writeSlot n c).strobes = s.strobes := rfl
@[simp] theorem Dev.setF_marn (s : Dev) (f : Reg.Fld) (v i j k : Nat) : (s.setF f v i j k).marn = s.marn := rfl
@[simp] theorem Dev.bump_marn (s : Dev) (f : Reg.Fld) (i j k n : Nat) : (s.bump f i j k n).marn = s.marn := rfl
@[simp] theorem Dev.reach_marn (s : Dev) (t : Nat) : (s.reach t).marn = s.marn := rfl
@[simp] theorem Dev.writeSlot_marn (s : Dev) (n : Nat) (c : Cell) : (s.writeSlot n c).marn = s.marn := rfl
@[simp] theorem Dev.setF_flanks (s : Dev) (f : Reg.Fld) (v i j k : Nat) : (s.setF f v i j k).flanks = s.flanks := rfl
@[simp] theorem Dev.bump_flanks (s : Dev) (f : Reg.Fld) (i j k n : Nat) : (s.bump f i j k n).flanks = s.flanks := rfl
@[simp] theorem Dev.reach_flanks (s : Dev) (t : Nat) : (s.reach t).flanks = s.flanks := rfl
@[simp] theorem Dev.writeSlot_flanks (s : Dev) (n : Nat) (c : Cell) : (s.writeSlot n c).flanks = s.flanks := rfl
@[simp] theorem Dev.setF_chain (s : Dev) (f : Reg.Fld) (v i j k : Nat) : (s.setF f v i j k).chain = s.chain := rfl
@[simp] theorem Dev.bump_chain (s : Dev) (f : Reg.Fld) (i j k n : Nat) : (s.bump f i j k n).chain = s.chain := rfl
@[simp] theorem Dev.reach_chain (s : Dev) (t : Nat) : (s.reach t).chain = s.chain := rfl
@[simp] theorem Dev.writeSlot_chain (s : Dev) (n : Nat) (c : Cell) : (s.writeSlot n c).chain = s.chain := rfl
@[simp] theorem Dev.setF_plls (s : Dev) (f : Reg.Fld) (v i j k : Nat) : (s.setF f v i j k).plls = s.plls := rfl
@[simp] theorem Dev.bump_plls (s : Dev) (f : Reg.Fld) (i j k n : Nat) : (s.bump f i j k n).plls = s.plls := rfl
@[simp] theorem Dev.reach_plls (s : Dev) (t : Nat) : (s.reach t).plls = s.plls := rfl
@[simp] theorem Dev.writeSlot_plls (s : Dev) (n : Nat) (c : Cell) : (s.writeSlot n c).plls = s.plls := rfl
@[simp] theorem Dev.setF_cals (s : Dev) (f : Reg.Fld) (v i j k : Nat) : (s.setF f v i j k).cals = s.cals := rfl
@[simp] theorem Dev.bump_cals (s : Dev) (f : Reg.Fld) (i j k n : Nat) : (s.bump f i j k n).cals = s.cals := rfl
@[simp] theorem Dev.reach_cals (s : Dev) (t : Nat) : (s.reach t).cals = s.cals := rfl
@[simp] theorem Dev.writeSlot_cals (s : Dev) (n : Nat) (c : Cell) : (s.writeSlot n c).cals = s.cals := rfl
@[simp] theorem Dev.setF_start (s : Dev) (f : Reg.Fld) (v i j k : Nat) : (s.setF f v i j k).start = s.start := rfl
@[simp] theorem Dev.bump_start (s : Dev) (f : Reg.Fld) (i j k n : Nat) : (s.bump f i j k n).start = s.start := rfl
@[simp] theorem Dev.reach_start (s : Dev) (t : Nat) : (s.reach t).start = s.start := rfl
@[simp] theorem Dev.writeSlot_start (s : Dev) (n : Nat) (c : Cell) : (s.writeSlot n c).start = s.start := rfl
@[simp] theorem Dev.setF_tumbler (s : Dev) (f : Reg.Fld) (v i j k : Nat) : (s.setF f v i j k).tumbler = s.tumbler := rfl
@[simp] theorem Dev.bump_tumbler (s : Dev) (f : Reg.Fld) (i j k n : Nat) : (s.bump f i j k n).tumbler = s.tumbler := rfl
@[simp] theorem Dev.reach_tumbler (s : Dev) (t : Nat) : (s.reach t).tumbler = s.tumbler := rfl
@[simp] theorem Dev.writeSlot_tumbler (s : Dev) (n : Nat) (c : Cell) : (s.writeSlot n c).tumbler = s.tumbler := rfl
@[simp] theorem Dev.setF_strapPins (s : Dev) (f : Reg.Fld) (v i j k : Nat) : (s.setF f v i j k).strapPins = s.strapPins := rfl
@[simp] theorem Dev.bump_strapPins (s : Dev) (f : Reg.Fld) (i j k n : Nat) : (s.bump f i j k n).strapPins = s.strapPins := rfl
@[simp] theorem Dev.reach_strapPins (s : Dev) (t : Nat) : (s.reach t).strapPins = s.strapPins := rfl
@[simp] theorem Dev.writeSlot_strapPins (s : Dev) (n : Nat) (c : Cell) : (s.writeSlot n c).strapPins = s.strapPins := rfl
@[simp] theorem Dev.setF_time (s : Dev) (f : Reg.Fld) (v i j k : Nat) : (s.setF f v i j k).time = s.time := rfl
@[simp] theorem Dev.bump_time (s : Dev) (f : Reg.Fld) (i j k n : Nat) : (s.bump f i j k n).time = s.time := rfl
@[simp] theorem Dev.reach_time (s : Dev) (t : Nat) : (s.reach t).time = s.time := rfl
@[simp] theorem Dev.writeSlot_time (s : Dev) (n : Nat) (c : Cell) : (s.writeSlot n c).time = s.time := rfl
@[simp] theorem Dev.setF_latches (s : Dev) (f : Reg.Fld) (v i j k : Nat) : (s.setF f v i j k).latches = s.latches := rfl
@[simp] theorem Dev.bump_latches (s : Dev) (f : Reg.Fld) (i j k n : Nat) : (s.bump f i j k n).latches = s.latches := rfl
@[simp] theorem Dev.reach_latches (s : Dev) (t : Nat) : (s.reach t).latches = s.latches := rfl
@[simp] theorem Dev.writeSlot_latches (s : Dev) (n : Nat) (c : Cell) : (s.writeSlot n c).latches = s.latches := rfl
@[simp] theorem Dev.setF_img (s : Dev) (f : Reg.Fld) (v i j k : Nat) : (s.setF f v i j k).img = s.img := rfl
@[simp] theorem Dev.bump_img (s : Dev) (f : Reg.Fld) (i j k n : Nat) : (s.bump f i j k n).img = s.img := rfl
@[simp] theorem Dev.reach_img (s : Dev) (t : Nat) : (s.reach t).img = s.img := rfl
@[simp] theorem Dev.writeSlot_img (s : Dev) (n : Nat) (c : Cell) : (s.writeSlot n c).img = s.img := rfl
@[simp] theorem Dev.setF_arms (s : Dev) (f : Reg.Fld) (v i j k : Nat) : (s.setF f v i j k).arms = s.arms := rfl
@[simp] theorem Dev.bump_arms (s : Dev) (f : Reg.Fld) (i j k n : Nat) : (s.bump f i j k n).arms = s.arms := rfl
@[simp] theorem Dev.reach_arms (s : Dev) (t : Nat) : (s.reach t).arms = s.arms := rfl
@[simp] theorem Dev.writeSlot_arms (s : Dev) (n : Nat) (c : Cell) : (s.writeSlot n c).arms = s.arms := rfl
@[simp] theorem Dev.setF_tiles (s : Dev) (f : Reg.Fld) (v i j k : Nat) : (s.setF f v i j k).tiles = s.tiles := rfl
@[simp] theorem Dev.bump_tiles (s : Dev) (f : Reg.Fld) (i j k n : Nat) : (s.bump f i j k n).tiles = s.tiles := rfl
@[simp] theorem Dev.reach_tiles (s : Dev) (t : Nat) : (s.reach t).tiles = s.tiles := rfl
@[simp] theorem Dev.writeSlot_tiles (s : Dev) (n : Nat) (c : Cell) : (s.writeSlot n c).tiles = s.tiles := rfl
@[simp] theorem Dev.setF_kals (s : Dev) (f : Reg.Fld) (v i j k : Nat) : (s.setF f v i j k).kals = s.kals := rfl
@[simp] theorem Dev.bump_kals (s : Dev) (f : Reg.Fld) (i j k n : Nat) : (s.bump f i j k n).kals = s.kals := rfl
@[simp] theorem Dev.reach_kals (s : Dev) (t : Nat) : (s.reach t).kals = s.kals := rfl
@[simp] theorem Dev.writeSlot_kals (s : Dev) (n : Nat) (c : Cell) : (s.writeSlot n c).kals = s.kals := rfl
@[simp] theorem Dev.setF_pgrs (s : Dev) (f : Reg.Fld) (v i j k : Nat) : (s.setF f v i j k).pgrs = s.pgrs := rfl
@[simp] theorem Dev.bump_pgrs (s : Dev) (f : Reg.Fld) (i j k n : Nat) : (s.bump f i j k n).pgrs = s.pgrs := rfl
@[simp] theorem Dev.reach_pgrs (s : Dev) (t : Nat) : (s.reach t).pgrs = s.pgrs := rfl
@[simp] theorem Dev.writeSlot_pgrs (s : Dev) (n : Nat) (c : Cell) : (s.writeSlot n c).pgrs = s.pgrs := rfl
@[simp] theorem Dev.setF_jigs (s : Dev) (f : Reg.Fld) (v i j k : Nat) : (s.setF f v i j k).jigs = s.jigs := rfl
@[simp] theorem Dev.bump_jigs (s : Dev) (f : Reg.Fld) (i j k n : Nat) : (s.bump f i j k n).jigs = s.jigs := rfl
@[simp] theorem Dev.reach_jigs (s : Dev) (t : Nat) : (s.reach t).jigs = s.jigs := rfl
@[simp] theorem Dev.writeSlot_jigs (s : Dev) (n : Nat) (c : Cell) : (s.writeSlot n c).jigs = s.jigs := rfl
@[simp] theorem Dev.setF_abas (s : Dev) (f : Reg.Fld) (v i j k : Nat) : (s.setF f v i j k).abas = s.abas := rfl
@[simp] theorem Dev.bump_abas (s : Dev) (f : Reg.Fld) (i j k n : Nat) : (s.bump f i j k n).abas = s.abas := rfl
@[simp] theorem Dev.reach_abas (s : Dev) (t : Nat) : (s.reach t).abas = s.abas := rfl
@[simp] theorem Dev.writeSlot_abas (s : Dev) (n : Nat) (c : Cell) : (s.writeSlot n c).abas = s.abas := rfl
@[simp] theorem Dev.setF_upls (s : Dev) (f : Reg.Fld) (v i j k : Nat) : (s.setF f v i j k).upls = s.upls := rfl
@[simp] theorem Dev.bump_upls (s : Dev) (f : Reg.Fld) (i j k n : Nat) : (s.bump f i j k n).upls = s.upls := rfl
@[simp] theorem Dev.reach_upls (s : Dev) (t : Nat) : (s.reach t).upls = s.upls := rfl
@[simp] theorem Dev.writeSlot_upls (s : Dev) (n : Nat) (c : Cell) : (s.writeSlot n c).upls = s.upls := rfl
@[simp] theorem Dev.setF_kmp (s : Dev) (f : Reg.Fld) (v i j k : Nat) : (s.setF f v i j k).kmp = s.kmp := rfl
@[simp] theorem Dev.bump_kmp (s : Dev) (f : Reg.Fld) (i j k n : Nat) : (s.bump f i j k n).kmp = s.kmp := rfl
@[simp] theorem Dev.reach_kmp (s : Dev) (t : Nat) : (s.reach t).kmp = s.kmp := rfl
@[simp] theorem Dev.writeSlot_kmp (s : Dev) (n : Nat) (c : Cell) : (s.writeSlot n c).kmp = s.kmp := rfl
@[simp] theorem Dev.setF_boot (s : Dev) (f : Reg.Fld) (v i j k : Nat) : (s.setF f v i j k).boot = s.boot := rfl
@[simp] theorem Dev.bump_boot (s : Dev) (f : Reg.Fld) (i j k n : Nat) : (s.bump f i j k n).boot = s.boot := rfl
@[simp] theorem Dev.reach_boot (s : Dev) (t : Nat) : (s.reach t).boot = s.boot := rfl
@[simp] theorem Dev.writeSlot_boot (s : Dev) (n : Nat) (c : Cell) : (s.writeSlot n c).boot = s.boot := rfl
@[simp] theorem Dev.setF_dbg (s : Dev) (f : Reg.Fld) (v i j k : Nat) : (s.setF f v i j k).dbg = s.dbg := rfl
@[simp] theorem Dev.bump_dbg (s : Dev) (f : Reg.Fld) (i j k n : Nat) : (s.bump f i j k n).dbg = s.dbg := rfl
@[simp] theorem Dev.reach_dbg (s : Dev) (t : Nat) : (s.reach t).dbg = s.dbg := rfl
@[simp] theorem Dev.writeSlot_dbg (s : Dev) (n : Nat) (c : Cell) : (s.writeSlot n c).dbg = s.dbg := rfl
@[simp] theorem Dev.setF_scrub (s : Dev) (f : Reg.Fld) (v i j k : Nat) : (s.setF f v i j k).scrub = s.scrub := rfl
@[simp] theorem Dev.bump_scrub (s : Dev) (f : Reg.Fld) (i j k n : Nat) : (s.bump f i j k n).scrub = s.scrub := rfl
@[simp] theorem Dev.reach_scrub (s : Dev) (t : Nat) : (s.reach t).scrub = s.scrub := rfl
@[simp] theorem Dev.writeSlot_scrub (s : Dev) (n : Nat) (c : Cell) : (s.writeSlot n c).scrub = s.scrub := rfl

/-- The instant that a deadline leaves. -/
@[simp] theorem Dev.reach_now (s : Dev) (t : Nat) : (s.reach t).now = max s.now t := rfl

end Sys2Proof.Machine
end

