-- ==== Sys2Proof/WellFormed.lean ====
section
/-! DEFINITION. What the spec asks of a command's operands beyond their types: message sizes, sample counts, payload ranges. -/

namespace Sys2Proof

/-- A KMP message (R291): a payload of 0–1,088 bytes, and a 32-byte tag. -/
def KmpMsg.wf (m : KmpMsg) : Bool := decide (m.payload.length ≤ 1088) && m.tag.length == 32

/-- A ring message (R313, R393): an event record is four grains, a KMP message well formed. -/
def RingBody.wf : RingBody → Bool
  | .event _ r => r.length == 4
  | .kmp m => m.wf
  | .twinTraffic m => m.wf
  | .sample _ => true
  | .sync _ _ => true
  | .commitReady _ => true
  | .commitAnnounce _ _ _ _ _ => true
  | .restepAnnounce _ _ => true
  | .enumerate _ _ _ _ _ _ _ => true
  | .chainDone _ _ _ => true
  | .presence => true
  | .join => true
  | .twinBeacon _ => true

/-- The body of a ring message a command carries, where it carries one. -/
def Instr.ring? : Instr → Option RingMsg
  | .positionSampleReceive _ m => some m
  | .syncMessage _ m => some m
  | .commitReadyMessage _ m => some m
  | .commitAnnouncement _ m => some m
  | .kmpRelayMessage _ m => some m
  | .enumerateMessage _ m => some m
  | .chainDoneMessage _ m => some m
  | .presenceMessage _ m => some m
  | .joinMessage _ m => some m
  | .twinBeacon _ m => some m
  | .eventRelayMessage _ m => some m
  | .restepAnnouncement _ m => some m
  | _ => none

/-- The KMP message a command carries, where it carries one. -/
def Instr.kmp? : Instr → Option KmpMsg
  | .kmpHello _ m => some m
  | .kmpRead32 _ m => some m
  | .kmpRead64 _ m => some m
  | .kmpWrite32 _ m => some m
  | .kmpWrite64 _ m => some m
  | .kmpUnknownOpcode _ m => some m
  | .imageChunk _ m => some m
  | .kmpSync _ m => some m
  | .noticeAck _ m => some m
  | .twinDigest _ m => some m
  | _ => none

/-- Operand conditions of single commands: the sensors and monitors of a sample (R411, R412), the lanes of a deskew (R87), the
grains of a step (R440), the cells of a seam frame (R317), the copies of the boot record (R419), a packet's word count (R84). -/
def Instr.operandsOk : Instr → Bool
  | .tempSample r => r.length == 16
  | .vmonSample r => r.length == 24
  | .deskewBurst _ k => decide (k.length ≤ 4)
  | .stepUpdate _ _ n => decide (1 ≤ n.toNat)
  | .seamCopyReceive _ _ cs => !cs.isEmpty
  | .firmwareLoaded b => b.record0.length == 192 && b.record1.length == 192
  | .longPacket _ p => decide (p.payload.length < 65536)
  | .eventRelayMessage _ m => match m.body with
    | .event _ _ => true
    | _ => false
  | .kmpRelayMessage _ m => match m.body with
    | .kmp _ => true
    | _ => false
  | _ => true

/-- Is a command well formed? -/
def Instr.wf (i : Instr) : Bool :=
  (i.ring?.map (fun m => m.body.wf)).getD true && (i.kmp?.map KmpMsg.wf).getD true && i.operandsOk

end Sys2Proof
end

