-- ==== Sys2Proof/Tests/Slice0.lean ====
section
/-! SUPPORT. Tests: ill-formed operands are refused, every statement's hypotheses are met by some state, and worked examples of the
spec come out as it gives them. -/

open Sys2Proof Sys2Proof.Machine

namespace Sys2Proof.Tests

set_option Elab.async false

/-! ### Helpers -/

/-- A device with fields set one after another. -/
def fs (d : Dev) (l : List (Reg.Fld × Nat × Nat × Nat × Nat)) : Dev :=
  l.foldl (fun d x => d.setF x.1 x.2.1 x.2.2.1 x.2.2.2.1 x.2.2.2.2) d

/-- The reset state with a device. -/
def on (d : Dev) : State := { State.reset with dev := d }

/-- The reset state with fields set. -/
def mk (l : List (Reg.Fld × Nat × Nat × Nat × Nat)) : State := on (fs Dev.init l)

/-- An enabled queue of 2^log slots at base · 64, of a shape. -/
def queueOf (q base log shape lineCommit : Nat) : List (Reg.Fld × Nat × Nat × Nat × Nat) :=
  [(Reg.QD_BASE.base, base, q, 0, 0), (Reg.QD_BASE.size_log2, log, q, 0, 0), (Reg.QD_BASE.shape, shape, q, 0, 0),
   (Reg.QD_BASE.enable, 1, q, 0, 0), (Reg.QD_BASE.line_commit, lineCommit, q, 0, 0), (Reg.QD_BASE.high_mark, 60, q, 0, 0)]

/-- The grains of a line of four-sample nouns, S16, the last of them ended by `last`. -/
def lineOf (ctx gen ordinal index last : Nat) (samples : List (List Nat)) : List Cell :=
  [(({ ctx := ctx, gen := gen, ordinal := ordinal, flags := 0, index := index } : Tag).grain, mkCode cColon), (0, mkCode cBracket)] ++
    (samples.dropLast.map (fun x => (packGrain 2 x, mkCode cNoun))) ++
    ((samples.getLast?.map (fun x => (packGrain 2 x, mkCode last))).toList)

/-- The pilcrow of a block. -/
def pil (block : Nat) : Cell := (pilcrowGrain block 0 0, mkCode cPilcrow)

/-- P0 over KMP and over the debug port, and P3 over KMP. -/
def p0 : Requester := ⟨0, .kmp⟩
/-- P0's rights at the debug port. -/
def dbg : Requester := ⟨0, .debug⟩
/-- P3 over KMP. -/
def p3 : Requester := ⟨3, .kmp⟩

/-- A message with nothing in it. -/
def msg0 : KmpMsg :=
  { opcode := 0, part := 0, destination := 0, source := 0, flags := 0, sequence := 1, length := 0, status := 0, payload := []
    tag := List.replicate 32 0, peerIp := 0, peerPort := 0 }

/-- A ring message with a body. -/
def ring (origin : BitVec 7) (b : RingBody) : RingMsg :=
  { origin := origin, destination := 0, hops := 0, msgId := 1, broadcast := true, channel := 0, body := b }

/-- A frame without a header of its own that a link in RUN hears is in sequence. -/
theorem in_sequence {d : Dev} {l : Link} {f : Option FrameSeq} (h : (d.flkUp l.val && f.all (fun x => x.seq.toNat == (d.flank l.val).rxSeq)) = true) :
    InSequence d l f := by
  cases f <;> simp_all [InSequence]

/-- A message in sequence, of another origin, of which no copy came before. -/
theorem first_of {d : Dev} {l : Link} {m : RingMsg} (h : (d.flkUp l.val && m.frame.all (fun x => x.seq.toNat == (d.flank l.val).rxSeq) &&
    !(passedOn d l m).isOrigin m && ((passedOn d l m).firstCopy m).isNone) = true) : FirstCopy d l m := by
  simp only [Bool.and_eq_true, Bool.not_eq_true', Option.isNone_iff_eq_none] at h
  exact ⟨in_sequence (by simp [h.1.1]), h.1.2, h.2⟩

/-! ### Well-formed commands -/

/-- R291: a payload of at most 1,088 bytes, a tag of 32. -/
theorem test_wf_kmp : (Instr.kmpHello 0 msg0).wf = true ∧ (Instr.kmpHello 0 { msg0 with tag := [] }).wf = false ∧
    (Instr.kmpRead64 0 { msg0 with payload := List.replicate 1089 0 }).wf = false := by decide +kernel

/-- R393: the record of an event is four grains; R313: the KMP message that a ring message carries is well formed. -/
theorem test_wf_ring : (Instr.eventRelayMessage 0 (ring 1 (.event 0 [0, 0, 0, 0]))).wf = true ∧
    (Instr.eventRelayMessage 0 (ring 1 (.event 0 [0, 0, 0]))).wf = false ∧ (Instr.eventRelayMessage 0 (ring 1 .join)).wf = false ∧
    (Instr.kmpRelayMessage 0 (ring 1 (.kmp { msg0 with tag := [] }))).wf = false ∧ (Instr.kmpRelayMessage 0 (ring 1 .join)).wf = false := by
  decide +kernel

/-- A packet with a payload. -/
def packet (payload : List Byte) : LongPacket := ⟨0, 0x2A, .ok, payload, true, false, [], []⟩

/-- The operand conditions of single commands. -/
theorem test_wf_operands : (Instr.tempSample (List.replicate 16 0)).wf = true ∧ (Instr.tempSample []).wf = false ∧
    (Instr.vmonSample []).wf = false ∧ (Instr.deskewBurst 0 [0, 0, 0, 0, 0]).wf = false ∧ (Instr.stepUpdate true 0 0).wf = false ∧
    (Instr.seamCopyReceive 0 0 []).wf = false ∧ (Instr.firmwareLoaded ⟨[], [], true, true⟩).wf = false := by decide +kernel

/-- The word count of a packet has 16 bits (R84). -/
theorem test_wf_packet : (Instr.longPacket 0 (packet [])).wf = true ∧
    (Instr.longPacket 0 (packet (List.replicate 65536 0))).wf = false := by decide +kernel

/-! ### Accesses -/

/-- An address of 40 bits. -/
def at_ (a : Nat) : Addr := BitVec.ofNat 40 a

/-- HostAccessCompletes: P0 writes QD_BASE of queue 7, and reads a port's counters, at both paths; a write of the warm reset cuts its
own request off. -/
theorem test_hyp_HostAccessCompletes :
    let a := at_ (Reg.QD_BASE.base.addr 7 0 0)
    let b := at_ (Reg.SPORT_STAT.unmatched.addr 31 0 0)
    let c := at_ (Reg.TMB_RESET.warm.addr 0 0 0)
    let w : Word := BitVec.ofNat 64 (0xC5 * 2 ^ Reg.TMB_RESET.confirm.lo + 2 ^ Reg.TMB_RESET.warm.lo)
    let s := mk []
    let u := mk [(Reg.DBG_STATUS.unlocked, 1, 0, 0, 0)]
    let after := fun (s : State) (who : Requester) (key : Nat) (h : Reg.Hit) (a : Addr) (v : Word) =>
      (({ s with dev := s.dev.askedBy (askerOf who) } : State).writeWord who key h (accessMask a.toNat true) (placed a.toNat true v)).dev
    (inWindow a.toNat = false ∧ aligned a.toNat true = true ∧ ∃ key h, s.dev.locate (wordAddr a.toNat) = some (key, h) ∧
      s.dev.mayWrite p0 key h (placed a.toNat true 5) = true ∧ s.dev.busyFor p0 key h (accessMask a.toNat true) = false ∧
      s.dev.cutOff (after s p0 key h a 5) p0 = false) ∧
    (u.dev.dbgOpen = true ∧ ∃ key h, u.dev.locate (wordAddr a.toNat) = some (key, h) ∧
      u.dev.mayWrite dbg key h (placed a.toNat true 5) = true ∧ u.dev.busyFor dbg key h (accessMask a.toNat true) = false ∧
      u.dev.cutOff (after u dbg key h a 5) dbg = false) ∧
    (inWindow c.toNat = false ∧ aligned c.toNat true = true ∧ ∃ key h, s.dev.locate (wordAddr c.toNat) = some (key, h) ∧
      s.dev.mayWrite p0 key h (placed c.toNat true w) = true ∧ s.dev.busyFor p0 key h (accessMask c.toNat true) = false ∧
      s.dev.cutOff (after s p0 key h c w) p0 = true) ∧
    (inWindow b.toNat = false ∧ aligned b.toNat true = true ∧ ∃ key h, s.dev.locate (wordAddr b.toNat) = some (key, h) ∧
      s.dev.mayRead 0 key h = true ∧ u.dev.mayRead 0 key h = true) := by
  refine ⟨⟨by decide +kernel, by decide +kernel, _, _, rfl, by decide +kernel, by decide +kernel, by decide +kernel⟩,
    ⟨by decide +kernel, _, _, rfl, by decide +kernel, by decide +kernel, by decide +kernel⟩,
    ⟨by decide +kernel, by decide +kernel, _, _, rfl, by decide +kernel, by decide +kernel, by decide +kernel⟩,
    by decide +kernel, by decide +kernel, _, _, rfl, by decide +kernel, by decide +kernel⟩

/-- WindowAccess: P0 may reach slot 0 and the last slot of the window. -/
theorem test_hyp_WindowAccess :
    let s := mk []
    s.dev.windowBars p0 windowBase true = none ∧ s.dev.windowBars p0 (windowBase + 12) false = none ∧
    s.dev.windowBars p0 (windowBase + 16 * lastSlot + 8) true = none ∧ s.dev.windowBars p0 (windowBase + 4) true ≠ none := by
  decide +kernel

/-! ### Queues -/

/-- A queue 7 of 64 slots that holds a pilcrow. -/
def q1 : Dev := (fs Dev.init (queueOf 7 0 6 2 0)).qWriteAll 7 [pil 5]

/-- ConsumerPort: queue 7 runs, is empty, and holds a pilcrow that the grammar takes. -/
theorem test_hyp_ConsumerPort :
    let s := mk (queueOf 7 0 6 2 0)
    let u := on q1
    s.dev.qMoves 7 = true ∧ s.dev.fill 7 = 0 ∧ u.dev.qMoves 7 = true ∧ u.dev.fill 7 ≠ 0 ∧ u.dev.breaks = [] ∧
    u.dev.slotErr (u.dev.slotAt 7 (u.dev.fld Reg.QD_CONS.read_ptr 7)) = .clean ∧
    gramStep (u.dev.queue 7).gram (u.dev.slotCell (u.dev.slotAt 7 (u.dev.fld Reg.QD_CONS.read_ptr 7))) = (.block, none, false) := by
  decide +kernel

/-- ProducerOperations: a queue with room and one that is full; a queue of lines, untapped and tapped; copies that wait and none. -/
theorem test_hyp_ProducerOperations :
    let s := mk (queueOf 7 0 6 2 0)
    let f := on ((fs Dev.init (queueOf 7 0 6 2 0)).qWriteAll 7 (List.replicate 64 (0, mkCode cNoun)))
    let l := mk (queueOf 7 0 6 2 1)
    let t := mk [(Reg.ABA_TAP.enable, 1, 63, 0, 0), (Reg.ABA_TAP.src_q, 7, 63, 0, 0), (Reg.ABA_TAP.tap_q, 8, 63, 0, 0)]
    let k := on (fs Dev.init (queueOf 7 0 6 2 1 ++ [(Reg.ABA_TAP.enable, 1, 63, 0, 0), (Reg.ABA_TAP.src_q, 7, 63, 0, 0), (Reg.ABA_TAP.tap_q, 8, 63, 0, 0)]))
    let b := on (f.dev.setQueue 7 { f.dev.queue 7 with copyBuf := [(0, mkCode cNoun)] })
    (f.dev.qLive 7 = true ∧ codeOf (mkCode cNoun) ≠ cIdle ∧ (f.dev.queue 7).dropping = .nothing ∧ f.dev.qWaits 64 7 = true) ∧
    (s.dev.qLive 7 = true ∧ s.dev.qWaits 64 7 = false ∧ codeOf (mkCode cNoun) ≠ cStop) ∧
    (l.dev.qMoves 7 = true ∧ l.dev.qLineCommit 7 = true ∧ l.dev.tapOf 7 = none) ∧
    (k.dev.qMoves 7 = true ∧ k.dev.qLineCommit 7 = true ∧ k.dev.tapOf 7 = some (63, 8)) ∧
    (((f.dev.qHold 7 (0, mkCode cNoun)).setQueue 7 { (f.dev.qHold 7 (0, mkCode cNoun)).queue 7 with held := [] }).qWriteAll 7
      ((f.dev.qHold 7 (0, mkCode cNoun)).queue 7).held).qStalled 7 = true ∧
    ((s.dev.setQueue 7 { s.dev.queue 7 with held := [] }).qWriteAll 7 (s.dev.queue 7).held).qStalled 7 = false ∧
    ((t.dev.cfg 7 (0x8000 + 63)).flag Reg.ABA_TAP.enable 63 = true ∧
      ((t.dev.drainCopies 63 ((t.dev.cfg 7 (0x8000 + 63)).fld Reg.ABA_TAP.tap_q 63) 0).queue 8).copyBuf = []) ∧
    ((b.dev.drainCopies 63 7 (b.dev.queue 7).copyBuf.length).queue 7).copyBuf ≠ [] := by decide +kernel

/-- IdleWriteCounts: the idle code, with the bits of the mark above it clear and set. -/
theorem test_hyp_IdleWriteCounts : (mk (queueOf 7 0 6 2 0)).dev.qLive 7 = true ∧ (0x3F#12 : Mark).toNat % 64 = 0x3F ∧
    (0xFF#12 : Mark).toNat % 64 = 0x3F := by decide +kernel

/-- WriteThenRead: all of its conditions, for a pilcrow into an empty queue. -/
theorem test_hyp_WriteThenRead :
    let d := (mk (queueOf 7 0 6 2 0)).dev
    (d.qMoves 7 = true ∧ d.qLineCommit 7 = false ∧ d.tapOf 7 = none ∧ d.breaks = [] ∧ (d.queue 7).held = [] ∧
    (d.queue 7).dropping = .nothing ∧ codeOf (mkCode cPilcrow) ≠ cIdle ∧ codeOf (mkCode cPilcrow) ≠ cStop ∧
    d.fld Reg.QD_BASE.size_log2 7 ≤ 22 ∧ d.qFull 7 = false ∧ d.fld Reg.QD_PROD.write_ptr 7 < d.qMod 7 ∧
    d.fld Reg.QD_PROD.commit_ptr 7 = d.fld Reg.QD_PROD.write_ptr 7 ∧ d.fld Reg.QD_CONS.read_ptr 7 = d.fld Reg.QD_PROD.write_ptr 7 ∧
    (gramStep (d.queue 7).gram (pil 5)).2 = (none, false)) ∧
    (∃ t, exec (.queueWrite 7 (pil 5).1 (pil 5).2) (on d) = .next t ∧ ∃ u, exec (.queueRead 7) t = .next u ∧ u.dev.lastGrain = pil 5) := by
  exact ⟨by decide +kernel, _, rfl, _, rfl, by decide +kernel⟩

/-- A conjunction 0 that takes queues 7 and 8 in order to queue 9, with the line of ordinal 0 at queue 7. -/
def conj : Dev :=
  ((fs Dev.init (queueOf 7 0 6 2 1 ++ queueOf 8 1 6 2 1 ++ queueOf 9 2 6 2 1 ++
    [(Reg.QFAB_CONJ_CFG.enable, 1, 0, 0, 0), (Reg.QFAB_CONJ_CFG.in_base, 7, 0, 0, 0), (Reg.QFAB_CONJ_CFG.in_count, 1, 0, 0, 0),
     (Reg.QFAB_CONJ_CFG.out_q, 9, 0, 0, 0), (Reg.QFAB_CONJ_CFG.ordered, 1, 0, 0, 0), (Reg.QFAB_CONJ_ORD.ordinals_low, 3, 0, 0, 0)])).qWriteAll
    7 ([pil 5] ++ lineOf 0 0 0 100 cComma [[1, 2, 3, 4]])).qWriteAll 8 [pil 5]

/-- BanksAndConjunctions: a bank with nothing and with two requests; a conjunction that runs, with a round that has a deadline. -/
theorem test_hyp_BanksAndConjunctions :
    let s := mk []
    let r := { s.dev.bankDir 255 with waiting := (s.dev.bankDir 255).waiting ++ ([⟨.port 7, 127⟩, ⟨.maint, 8388607⟩] : List BankReq).map s.dev.bankWait }
    let c := on conj
    let m := c.dev.conjCfg 0
    let a := ((c.dev.mAbsorbAll m).mOpenRound m).mSince m
    (bankKey 127 true = 255 ∧ bankOfSlot 127 = 127 ∧ bankOfSlot 8388607 = 127) ∧
    s.dev.bankPick (s.dev.bankDir 0) = none ∧ (∃ k w, s.dev.bankPick r = some k ∧ station r.waiting k = some w) ∧
    (c.dev.part ((c.dev.cfg 0 0x8000).fld Reg.QFAB_CONJ_CFG.owner 0)).stalled = false ∧
    (c.dev.switchAt 0 0x8000 (c.dev.merge 0).pil.isSome (fun cf => conjInputs cf 0) = c.dev ∧ c.dev.conjRuns 0 = true ∧
      m.ordered = true ∧ c.dev.qStalled m.out = false) ∧
    (let z := (mk (queueOf 9 2 6 2 1 ++ [(Reg.QFAB_CONJ_CFG.enable, 1, 0, 0, 0), (Reg.QFAB_CONJ_CFG.in_base, 7, 0, 0, 0),
        (Reg.QFAB_CONJ_CFG.out_q, 9, 0, 0, 0), (Reg.QFAB_CONJ_CFG.ordered, 1, 0, 0, 0)])).dev
     z.conjRuns 0 = true ∧ (z.conjCfg 0).ordered = true ∧ z.qStalled (z.conjCfg 0).out = false ∧
      ((((z.mAbsorbAll (z.conjCfg 0)).mOpenRound (z.conjCfg 0)).mSince (z.conjCfg 0)).merge 0).round = none) ∧ (∃ n, (a.merge 0).round = some n) ∧ (∃ t, a.conjDeadline 0 = some t) := by
  refine ⟨by decide +kernel, by decide +kernel, ⟨3, _, by decide +kernel, rfl⟩, by decide +kernel, by decide +kernel, by decide +kernel,
    ⟨100, by decide +kernel⟩, ?_⟩
  exact Option.isSome_iff_exists.mp (by decide +kernel)

/-! ### Sensor ports and control buses -/

/-- Port 31 runs: enabled, C-PHY, at 1,000 MSym/s, framed per trigger; stream 3 takes virtual channel 5, data type 0x2A, to queue 7. -/
def port : List (Reg.Fld × Nat × Nat × Nat × Nat) :=
  queueOf 7 0 6 2 0 ++ [(Reg.SPORT_CTRL.enable, 1, 31, 0, 0), (Reg.SPORT_CTRL.phy, 1, 31, 0, 0), (Reg.SPORT_CTRL.framing, 1, 31, 0, 0),
    (Reg.SPORT_STREAM_A.enable, 1, 31, 3, 0), (Reg.SPORT_STREAM_A.vc, 5, 31, 3, 0), (Reg.SPORT_STREAM_A.dt, 0x2A, 31, 3, 0),
    (Reg.SPORT_STREAM_A.out_q, 7, 31, 3, 0)]

/-- SensorPorts: packets, frames, windows, a waiting grain and a deskew burst. -/
theorem test_hyp_SensorPorts :
    let d := (mk port).dev
    let y := (fs Dev.init (port ++ [(Reg.SPORT_CTRL.phy, 0, 31, 0, 0), (Reg.SPORT_CTRL.rate, 2500, 31, 0, 0),
      (Reg.CAL_BLK.state, csApplying, 55, 0, 0)]))
    let f := d.setPort 31 { d.port 31 with frames := [(5, 1000)] }
    let r : TrigRec := ⟨100, 0, 0, 0, 0, 0, 0, none⟩
    let w := d.modStream 31 3 (fun x => { x with recs := [r], store := [((0, mkCode cNoun), true)] })
    let v := d.modStream 31 3 (fun x => { x with recs := [{ r with received := 1 }] })
    let z := fs d [(Reg.SPORT_CTRL.framing, 0, 31, 0, 0)]
    (d.portListens 31 = true ∧ d.portRuns 31 = true ∧ d.needsDeskew 31 = false ∧ d.matchStream 31 5 0x2A = some 3 ∧
      d.matchStream 31 31 0x2A = none ∧ (d.bump Reg.SPORT_STAT.hdr_corrected 31).matchStream 31 5 0x2A = some 3 ∧
      (d.cfg 1 31).fld Reg.SPORT_CTRL.framing 31 = 1) ∧
    (y.portListens 31 = true ∧ y.needsDeskew 31 = true ∧ y.fld Reg.SPORT_CTRL.phy 31 = 0 ∧ y.calState (24 + 31) = csApplying) ∧
    (z.portListens 31 = true ∧ z.needsDeskew 31 = false ∧ z.portRuns 31 = true ∧ (z.cfg 1 31).fld Reg.SPORT_CTRL.framing 31 = 0) ∧
    (f.portListens 31 = true ∧ (f.port 31).frames.find? (fun f => f.1 == 5) = some (5, 1000)) ∧
    (w.portRuns 31 = true ∧ (w.stream (4 * 31 + 3)).recs.find? (fun r => r.received == 0) = some r ∧
      (w.stream (4 * 31 + 3)).store = [((0, mkCode cNoun), true)] ∧ w.qWaits 64 (w.streamQ 31 3) = false) ∧
    (v.portRuns 31 = true ∧ (v.stream (4 * 31 + 3)).recs.find? (fun r => r.received != 0) = some { r with received := 1 }) := by
  decide +kernel

/-- ControlBusAndSets: the bus of a direct command and of a set, in a transaction and abandoned; what a listener expects, and does
not. -/
theorem test_hyp_ControlBus :
    let e := fs Dev.init [(Reg.SPORT_EXP_ENTRY.valid, 1, 31, 3, 0), (Reg.SPORT_CCI_CFG.role, 1, 31, 0, 0), (Reg.SPORT_CCI_CFG.addr16, 1, 31, 0, 0)]
    let j := fun (x : CciJob) => e.modCci 31 (fun r => { r with job := x })
    let t := (j (.set 3)).setExp 31 3 { ExpRec.init with phase := 1, ending := some caCancelled }
    let b := ((j (.abandoned 1000)).setF Reg.SPORT_CCI_CMD.go 1 31).modCci 31 (fun r => { r with directDue := some 2000 })
    let x := (j .idle).setExp 31 3 { ExpRec.init with phase := 1 }
    let a := x.modCci 31 (fun r => { r with lastBusy := x.now })
    let tr : CciTrans := ⟨false, 0, 0, 0⟩
    ((j .direct).cci 31).job = .direct ∧ (j .direct).flag Reg.SPORT_CCI_CMD.read 31 = false ∧
    (((j .direct).cfg 1 31).flag Reg.SPORT_CCI_CFG.mode 31 = false ∧ ((j (.set 3)).cfg 1 31).flag Reg.SPORT_CCI_CFG.mode 31 = false ∧
      (t.cfg 1 31).flag Reg.SPORT_CCI_CFG.mode 31 = false ∧ e.cciActive 31 = false ∧ Dev.init.cciActive 31 = true) ∧
    (((j (.set 3)).cci 31).job = .set 3 ∧ ((j (.set 3)).exp 31 3).ending = none) ∧
    ((t.cci 31).job = .set 3 ∧ (t.exp 31 3).ending = some caCancelled) ∧
    ((b.cci 31).job = .abandoned 1000 ∧ (b.cfg 1 31).flag Reg.SPORT_CCI_CFG.mode 31 = false ∧ (b.cciDues 31).min?.isSome = true) ∧
    (x.cciActive 31 = false ∧ (a.expOrder 31).find? (fun k => (a.exp 31 k).lastEnd.isNone) = some 3 ∧
      (let t := (a.expPlan 31 3).getD (a.exp 31 3).next (0, false)
       (tr.read = t.2 ∧ a.cciAddr 31 tr.reg.toNat = a.cciAddr 31 (a.fld Reg.SPORT_EXP_ENTRY.reg_addr 31 3 t.1) ∧
        tr.bytes.val = a.fld Reg.SPORT_EXP_ENTRY.bytes 31 3 t.1 ∧ tr.data.toNat % 256 = a.fld Reg.SPORT_EXP_ENTRY.data 31 3 t.1 % 256) ∧
       a.cciAddr 31 (1#16 : BitVec 16).toNat ≠ a.cciAddr 31 (a.fld Reg.SPORT_EXP_ENTRY.reg_addr 31 3 t.1))) := by decide +kernel

/-- ControlBusAndSets: a direct command in its transaction, a listener that waits, a slot that may be armed and one that may be
cancelled. -/
theorem test_hyp_ControlBusAndSets :
    let d := (mk []).dev
    let j := (fs Dev.init [(Reg.SPORT_CCI_CMD.go, 1, 31, 0, 0), (Reg.SPORT_CCI_CMD.read, 1, 31, 0, 0)]).modCci 31
      (fun r => { r with job := .direct })
    let l := fs Dev.init [(Reg.SPORT_CCI_CFG.role, 1, 31, 0, 0)]
    let w := l.modCci 31 (fun r => { r with activeWait := some 1000 })
    let e := fs Dev.init [(Reg.SPORT_EXP_ENTRY.valid, 1, 31, 3, 0)]
    let a := e.setExp 31 3 { ExpRec.init with phase := 1 }
    d.flag Reg.SPORT_CCI_CMD.go 31 = false ∧
    ((j.cci 31).job = .direct ∧ j.flag Reg.SPORT_CCI_CMD.read 31 = true ∧ (j.cfg 1 31).flag Reg.SPORT_CCI_CFG.mode 31 = false) ∧
    (l.cciActive 31 = false ∧ (l.modCci 31 (fun r => { r with lastBusy := l.now })).expOrder 31 = []) ∧
    (w.cci 31).activeWait = some 1000 ∧
    let c := a.modCci 31 (fun r => { r with job := .set 3 })
    let o := e.setExp 31 0 { ExpRec.init with phase := 1 }
    ((e.exp 31 3).phase = 0 ∧ e.expWellFormed 31 3 = true ∧ (List.range 4).any (fun j => j != 3 && (e.exp 31 j).phase != 0 &&
      e.expIndex 31 j == e.expIndex 31 3) = false) ∧
    (d.expWellFormed 31 3 = false ∧ (o.exp 31 3).phase = 0 ∧ (List.range 4).any (fun j => j != 3 && (o.exp 31 j).phase != 0 &&
      o.expIndex 31 j == o.expIndex 31 3) = true) ∧
    ((a.exp 31 3).phase = 1 ∧ (a.cci 31).job ≠ .set 3) ∧ ((c.exp 31 3).phase = 1 ∧ (c.cci 31).job = .set 3) := by decide +kernel

/-! ### Marionette -/

/-- MarionetteInputs: an encoder that is on, at steps of each kind; its Z edges, near and off the nominal, of the active encoder and of
another; its windows; its stalls; and a restart with and without a holdover of the root's own. -/
theorem test_hyp_MarionetteInputs :
    let d := fs Dev.init [(Reg.MARN_ENC.enable, 1, 3, 0, 0), (Reg.MARN_ENC.glitch, 4, 3, 0, 0)]
    let n := { d with marn := { d.marn with runningAt := some 1000 } }
    let v := fs d [(Reg.MARN_ENC_CHK.accel_limit, 4, 3, 0, 0)]
    let w := fun (k : Int) => v.setEnc 3 { v.enc 3 with count := k, winPrev := some 0 }
    let z := fs Dev.init [(Reg.MARN_ENC.enable, 1, 0, 0, 0), (Reg.MARN_ENC.z_check, 1, 0, 0, 0), (Reg.MARN_ZCHK.z_nominal, 100, 0, 0, 0),
      (Reg.MARN_ZCHK.z_tol, 2, 0, 0, 0)]
    let turn := fun (k : Int) => z.setEnc 0 { z.enc 0 with count := k, zCount := some 0 }
    let off := fun (d : Dev) => d.flag Reg.MARN_ENC.z_check 0 = true ∧
      (((d.enc 0).zCount.map (fun z => ((d.enc 0).count - z).natAbs)).getD 100 + 2 < 100 ∨
        100 + 2 < ((d.enc 0).zCount.map (fun z => ((d.enc 0).count - z).natAbs)).getD 100)
    let f := { d with marn := { d.marn with selfHold := true } }
    let steps := fun (a b : Bool) => (quadrature a b + 4 - quadrature (d.enc 3).a (d.enc 3).b) % 4
    (d.encOn 3 = true ∧ d.flag Reg.MARN_ENC.swap_ab 3 = false ∧ d.glitchPassed 3 (4#16 : BitVec 16).toNat = true ∧
      (steps true false = 1 ∧ steps false true = 3 ∨ steps true false = 3 ∧ steps false true = 1) ∧ steps true true = 2) ∧
    (d.flag Reg.MARN_ENC.z_check 3 = false ∧ 3 ≠ d.activeEnc) ∧
    (z.encOn 0 = true ∧ 0 = z.activeEnc ∧ z.glitchPassed 0 (0#16 : BitVec 16).toNat = true ∧ ¬ off (turn 98) ∧ ¬ off (turn 102) ∧
      off (turn 97) ∧ off (turn 103)) ∧
    (d.rateMode = false ∧ (d.enc 3).winPrev = none) ∧
    ((w 6).encOn 3 = true ∧ (w 6).rateMode = false ∧ ((w 6).enc 3).winPrev = some 0 ∧
      (w 6).fld Reg.MARN_ENC_CHK.accel_limit + 1 < (((w 6).enc 3).count - ((w 6).enc 3).winCount - 0).natAbs ∧
      (((w 5).enc 3).count - ((w 5).enc 3).winCount - 0).natAbs ≤ (w 5).fld Reg.MARN_ENC_CHK.accel_limit + 1) ∧
    (n.encOn 3 = true ∧ n.marn.runningAt = some 1000 ∧ n.rateMode = false ∧
      (n.enc 3).stalledFrom ≠ some (max (max 1000 (n.enc 3).edgeAt) (n.enc 3).stallFrom)) ∧
    (d.marn.selfHold = false ∧ f.marn.selfHold = true ∧ f.marn.triggering = false ∧ f.encOn 3 = true ∧
      ({ f with marn := { f.marn with triggering := true } } : Dev).marn.triggering = true) := by decide +kernel

/-- MarionetteInputs: the cross-check of a root, within its tolerance and beyond it. -/
theorem test_hyp_CrossCheck :
    let x := { fs Dev.init [(Reg.MARN_XCHK.enable, 1, 0, 0, 0), (Reg.MARN_XRATIO.ratio, 1, 0, 0, 0)] with straps := ⟨true, false, false, 0⟩ }
    let off := { x with marn := { x.marn with xRefS := -(2 ^ 60) } }
    let apart := fun (d : Dev) => ((d.sense (d.enc (d.fld Reg.MARN_CTRL.primary)).count - d.marn.xRefP) * 2 ^ 32 -
      d.fld Reg.MARN_XRATIO.ratio * (d.sense (d.enc (d.fld Reg.MARN_XCHK.secondary)).count - d.marn.xRefS)).natAbs
    let ends := fun (d : Dev) => d.straps.root = true ∧ d.flag Reg.MARN_XCHK.enable = true ∧
      d.fld Reg.MARN_XCHK.span ≤ (d.sense (d.enc (d.fld Reg.MARN_CTRL.primary)).count - d.marn.xRefP).natAbs
    (ends off ∧ off.fld Reg.MARN_XCHK.tol * 2 ^ 32 < apart off) ∧ (ends x ∧ apart x ≤ x.fld Reg.MARN_XCHK.tol * 2 ^ 32) := by
  decide +kernel

/-- A sample whose status shows the grid on. -/
def sample : PosSample := ⟨3, 1000, 0, 0, 1, 1, 0, 0, 0, 0, 0⟩

/-- A link in RUN, and a device that hears it. -/
def linked : Dev := fs Dev.init [(Reg.FLK_STATUS.state, fsRun, 1, 0, 0)]

/-- A model at rest at position 0. -/
def resting (d : Dev) : Dev := { d with marn := { d.marn with model := some ⟨0, 0, 0, 0⟩, triggering := true } }

/-- PositionSamples: the first copy of a sample at a follower, in time and late. -/
theorem test_hyp_PositionSamples_heard :
    let m := ring 5 (.sample sample)
    let late := { linked with now := 10 ^ 18 }
    (FirstCopy linked 1 m ∧ FirstCopy late 1 m) ∧ m.broadcast = true ∧ (heardFirst linked 1 m).straps.root = false ∧
    (heardFirst linked 1 m).now ≤ (heardFirst linked 1 m).applyAt sample ∧ (heardFirst late 1 m).straps.root = false ∧
    (heardFirst late 1 m).applyAt sample < (heardFirst late 1 m).now := by
  exact ⟨⟨first_of (by decide +kernel), first_of (by decide +kernel)⟩, by decide +kernel⟩

/-- PositionSamples: a root, a waiting sample, a follower that loses its samples, a device that stops triggering, or has stopped, or
restarts its grid, or may not. -/
theorem test_hyp_PositionSamples :
    let r : Dev := { Dev.init with straps := ⟨true, false, false, 0⟩ }
    let w := { Dev.init with marn := { MarnRec.init with waiting := [sample] } }
    let h := { resting Dev.init with straps := ⟨false, false, false, 0⟩ }
    let k := { h with marn := { h.marn with holdAt := some 1000 } }
    let g := { k with marn := { k.marn with restartWaits := true, selfHold := true } }
    let e := g.setEnc 0 { g.enc 0 with failed := true }
    let after := fun (d : Dev) =>
      let b := (d.reach (1000 + 100 * Config.usPs)).marnSync
      (if b.marn.selfHold then b.modMarn (fun r => { r with holdOver := true }) else b).stopTriggers true
    r.straps.root = true ∧ w.marn.waiting = [sample] ∧ (h.marn.model.isSome = true ∧ h.marn.holdAt = none ∧ h.straps.root = false) ∧
    (w.marn.triggering = false ∧ k.marn.holdAt = some 1000 ∧ k.marn.waiting = [] ∧ k.marn.triggering = true ∧
      (after k).marn.restartWaits = false) ∧
    (g.marn.holdAt = some 1000 ∧ g.marn.selfHold = true ∧ g.marn.triggering = true ∧ (after g).marn.restartWaits = true ∧
      ((after g).enc (after g).activeEnc).failed = false) ∧
    (e.marn.holdAt = some 1000 ∧ e.marn.selfHold = true ∧ e.marn.triggering = true ∧ (after e).marn.restartWaits = true ∧
      ((after e).enc (after e).activeEnc).failed = true) := by decide +kernel

/-- TriggersAndStrobes: head 31 fires at line 0, or skips it after a pulse just before; a pulse and a midpoint wait; strobe 15 starts at
line 0. -/
theorem test_hyp_TriggersAndStrobes :
    let d := resting (fs Dev.init [(Reg.MARN_HEAD.enable, 1, 31, 0, 0), (Reg.MARN_HEAD.min_period, 1, 31, 0, 0),
      (Reg.MARN_SEQ.head_mask, 2 ^ 31, 0, 0, 0), (Reg.MARN_SEQ.strobe_mask, 2 ^ 15, 0, 0, 0), (Reg.MARN_STB.enable, 1, 15, 0, 0),
      (Reg.MARN_PITCH.pitch, 65536, 0, 0, 0)])
    let n := d.headLine 31 (d.head 31).next
    let p := d.setHead 31 { d.head 31 with pulseEnd := some 1000, midDue := [(7, 2000)] }
    let b := d.setStrobe 15 { d.strobe 15 with activeUntil := some 1000 }
    let fires := fun (d : Dev) (t : Int) => d.marn.triggering = true ∧ d.headLine 31 (d.head 31).next = n ∧ headOn (d.lineCfg n) 31 = true ∧
      ((d.lineCfg n).fld Reg.MARN_SEQ.head_mask (seqEntry (d.lineCfg n) n)).testBit 31 = true ∧ d.fireAt 31 n = some t
    let period := (d.lineCfg n).fld Reg.MARN_HEAD.min_period 31 * Config.nsPs
    let late := d.setHead 31 { d.head 31 with pulseAt := some 1 }
    let well := { d.setHead 31 { d.head 31 with pulseAt := some 0 } with now := period }
    (fires d 0 ∧ ((d.reach 0).marnSync.head 31).pulseAt = none) ∧
    (fires late 0 ∧ ((late.reach 0).marnSync.head 31).pulseAt = some 1 ∧ (late.reach 0).marnSync.now < 1 + period) ∧
    (fires well period ∧ ((well.reach period).marnSync.head 31).pulseAt = some 0 ∧ 0 + period ≤ (well.reach period).marnSync.now) ∧
    ((p.head 31).pulseEnd = some 1000 ∧ (p.head 31).midDue = [(7, 2000)]) ∧
    (d.strobeLine 15 (d.strobe 15).next = some 0 ∧ (d.lineCfg 0).flag Reg.MARN_STB.enable 15 = true ∧
      d.crossing (d.linePos 0) = some 0) ∧
    (b.strobe 15).activeUntil = some 1000 := by decide +kernel

/-- GridControl: run on a root, each SYNC pin and both, and a port whose triggers have ended. -/
theorem test_hyp_GridControl :
    let r : Dev := { fs Dev.init [(Reg.MARN_SYNC.enable, 1, 0, 0, 0), (Reg.MARN_SYNC.enable, 1, 1, 0, 0), (Reg.MARN_SYNC.min_width, 8, 0, 0, 0)]
      with straps := ⟨true, false, false, 0⟩ }
    let p := (mk port).dev.setPort 31 { (mk port).dev.port 31 with stopPending := true }
    (r.straps.root = true ∧ r.flag Reg.MARN_CTRL.run = false) ∧
    (r.marnSync.syncAccepts 0 (some true) 8 = true ∧ r.marnSync.syncAccepts 1 (some true) 8 = true) ∧
    (r.marnSync.syncAccepts 0 (some true) 8 = true ∧ r.marnSync.syncAccepts 1 none 8 = false) ∧
    (r.marnSync.syncAccepts 0 (some true) 7 = false ∧ r.marnSync.syncAccepts 1 (some true) 7 = true) ∧
    ((p.port 31).stopPending = true ∧ p.portRuns 31 = true ∧
      (p.streamsOn 31).all (fun st => (p.stream (4 * 31 + st)).recs.isEmpty) = true) := by decide +kernel

/-- GridControl: a SYNC message that a root hears. -/
theorem test_hyp_GridControl_heard :
    let l : Dev := { fs Dev.init [(Reg.FLK_STATUS.state, fsRun, 1, 0, 0), (Reg.FLK_CHAIN.assigned, 1, 0, 0, 0)]
      with straps := ⟨true, false, false, 0⟩ }
    let m := { ring 5 (.sync 1 77) with broadcast := false }
    FirstCopy l 1 m ∧ m.body = .sync 1 77 ∧ (heardFirst l 1 m).isDest m = true ∧ (heardFirst l 1 m).straps.root = true := by
  exact ⟨first_of (by decide +kernel), by decide +kernel⟩

/-! ### Tiles, Kaleidoscope, resamplers -/

/-- Tile 255 takes lines of eight samples from queue 7 to queue 8; one waits after its pilcrow. -/
def tile : Dev :=
  (((fs Dev.init (queueOf 7 0 6 2 1 ++ queueOf 8 1 6 2 1 ++ [(Reg.TILE_CTRL.enable, 1, 255, 0, 0), (Reg.TILE_CTRL.in_q, 7, 255, 0, 0),
    (Reg.TILE_CTRL.out_q, 8, 255, 0, 0), (Reg.TILE_CTRL2.in_width, 8, 255, 0, 0)])).qWriteAll 7
      ([pil 5] ++ lineOf 0 0 2 100 cStop [[1, 2, 3, 4], [5, 6, 7, 8]])).tileTurn 255 false none)

/-- TilesAndPages: a tile that may take a line, with an operator that the line reaches, one with a replay, a page that may be loaded, one
in use, and a load. -/
theorem test_hyp_TilesAndPages :
    let o := fs tile [(Reg.TILE_CTRL.op3, 1, 255, 0, 0)]
    let a := o.switchAt 3 255 (o.tile 255).block.isSome (fun c => [c.fld Reg.TILE_CTRL.in_q 255])
    let r := o.modTile 255 (fun x => { x with replay := some (1, some 254) })
    let f := fs Dev.init [(Reg.TILE_LUT_LOAD.page, 3, 255, 0, 0)]
    let p := f.modTile 255 (fun x => { x with loading := some (1024, 3) })
    ((o.part (o.tileOwner 255)).stalled = false ∧ a.tileReady 255 = true ∧ (a.tile 255).replay = none ∧
      ((a.bufferAlarms 3 255 0).tile 255).replay = none ∧ (a.peekItem 7 (some 8)).isSome = true ∧
      (a.tileCfg 255).fld Reg.TILE_CTRL.in_q 255 = 7 ∧ (a.tileCfg 255).fld Reg.TILE_CTRL2.in_width 255 = 8 ∧
      ((a.peekItem 7 (some 8)).map (fun sc => (a.slotComputes 255 7 3 sc, a.slotComputes 255 7 0 sc))) = some (true, false)) ∧
    ((r.part (r.tileOwner 255)).stalled = false ∧ (r.tile 255).replay = some (1, some 254) ∧
      ((r.bufferAlarms 3 255 0).tile 255).replay = some (1, some 254) ∧ r.tileReady 255 = true ∧ (r.peekItem 7 (some 8)).isSome = true ∧
      ((r.peekItem 7 (some 8)).map (fun sc => (r.slotComputes 255 7 3 sc, r.slotComputes 255 7 0 sc))) = some (true, false)) ∧
    ((f.tile 255).loading = none ∧ f.pageInUse 255 (f.fld Reg.TILE_LUT_LOAD.page 255) = false) ∧
    ((Dev.init.tile 255).loading = none ∧ Dev.init.pageInUse 255 (Dev.init.fld Reg.TILE_LUT_LOAD.page 255) = true) ∧
    (p.tile 255).loading = some (1024, 3) := by decide +kernel

/-- TilesAndPages: a third mismatch, of an operator that computes a line: behind it nothing; and a CNV that holds the line before, and a MIX
that waits for the y line of that. -/
theorem test_hyp_TilesAndPages_lost :
    let lost := fun (l : List (Reg.Fld × Nat × Nat × Nat × Nat)) =>
      let d := (fs Dev.init (queueOf 7 0 6 2 1 ++ queueOf 8 1 6 2 1 ++ queueOf 9 2 6 2 1 ++ [(Reg.TILE_CTRL.enable, 1, 255, 0, 0),
        (Reg.TILE_CTRL.in_q, 7, 255, 0, 0), (Reg.TILE_CTRL.out_q, 8, 255, 0, 0), (Reg.TILE_CTRL2.in_width, 4, 255, 0, 0),
        (Reg.TILE_CTRL.op0, 10, 255, 0, 0)] ++ l)).qWriteAll 7
          ([pil 5] ++ lineOf 0 0 2 100 cComma [[1, 2, 3, 4]] ++ lineOf 0 0 2 101 cComma [[1, 2, 3, 4]])
      let r := ((d.tileTurn 255 false none).tileTurn 255 false none).modTile 255 (fun x => { x with replay := some (2, some 254) })
      (r.peekItem 7 (some 4)).map (fun sc =>
        let h := sc.item.head?.getD idleCell
        (r.tileReady 255 && r.slotComputes 255 7 0 sc, ((r.mismatchOn 255 254 0 (Tag.of h.1).index).lostFlow 255 7 0 sc h).isSome))
    lost [] = some (true, true) ∧
    lost [(Reg.TILE_CTRL.op1, 6, 255, 0, 0), (Reg.TILE_P_CNV.v_taps, 3, 255, 0, 0), (Reg.TILE_P_CNV.h_taps, 1, 255, 0, 0),
      (Reg.TILE_CTRL.op2, 8, 255, 0, 0), (Reg.TILE_CTRL2.y_q, 9, 255, 0, 0), (Reg.TILE_P_MIX.y_src, 2, 255, 0, 0)] = some (true, false) := by
  decide +kernel

/-- ParameterCommits: shadow values that are valid, for some context and for none, values that are not, and armed commits. -/
theorem test_hyp_ParameterCommits :
    let n := fs Dev.init [(Reg.KAL_SCRATCH.stride, 1000, 31, 0, 0)]
    let d := fs n [(tileWin.mask, 1, 255, 0, 0), (kalWin.mask, 1, 31, 0, 0), (pgrWin.mask, 1, 31, 0, 0)]
    let a := fs Dev.init [(tileWin.status, 1, 255, 0, 0), (kalWin.status, 1, 31, 0, 0), (pgrWin.status, 1, 31, 0, 0)]
    let b := fs Dev.init [(Reg.TILE_P_LUT.shift, 7, 255, 0, 16), (Reg.KAL_P_SEL.sel0, 7, 31, 0, 16), (Reg.PGR_P_MODE.int_shift, 6, 31, 0, 16)]
    (d.fld tileWin.status 255 ≠ 1 ∧ d.tileBankOk 255 16 = true ∧ d.fld tileWin.mask 255 ≠ 0 ∧ n.fld tileWin.status 255 ≠ 1 ∧
      n.tileBankOk 255 16 = true ∧ n.fld tileWin.mask 255 = 0 ∧ b.tileBankOk 255 16 = false ∧ a.fld tileWin.status 255 = 1) ∧
    (d.fld kalWin.status 31 ≠ 1 ∧ d.kalBankOk 31 16 = true ∧ d.fld kalWin.mask 31 ≠ 0 ∧ n.fld kalWin.status 31 ≠ 1 ∧
      n.kalBankOk 31 16 = true ∧ n.fld kalWin.mask 31 = 0 ∧ b.kalBankOk 31 16 = false ∧ a.fld kalWin.status 31 = 1) ∧
    (d.fld pgrWin.status 31 ≠ 1 ∧ d.pgrBankOk 31 16 = true ∧ d.fld pgrWin.mask 31 ≠ 0 ∧ n.fld pgrWin.status 31 ≠ 1 ∧
      n.pgrBankOk 31 16 = true ∧ n.fld pgrWin.mask 31 = 0 ∧ b.pgrBankOk 31 16 = false ∧ a.fld pgrWin.status 31 = 1) := by decide +kernel

/-- Kaleidoscope unit 31 takes lines of four samples from queue 7 to queue 8. -/
def kalIdle (cells : List Cell) : Dev :=
  (fs Dev.init (queueOf 7 0 6 2 1 ++ queueOf 8 1 6 2 1 ++ [(Reg.KAL_CTRL.enable, 1, 31, 0, 0), (Reg.KAL_CTRL.in_q, 7, 31, 0, 0),
    (Reg.KAL_CTRL.in_width, 4, 31, 0, 0), (Reg.KAL_OUT.out_q, 8, 31, 0, 0), (Reg.KAL_SCRATCH.base, 4096, 31, 0, 0),
    (Reg.KAL_SCRATCH.stride, 10, 31, 0, 0)])).qWriteAll 7 cells

/-- The unit with a line that waits after its pilcrow. -/
def kal : Dev := (kalIdle ([pil 5] ++ lineOf 0 0 2 100 cStop [[1, 2, 3, 4]])).kalCopy 31

/-- Stream 3 of resampler 31 takes lines of four samples from queue 7 to queue 8. -/
def pgrIdle (cells : List Cell) : Dev :=
  (fs Dev.init (queueOf 7 0 6 2 1 ++ queueOf 8 1 6 2 1 ++ [(Reg.PGR_CTRL.enable, 1, 31, 0, 0), (Reg.PGR_STREAM_A.enable, 1, 31, 3, 0),
    (Reg.PGR_STREAM_A.in_q, 7, 31, 3, 0), (Reg.PGR_STREAM_A.in_width, 4, 31, 3, 0), (Reg.PGR_STREAM_A.out_q, 8, 31, 3, 0),
    (Reg.PGR_SCRATCH.base, 4096, 31, 3, 0), (Reg.PGR_SCRATCH.stride, 10, 31, 3, 0)])).qWriteAll 7 cells

/-- The stream with a line that waits after its pilcrow. -/
def pgr : Dev := (pgrIdle ([pil 5] ++ lineOf 0 0 2 100 cStop [[1, 2, 3, 4]])).pgrCopy 31 3

/-- Is an item a line? -/
def isLine : Item → Bool
  | .line _ _ _ => true
  | _ => false

/-- MosaicAndGrid: a line, an ellipsis and a pilcrow to copy into each ring, and, after a line, a set and a group to emit. -/
theorem test_hyp_MosaicAndGrid :
    let k := kal.kalCopy 31
    let p := pgr.pgrCopy 31 3
    let ka := kal.switchAt 4 31 (kal.kal 31).block.isSome (fun c => [c.fld Reg.KAL_CTRL.in_q 31])
    let pa := pgr.switchAt 5 (pgrInst 31 0) (pgr.pgr (pgrInst 31 3)).block.isSome (fun c => [c.fld Reg.PGR_STREAM_A.in_q 31 3])
    let e : Cell := (({ ctx := 0, gen := 0, ordinal := 2, flags := 0, index := 100 } : Tag).grain, mkCode cEllipsis)
    ((kal.part (kal.kalOwner 31)).stalled = false ∧ (k.part (k.kalOwner 31)).stalled = false ∧ (pgr.part (pgr.pgrOwner 31)).stalled = false ∧
      (p.part (p.pgrOwner 31)).stalled = false) ∧
    (ka.kalReady 31 = true ∧ (ka.kal 31).ending = none ∧ (ka.kal 31).skipping = false ∧
      ((ka.peekItem (ka.kalIn 31) (some (ka.kalWidth 31))).map (fun sc => isLine sc.item)) = some true) ∧
    (k.kalReady 31 = true ∧ (List.range (k.kalOuts 31)).all (fun o => !k.qStalled (k.kalOutQ 31 o)) = true ∧
      ((k.kalGroups 31 0).zipIdx.find? (fun gi => !gi.1.emitted)).map (fun gi => gi.2) = some 0 ∧
      k.groupWhole 31 0 (0 + k.kalDelta 31 (k.bankOf kalWin 31 0 100)) = true) ∧
    (pa.pgrReady 31 3 = true ∧ (pa.pgr (pgrInst 31 3)).ending = none ∧ (pa.pgr (pgrInst 31 3)).skipping = false ∧
      ((pa.peekItem (pa.pgrIn 31 3) (some (pa.pgrWidth 31 3))).map (fun sc => isLine sc.item)) = some true) ∧
    (p.pgrReady 31 3 = true ∧ p.qStalled (p.pgrOut 31 3) = false ∧ (p.pgrNext 31 3).map (fun g => p.pgrTurn 31 3 g) = some true) ∧
    (let d := (kalIdle [pil 5])
     let x := (kalIdle [pil 5, e]).kalCopy 31
     ((d.peekItem 7 (some 4)).map (fun sc => sc.item == .pil (pil 5) false)) = some true ∧ d.kalReady 31 = true ∧
      ((x.peekItem 7 (some 4)).map (fun sc => sc.item == .ell e)) = some true ∧ (x.kal 31).skipping = false) ∧
    (let d := (pgrIdle [pil 5])
     let x := (pgrIdle [pil 5, e]).pgrCopy 31 3
     ((d.peekItem 7 (some 4)).map (fun sc => sc.item == .pil (pil 5) false)) = some true ∧ d.pgrReady 31 3 = true ∧
      ((x.peekItem 7 (some 4)).map (fun sc => sc.item == .ell e)) = some true ∧ (x.pgr (pgrInst 31 3)).skipping = false) := by
  decide +kernel

/-! ### Jigsaw, collectors and Abacus -/

/-- Jigsaw unit 15 joins one side, queue 7 of the trigger head 31, into queue 8; block 5 starts at line 100, and lines of it wait. -/
def jigOf (cells : List Cell) : Dev :=
  (({ fs Dev.init (queueOf 7 0 6 2 1 ++ queueOf 8 1 6 2 1 ++ [(Reg.JIG_CTRL.enable, 1, 15, 0, 0), (Reg.JIG_OUT.out_q, 8, 15, 0, 0),
    (Reg.JIG_IN.in_q, 7, 15, 0, 0), (Reg.JIG_IN.g_count, 4, 15, 0, 0), (Reg.PGR_STREAM_A.enable, 1, 31, 0, 0),
    (Reg.PGR_STREAM_A.out_q, 7, 31, 0, 0), (Reg.MARN_SEQ.head_mask, 2 ^ 31, 0, 0, 0)])
      with marn := { MarnRec.init with bounds := [⟨100, 5, 0, false, none⟩] } }).qWriteAll 7
        ([pil 5] ++ cells)).jigPrepare 15

/-- The unit with two lines that wait. -/
def jig : Dev := jigOf (lineOf 0 0 2 100 cComma [[1, 2, 3, 4]] ++ lineOf 0 0 2 101 cStop [[1, 2, 3, 4]])

/-- Collector 15 takes queue 7, whose block 5 ended at line 101 and instant 1000, to queue 8. -/
def col : Dev :=
  let d := ({ fs Dev.init (queueOf 7 0 6 2 1 ++ queueOf 8 1 6 2 1 ++ [(Reg.JIG_COL_CFG.enable, 1, 15, 0, 0),
    (Reg.JIG_COL_CFG.out_q, 8, 15, 0, 0), (Reg.JIG_COL_CFG.in_base, 7, 15, 0, 0)])
      with marn := { MarnRec.init with halts := [(5, 101, 1000)], bounds := [⟨100, 5, 0, false, none⟩] } }).qWriteAll 7 ([pil 5] ++ lineOf 0 0 2 100 cComma [[1, 2, 3, 4]])
  (d.mAbsorbAll (d.colMerge 15)).mOpenRound (d.colMerge 15)

/-- JigsawAndCollectors: a round to open, one that is ready, the last of its block and not, and one whose deadline comes. -/
theorem test_hyp_JigsawRounds :
    let o := jig.setJig 15 { jig.jig 15 with round := some (100, 0) }
    let a := o.jigPrepare 15
    let l := (jigOf (lineOf 0 0 2 100 cStop [[1, 2, 3, 4]]))
    let e := (l.setJig 15 { l.jig 15 with round := some (100, 0) }).jigPrepare 15
    let p := jig.jigPrepare 15
    ((jig.part (jig.jigOwner 15)).stalled = false ∧ (l.part (l.jigOwner 15)).stalled = false) ∧
    (p.jigReady 15 = true ∧ (p.jig 15).pil.isSome = true ∧ p.openIndex 15 = some 100 ∧ p.opensBefore 15 100 = true) ∧
    (a.jigReady 15 = true ∧ (a.jig 15).round = some (100, 0) ∧ a.qStalled (a.jigOut 15) = false ∧ (a.jig 15).pil.isSome = true ∧
      (a.expectedSides 15 100).length = 1 ∧ (a.lowerDue 15 100).isEmpty = true ∧
      (a.expectedSides 15 100).all (fun x => a.behind 15 x.num || a.delivered 15 100 x) = true ∧ a.endsWith 15 100 = false) ∧
    (e.jigReady 15 = true ∧ (e.jig 15).round = some (100, 0) ∧ e.qStalled (e.jigOut 15) = false ∧ (e.jig 15).pil.isSome = true ∧ (e.lowerDue 15 100).isEmpty = true ∧
      (e.expectedSides 15 100).all (fun x => e.behind 15 x.num || e.delivered 15 100 x) = true ∧ e.endsWith 15 100 = true) := by
  decide +kernel

/-- JigsawAndCollectors: a collector with an open round and an open block, and the inputs that the block deadline ends. -/
theorem test_hyp_Collectors :
    let a := col.colPrepare 15
    let m := a.colMerge 15
    let d := a.mAbsorbAll m
    let b := (((a.reach (1000 + a.colWait 15)).mAbsorbAll m).expireRounds m 100000).mAbsorbAll m
    ((col.part ((col.colCfg 15).fld Reg.JIG_CTRL.owner 15)).stalled = false ∧ a.colReady 15 = true ∧ a.qStalled m.out = false) ∧
    ((d.merge m.key).round = some 100 ∧ (d.merge m.key).pil = some (pil 5).1 ∧
      d.colBase (pilBlockOf (pil 5).1) (d.linePos ((100 + 1) % 2 ^ 48)) = some 1000) ∧
    ((a.merge m.key).pil = some (pil 5).1 ∧ a.blockEnd (pilBlockOf (pil 5).1) = some 101 ∧
      a.colBase (pilBlockOf (pil 5).1) (a.linePos 101) = some 1000 ∧ b.qStalled m.out = false ∧ (b.merge m.key).pil = some (pil 5).1 ∧
      (List.range m.inputs.length).filter (fun i => !(b.merge m.key).ended.contains i) ≠ []) := by decide +kernel

/-- Abacus 63 takes queue 7. -/
def abaIdle (cells : List Cell) : Dev :=
  (fs Dev.init (queueOf 7 0 6 2 1 ++ queueOf 8 1 6 2 1 ++ [(Reg.ABA_CTRL.enable, 1, 63, 0, 0), (Reg.ABA_CTRL.in_q, 7, 63, 0, 0),
    (Reg.ABA_CTRL.rec_q, 8, 63, 0, 0), (Reg.ABA_CTX.in_width, 4, 63, 0, 0),
    (Reg.ABA_CTX.ctx_mask, 1, 63, 0, 0)])).qWriteAll 7 cells

/-- The unit with a line of its open block that waits. -/
def aba : Dev := (abaIdle ([pil 5] ++ lineOf 0 0 2 100 cComma [[1, 2, 3, 4]])).abaTurn 63 0

/-- AbacusLines: a unit that is ready, before each kind of item, in an open block and after its accumulations were closed. -/
theorem test_hyp_AbacusLines :
    let front := fun (d : Dev) =>
      let a := d.switchAt 7 63 (d.aba 63).pil.isSome (fun c => [c.fld Reg.ABA_CTRL.in_q 63])
      if (d.part (d.abaOwner 63)).stalled = false ∧ a.abaReady 63 = true then
        (a.peekItem (a.abaIn 63) (some (a.abaWidth 63))).map (fun sc => (sc.item, (a.aba 63).pil.isSome)) else none
    let after := fun (cells : List Cell) => front ((abaIdle ([pil 5] ++ cells)).abaTurn 63 0)
    let closed := fun (cells : List Cell) => front (((abaIdle ([pil 5] ++ cells)).abaTurn 63 0).modAba 63 (fun r => { r with pil := none }))
    let before := fun (cells : List Cell) => front (abaIdle cells)
    let line := lineOf 0 0 2 100 cComma [[1, 2, 3, 4]]
    let e : Cell := (({ ctx := 0, gen := 0, ordinal := 2, flags := 0, index := 100 } : Tag).grain, mkCode cEllipsis)
    let f : Cell := (({ ctx := 15, gen := 0, ordinal := 2, flags := 0, index := 100 } : Tag).grain, mkCode cEllipsis)
    let stop : Cell := (0, mkCode cStop)
    let kind := fun (x : Option (Item × Bool)) => x.map (fun x => (isLine x.1, x.2))
    (kind (after line) = some (true, true) ∧ kind (closed line) = some (true, false)) ∧
    (after [e] = some (.ell e, true) ∧ closed [e] = some (.ell e, false) ∧ after [f] = some (.ell f, true) ∧
      (abaIdle []).abaCtx 63 0 = true ∧ (abaIdle []).abaCtx 63 15 = false) ∧
    (before [pil 5] = some (.pil (pil 5) false, false) ∧ after [pil 6] = some (.pil (pil 6) true, true)) ∧
    (after [stop] = some (.stop, true) ∧ closed [stop] = some (.stop, false)) ∧ before [stop] = some (.noise, false) ∧
    after (lineOf 0 0 2 100 cComma [[1, 2, 3, 4], [5, 6, 7, 8]]) = some (.bad e, true) := by
  decide +kernel

/-! ### Images, fuses and commits -/

/-- A device with image state. -/
def withImg (d : Dev) (f : ImgRec → ImgRec) : Dev := { d with img := f d.img }

/-- An image that only carries its generation. -/
def staged : Staged := ⟨[], [], 7, none, 0, 0, 0⟩

/-- ImageLoading: no load, a load that runs, checks that run, an image staged. -/
theorem test_hyp_ImageLoading :
    let d := (mk []).dev
    let l := withImg (fs Dev.init [(Reg.IMG_STATUS.state, 1, 0, 0, 0)]) (fun r => { r with loader := some (15, true) })
    let c := fs Dev.init [(Reg.IMG_STATUS.state, 2, 0, 0, 0)]
    let g := withImg Dev.init (fun r => { r with staged := some staged })
    (d.img.loader = none ∧ d.readySent = false ∧ d.flag Reg.IMG_STATUS.frozen = false) ∧
    (l.fld Reg.IMG_STATUS.state = 1 ∧ l.img.loader = some ((15 : Part).val, true)) ∧ c.fld Reg.IMG_STATUS.state = 2 ∧
    (l.img.loader.isSome = true ∧ (15 : Part).val = 15 ∧ (0 : Part).val = 0) ∧
    ((fs Dev.init [(Reg.IMG_STATUS.frozen, 1, 0, 0, 0)]).flag Reg.IMG_STATUS.frozen = true ∧
      (fs Dev.init [(Reg.IMG_STATUS.frozen, 1, 0, 0, 0)]).readySent = false) ∧
    (g.img.staged = some staged ∧ g.readySent = false) ∧
    (let r := withImg g (fun r => { r with awaiting := some 9 })
     r.img.staged = some staged ∧ r.readySent = true) := by decide +kernel

/-- FuseBurning: the highest count that a loaded image of that version lets burn, and a burn in progress. -/
theorem test_hyp_FuseBurning :
    let s := on (withImg (fs Dev.init [(Reg.IMG_ROLLBACK.target, 64, 0, 0, 0)]) (fun r => { r with rollback := some 64 }))
    let b := withImg Dev.init (fun r => { r with burning := some 64 })
    (s.dev.img.burning = none ∧ s.dev.img.rollback = some 64 ∧ s.fuses.rollback ≤ s.dev.fld Reg.IMG_ROLLBACK.target ∧
      s.dev.fld Reg.IMG_ROLLBACK.target ≤ 64) ∧ b.img.burning = some 64 ∧
    (let t := on (withImg (fs Dev.init [(Reg.IMG_ROLLBACK.target, 65, 0, 0, 0)]) (fun r => { r with rollback := some 65 }))
     t.dev.img.burning = none ∧ t.dev.img.rollback = some 65 ∧ 64 < t.dev.fld Reg.IMG_ROLLBACK.target) ∧
    (Dev.init.img.burning = none ∧ Dev.init.img.rollback = none) := by decide +kernel

/-- A root, and one with the link FR in RUN and its position assigned. -/
def root : Dev := { Dev.init with straps := ⟨true, false, false, 0⟩ }
/-- The root with a link. -/
def rootLinked : Dev := fs root [(Reg.FLK_STATUS.state, fsRun, 1, 0, 0), (Reg.FLK_CHAIN.assigned, 1, 0, 0, 0)]

/-- ChainCommits: the request of a root, the wait for readies, the switch, a retired queue. -/
theorem test_hyp_ChainCommits :
    let w := withImg (fs root [(Reg.IMG_CHAIN_CFG.chain_status, 1, 0, 0, 0)]) (fun r => { r with request := some ⟨0, 9, 1, 0⟩ })
    let k := withImg (resting Dev.init) (fun r => { r with boundary := some (0, 6) })
    let q := withImg (fs Dev.init (queueOf 7 0 6 2 0)) (fun r => { r with retiring := [7] })
    (root.straps.root = true ∧ root.img.request = none ∧ w.img.request.isSome = true ∧ linked.straps.root = false) ∧
    (w.img.request = some ⟨0, 9, 1, 0⟩ ∧ w.fld Reg.IMG_CHAIN_CFG.chain_status = 1 ∧ w.marn.claimCommit = false) ∧
    (k.commitIndex.or ((k.nextBound.filter (fun b => 3 ≤ b.cause)).map (fun b => b.index)) = some 0 ∧ k.crossing (k.linePos 0) = some 0) ∧
    (q.img.retiring.contains 7 = true ∧ q.stillUsed 7 = false ∧ q.blockEndHeld 7 = false) := by decide +kernel

/-- A device that awaits tag 9 with an image staged, and hears the link FR. -/
def awaiting : Dev := withImg linked (fun r => { r with awaiting := some 9, staged := some staged })

/-- ChainCommits: the first copy of a ready message at a root, and of announcements at a device of their mask that awaits their tag, that
awaits another or has nothing staged, and at one outside their mask that awaits their tag and that does not. -/
theorem test_hyp_ChainCommits_heard :
    let m := { ring 5 (.commitReady 9) with broadcast := false }
    let n := fun (idle : Bool) (mask : BitVec 64) => ring 5 (.commitAnnounce idle 100 6 9 mask)
    let at_ := fun (d : Dev) (mask : BitVec 64) => mask.toNat.testBit (d.fld Reg.FLK_CHAIN.position)
    let bare := withImg linked (fun r => { r with awaiting := some 9 })
    (FirstCopy rootLinked 1 m ∧ FirstCopy awaiting 1 (n false 1) ∧ FirstCopy awaiting 1 (n true 1) ∧ FirstCopy awaiting 1 (n false 2) ∧
      FirstCopy awaiting 1 (n true 2) ∧ FirstCopy linked 1 (n false 1) ∧ FirstCopy linked 1 (n true 1) ∧ FirstCopy linked 1 (n false 2) ∧
      FirstCopy linked 1 (n true 2) ∧ FirstCopy bare 1 (n false 1)) ∧
    ((heardFirst rootLinked 1 m).isDest m = true ∧ (heardFirst rootLinked 1 m).straps.root = true) ∧
    ((n false 1).broadcast = true ∧ (heardFirst awaiting 1 (n false 1)).img.awaiting = some (9#32).toNat ∧
      (heardFirst awaiting 1 (n false 1)).img.staged.isSome = true ∧ at_ (heardFirst awaiting 1 (n false 1)) 1 = true ∧
      at_ (heardFirst awaiting 1 (n false 2)) 2 = false) ∧
    ((heardFirst linked 1 (n false 1)).img.awaiting ≠ some (9#32).toNat ∧ at_ (heardFirst linked 1 (n false 1)) 1 = true ∧
      at_ (heardFirst linked 1 (n false 2)) 2 = false ∧ (heardFirst bare 1 (n false 1)).img.staged = none) := by
  exact ⟨⟨first_of (by decide +kernel), first_of (by decide +kernel), first_of (by decide +kernel), first_of (by decide +kernel),
    first_of (by decide +kernel), first_of (by decide +kernel), first_of (by decide +kernel), first_of (by decide +kernel),
    first_of (by decide +kernel), first_of (by decide +kernel)⟩, by decide +kernel⟩

/-- ChainCommits: the five ways in which three copies can agree. -/
theorem test_hyp_ChainCommits_copies :
    let a := CfgCopy.init
    let b := { CfgCopy.init with generation := 1 }
    let c := { CfgCopy.init with generation := 2 }
    let d := withImg Dev.init (fun r => { r with copies := [a, a, a] })
    (withImg Dev.init (fun r => { r with copies := [a, b, c] })).img.copies = [a, b, c] ∧ (agree a a = true) ∧
    (∃ x y z, (([.lost 1, .differs 2 0x1000 7] : List CfgFault).foldl Dev.cfgFault d).img.copies = [x, y, z]) ∧
    (agree a a = true ∧ agree a b = false) ∧ (agree a b = false ∧ agree a a = true) ∧
    (agree a b = false ∧ agree a b = false ∧ agree b b = true) ∧ (agree a b = false ∧ agree a c = false ∧ agree b c = false) := by
  refine ⟨by decide +kernel, by decide +kernel, ⟨_, _, _, rfl⟩, by decide +kernel⟩

/-! ### Uplinks and RoCE -/

/-- Uplink 1 in a state. -/
def uplinkIn (st : Nat) : Dev := fs Dev.init [(Reg.UPL_CTRL.enable, 1, 1, 0, 0), (Reg.UPL_STATUS.state, st, 1, 0, 0)]

/-- UplinkLinks: every state of a link, a wait, and frames: a priority obeyed, paused and stuck. -/
theorem test_hyp_UplinkLinks :
    let w := (uplinkIn usTrain).modUpl 1 (fun r => { r with waitUntil := some 1000 })
    let r := fs (uplinkIn 3) [(Reg.UPL_CTRL.pfc_rx_en, 255, 1, 0, 0), (Reg.UPL_IPV4.ipv4, 0x0A000001, 1, 0, 0), (Reg.UPL_IPV6_LO.ipv6, 1, 1, 0, 0)]
    let p := (fs r [(Reg.UPL_STATUS.paused, 128, 1, 0, 0)]).modUpl 1 (fun x => { x with pausedAt := [(7, 1000)] })
    ((uplinkIn usDetect).flag Reg.UPL_CTRL.enable 1 = true ∧ (uplinkIn usDetect).uplState 1 = usDetect) ∧
    (uplinkIn usTrain).uplIn 1 usTrain = true ∧ (uplinkIn usAlign).uplIn 1 usAlign = true ∧ (w.upl 1).waitUntil = some 1000 ∧
    (r.fld Reg.UPL_STATUS.state 1 = 3 ∧ r.fld Reg.UPL_CTRL.fec_limit 1 < r.fld Reg.UPL_CTRL.fec_limit 1 + 1) ∧
    (r.fld Reg.UPL_CTRL.pfc_rx_en 1).testBit 7 = true ∧
    (p.fld Reg.UPL_STATUS.state 1 = 3 ∧ (p.fld Reg.UPL_CTRL.pfc_rx_en 1).testBit 7 = true ∧
      (p.fld Reg.UPL_STATUS.paused 1).testBit 7 = true ∧ Sparse.find 7 (p.upl 1).pausedAt = some 1000 ∧
      (p.upl 1).stuck.contains 7 = false) ∧
    (r.fld Reg.UPL_IPV4.ipv4 1 = (0x0A000001#32).toNat ∧ (0x0A000001#32).toNat ≠ 0 ∧
      r.fld Reg.UPL_IPV6_HI.ipv6 1 * 2 ^ 64 + r.fld Reg.UPL_IPV6_LO.ipv6 1 = (1#128).toNat ∧ (1#128).toNat ≠ 0) := by decide +kernel

/-- A write of 100 bytes. -/
def backlog : Backlog := ⟨0, 0, 0x1000, 1, List.replicate 100 0, none, false⟩

/-- A channel 127 of P15 with its queue pair of uplink 1 in RTS and a write waiting. -/
def rts : Dev :=
  (fs (uplinkIn 3) [(Reg.DMA_CH_CTRL.enable, 1, 127, 0, 0), (Reg.DMA_CH_CFG.owner, 15, 127, 0, 0), (Reg.PART_CTRL.enable, 1, 15, 0, 0),
    (Reg.DMA_CH_QP.qp_state, qsRts, 127, 1, 0)]).modQp 127 1 (fun q => { q with inService := true, backlog := [backlog] })

/-- RoceTraffic: a cut, its recovery, an acknowledgement of the packet that is out, a NAK of it and a timeout. -/
theorem test_hyp_RoceTraffic :
    let c := rts.modQp 127 1 (fun q => { q with rate := some 1000000, sent := 1 })
    let n := ((0#24 : BitVec 24).toNat + 1 + 2 ^ 24 - ((c.chan 127).qp 1).una) % 2 ^ 24
    let t := rts.modQp 127 1 (fun q => { q with cutAt := some 1000 })
    (rts.fld Reg.UPL_STATUS.state 1 = 3 ∧ (rts.bump Reg.UPL_STAT2.cnp_rx 1).qpState 127 1 = qsRts ∧
      (((rts.bump Reg.UPL_STAT2.cnp_rx 1).chan 127).qp 1).cutAt = none) ∧
    (t.fld Reg.UPL_STATUS.state 1 = 3 ∧ (t.bump Reg.UPL_STAT2.cnp_rx 1).qpState 127 1 = qsRts ∧
      (((t.bump Reg.UPL_STAT2.cnp_rx 1).chan 127).qp 1).cutAt = some 1000 ∧
      (t.bump Reg.UPL_STAT2.cnp_rx 1).now < 1000 + (t.bump Reg.UPL_STAT2.cnp_rx 1).fld Reg.UPL_CC.cnp_interval 1 * Config.usPs) ∧
    ((c.chan 127).qp 1).rate = some 1000000 ∧
    (c.qpState 127 1 = qsRts ∧ c.fld Reg.UPL_STATUS.state 1 = 3 ∧ n ≠ 0 ∧ n ≤ ((c.chan 127).qp 1).sent ∧ ((c.chan 127).qp 1).sent ≠ 0) := by
  decide +kernel

/-! ### DMA -/

/-- A descriptor of queue 7 for 1,024 bytes. -/
def desc : Desc := ⟨7, 0, false, false, false, false, 1024, 0x1000, 1, 0, 0, false⟩

/-- A channel's record of a descriptor. -/
def descRun (running : Bool) : DescRun :=
  { d := desc, seq := 0, fenced := false, offset := 0, written := 0, lines := 0, first := none, last := none, gens := [], recs := []
    stayed := 0, mirrorLost := false, halfAt := none, halfSent := 0, complete := false, running := running, held := none, noted := false
    ended := none }

/-- DmaTraffic: a visit with a packet to send; the fourth word of a descriptor with room and with no queue; channels off, on, waiting,
stopped, running and local. -/
theorem test_hyp_DmaTraffic :
    let off := (mk []).dev
    let dq := fs Dev.init (queueOf 9 0 6 0 0 ++ [(Reg.DMA_CH_CFG.desc_q, 9, 127, 0, 0)])
    let en := fs Dev.init [(Reg.DMA_CH_CTRL.enable, 1, 127, 0, 0)]
    let st := fs en [(Reg.DMA_CH_CTRL.state, csChStopped, 127, 0, 0)]
    let w := (fs en (queueOf 7 0 6 2 0)).modChan 127 (fun r => { r with started := [descRun false] })
    let x := w.qWriteAll 7 ([pil 5] ++ lineOf 0 0 0 100 cStop [[1, 2, 3, 4]])
    let c := (fs en [(Reg.DMA_CH_CFG.kind, 1, 127, 0, 0)]).modChan 127 (fun r => { r with started := [descRun true] })
    (rts.fld Reg.UPL_STATUS.state 1 = 3 ∧ rts.dwrrPart 1 = some 15) ∧
    (dq.fld Reg.DMA_CH_CFG.desc_q 127 = 9 ∧ dq.qLive 9 = true ∧ dq.occ 9 + 4 ≤ dq.qSize 9) ∧
    off.qLive (off.fld Reg.DMA_CH_CFG.desc_q 127) = false ∧ off.flag Reg.DMA_CH_CTRL.enable 127 = false ∧
    (en.fld Reg.DMA_CH_CTRL.enable 127 ≠ 0 ∧ en.qpState 127 1 ≠ qsRts ∧ en.fld Reg.DMA_CH_CTRL.state 127 ≠ csChStopped ∧
      en.chRuns 127 = true) ∧
    (st.fld Reg.DMA_CH_CTRL.enable 127 ≠ 0 ∧ st.qpState 127 1 ≠ qsRts ∧
      (((st.setF Reg.DMA_CH_QP.qp_state qsRts 127 1).setF Reg.DMA_CH_QP.psn 0 127 1).fld Reg.DMA_CH_CTRL.state 127) = csChStopped) ∧
    (x.chRuns 127 = true ∧ x.fld Reg.DMA_CH_CTRL.state 127 ≠ csChStopped ∧ (x.chan 127).openRun = some (descRun false) ∧
      (descRun false).running = false ∧ x.chanReady 127 (descRun false).d.srcQ = true) ∧
    (c.chRuns 127 = true ∧ c.chLocal 127 = true ∧ (c.chan 127).openRun = some (descRun true)) ∧
    ((en.part (en.chOwner 127)).stalled = false ∧ (x.part (x.chOwner 127)).stalled = false ∧ (c.part (c.chOwner 127)).stalled = false) ∧
    (c.fld Reg.DMA_CH_CTRL.state 127 ≠ csChStopped ∧ (w.chan 127).openRun = some (descRun false) ∧ w.chanReady 127 (descRun false).d.srcQ = false ∧
      w.chRuns 127 = true) := by decide +kernel

/-- DmaTraffic: no descriptor open: too few words in the descriptor queue, with the last source ripe and not; words, and no queue pair that
can serve them. -/
theorem test_hyp_DmaTraffic_idle :
    let en := fs Dev.init (queueOf 7 0 6 2 0 ++ queueOf 9 1 6 0 0 ++ [(Reg.DMA_CH_CTRL.enable, 1, 127, 0, 0), (Reg.DMA_CH_CFG.desc_q, 9, 127, 0, 0)])
    let ripe := fun (d : Dev) => d.chLocal 127 = false ∧ (d.chan 127).srcQ.any (fun x => d.qLive x && d.chanReady 127 x) = true
    let s := (en.modChan 127 (fun r => { r with srcQ := some 7 })).qWriteAll 7 ([pil 5] ++ lineOf 0 0 0 100 cStop [[1, 2, 3, 4]])
    let w := s.qWriteAll 9 ([7 + 1024 * 2 ^ 32, 0x1000, 1, 0].map (fun x => (BitVec.ofNat 72 x, mkCode cNoun)))
    let waits := fun (d : Dev) => (d.part (d.chOwner 127)).stalled = false ∧ d.chRuns 127 = true ∧ (d.chan 127).openRun = none ∧
      d.fld Reg.DMA_CH_CTRL.state 127 ≠ csChStopped
    (waits en ∧ en.fill 9 < 4 ∧ ¬ ripe en) ∧ (waits s ∧ s.fill 9 < 4 ∧ ripe s) ∧ (waits w ∧ w.qLive 9 = true ∧ 4 ≤ w.fill 9 ∧ w.hasQp 127 = false) := by
  decide +kernel

/-- DmaTraffic: a channel that may start the descriptor of its queue, whose source holds a block. -/
theorem test_hyp_DmaTraffic_start :
    let d := ((fs rts (queueOf 7 0 6 2 0 ++ queueOf 9 1 6 0 0 ++ [(Reg.DMA_CH_CFG.desc_q, 9, 127, 0, 0), (Reg.QD_BASE.owner, 15, 7, 0, 0)])).qWriteAll 7
      ([pil 5] ++ lineOf 0 0 0 100 cStop [[1, 2, 3, 4]])).qWriteAll 9
        ([7 + 1024 * 2 ^ 32, 0x1000, 1, 0].map (fun x => (BitVec.ofNat 72 x, mkCode cNoun)))
    let src := (slotGrain d.mem (d.slotAt 9 (d.fld Reg.QD_CONS.read_ptr 9))).toNat % 2 ^ 15
    (d.fld Reg.DMA_CH_CFG.desc_q 127 = 9 ∧ d.chRuns 127 = true ∧ d.fld Reg.DMA_CH_CTRL.state 127 ≠ csChStopped ∧
      (d.chan 127).openRun = none ∧ d.qLive 9 = true ∧ 4 ≤ d.fill 9 ∧ d.hasQp 127 = true) ∧ src = 7 ∧ d.chanReady 127 src = true ∧
    ((d.startDesc 127).chan 127).openRun.isSome = true := by decide +kernel

/-- A record with a number of bytes. -/
def record (n : Nat) : LineRec := ⟨List.replicate n 0, 0, true, 7, 0, false⟩

/-- DmaTraffic: a record that waits and one that is read: each fits, at the boundary of the buffer, or spills, or is too long. -/
theorem test_hyp_DmaTraffic_records :
    let en := fs Dev.init (queueOf 7 0 6 2 0 ++ [(Reg.DMA_CH_CTRL.enable, 1, 127, 0, 0)])
    let g := fun (x : DescRun) (l : Option LineRec) => en.modChan 127 (fun r => { r with started := [x], spill := l })
    let at_ := fun (o : Nat) => { descRun true with offset := o }
    let runs := fun (x : DescRun) (l : Option LineRec) => (g x l).chRuns 127 = true ∧ (g x l).chLocal 127 = false ∧
      ((g x l).chan 127).openRun = some x ∧ x.running = true ∧ ((g x l).chan 127).spill = l
    let q := fun (x : DescRun) => (g x none).qWriteAll 7 ([pil 5] ++ lineOf 0 0 0 100 cStop [[1, 2, 3, 4]])
    (runs (at_ 0) (some (record 1024)) ∧ (record 1024).bytes.length = (at_ 0).d.length) ∧
    (runs (at_ 64) (some (record 1024)) ∧ (at_ 64).d.length < (at_ 64).offset + (record 1024).bytes.length) ∧
    (runs (at_ 0) (some (record 1025)) ∧ (at_ 0).d.length < (record 1025).bytes.length) ∧
    ((g (at_ 0) none).chan 127).spill = none ∧ (g (at_ 0) none).srcReady 7 = false ∧ ((g (at_ 0) none).part ((g (at_ 0) none).chOwner 127)).stalled = false ∧
    (((q (at_ 0)).chan 127).spill = none ∧ (q (at_ 0)).srcReady 7 = true ∧
      (((q (at_ 0)).readRecord 127 7 ((q (at_ 0)).fill 7)).1.map (fun l => decide (l.bytes.length ≤ 1024))) = some true) := by
  decide +kernel

/-! ### KMP -/

/-- A device whose stewards run, with uplink 1 in RUN serving KMP, and a key for P15. -/
def kmpDev : Dev :=
  fs (uplinkIn 3) [(Reg.UPL_KMP.enable, 1, 0, 0, 0), (Reg.CLK_BOOT.state, 10, 0, 0, 0), (Reg.PART_CTRL.enable, 1, 15, 0, 0),
    (Reg.PART_KEY.key, 77, 15, 0, 0)]

/-- The tag of a message under P15's key. -/
def tagOf (m : KmpMsg) : List Byte := kmpDev.kmpTag (leBytes 8 77 ++ leBytes 8 0 ++ leBytes 8 0 ++ leBytes 8 0) m

/-- A tag does not cover itself (R293). -/
theorem tag_uncovered (d : Dev) (k : List Byte) (m : KmpMsg) (t : List Byte) : d.kmpTag k { m with tag := t } = d.kmpTag k m := by
  unfold Dev.kmpTag kmpHeader; rfl

/-- A message of P15 with its right tag. -/
def good (m : KmpMsg) : KmpMsg := { m with part := 15, tag := tagOf { m with part := 15 } }

/-- A message with the tag of its key is authentic. -/
theorem authentic_of (d : Dev) (m : KmpMsg) (k : List Byte) (hk : d.kmpKey 15 = some k) (hp : m.part = 15) :
    d.kmpAuthentic { m with tag := d.kmpTag k m } = true := by
  have hp' : m.part.toNat = 15 := by rw [hp]; rfl
  unfold Dev.kmpAuthentic
  simp only [hp', hk, tag_uncovered, Option.map_some, Option.getD_some, beq_self_eq_true, Bool.and_true]
  decide

/-- Any message of P15 with its right tag is authentic. -/
theorem good_authentic (m : KmpMsg) : kmpDev.kmpAuthentic (good m) = true :=
  authentic_of kmpDev { m with part := 15 } _ (by decide +kernel) rfl

/-- KmpRequests, KmpDiscards: the requests that are served: their opcodes, lengths and payloads; a number that is fresh and one that is
not. -/
theorem test_hyp_KmpRequests :
    let m := fun (op : Byte) (bs : List Byte) => good { msg0 with opcode := op, length := BitVec.ofNat 16 bs.length, payload := bs }
    let burst : List Byte := leBytes 8 0x10 ++ leBytes 2 1 ++ leBytes 6 0
    let old := kmpDev.seqMark 15 1
    (kmpDev.kmpServed 1 = true ∧ kmpDev.kmpHere (m 0 []) = true ∧ (m 0 []).opcode = 0x00#8 ∧ (m 0 []).length = 0 ∧ (m 0 []).payload = []) ∧
    kmpDev.seqFresh (m 0 []).part.toNat (m 0 []).sequence.toNat = true ∧
    (burstOk (m 1 burst) false false = true ∧ burstOk (m 2 burst) true false = true ∧ burstOk (m 3 (burst ++ leBytes 4 0)) false true = true ∧
      burstOk (m 4 (burst ++ leBytes 8 0)) true true = true) ∧
    (let c := m 0x10 (leBytes 8 0 ++ [1])
     c.length.toNat = c.payload.length ∧ 9 ≤ c.payload.length ∧ c.payload.length ≤ 1032) ∧
    (let c := m 0x20 (leBytes 1 1 ++ leBytes 7 1 ++ leBytes 8 100)
     c.length.toNat = c.payload.length ∧ c.payload.length = 16 ∧ le c.payload 0 1 ≤ 1 ∧ le c.payload 1 1 = 1) ∧
    (let c := m 0x31 (leBytes 8 1)
     c.length.toNat = c.payload.length ∧ c.payload.length = 8) ∧
    servedOpcodes.contains (m 0x7F []).opcode.toNat = false ∧
    (old.kmpServed 1 = true ∧ old.seqFresh 15 1 = false) := by decide +kernel

/-- KmpRequests, KmpDiscards: a message with its tag is authentic, before and after its number is marked; one of a partition without a
key, or of none, is not. -/
theorem test_hyp_KmpDiscards (m : KmpMsg) :
    kmpDev.kmpAuthentic (good m) = true ∧ (kmpDev.seqMark 15 1).kmpAuthentic (good m) = true ∧
    kmpDev.kmpAuthentic { msg0 with part := 3 } = false ∧ kmpDev.kmpAuthentic { msg0 with part := 16 } = false :=
  ⟨good_authentic m, good_authentic m, by decide +kernel, by decide +kernel⟩

/-- KmpRelay: a request for another device of the row, and for the other row; what comes over the chain: a response to a kept request and
to none, a request that is served, and one that is discarded; a kept request whose uplink is in RUN, and one whose uplink is not. -/
theorem test_hyp_KmpRelay :
    let m := { msg0 with opcode := 0x02, destination := 9 }
    let far := { msg0 with opcode := 0x02, destination := 73 }
    let k := { ring 5 (.kmp m) with broadcast := false, channel := 4 }
    let a := { m with flags := 1 }
    let r := { ring 9 (.kmp a) with broadcast := false, channel := 4 }
    let l := fs linked [(Reg.FLK_CHAIN.assigned, 1, 0, 0, 0)]
    let w : KmpRelay := ⟨1, m, 0⟩
    let kept := fun (d : Dev) => ({ d with kmp := { d.kmp with relays := [w] } } : Dev)
    let found := fun (d : Dev) => d.kmp.relays.find? (fun x => x.msg.destination.toNat == r.origin.toNat && x.msg.sequence == a.sequence &&
      x.msg.part == a.part && x.msg.opcode == a.opcode)
    let run := fs l [(Reg.UPL_STATUS.state, 3, 1, 0, 0), (Reg.UPL_CTRL.enable, 1, 1, 0, 0)]
    let serves := fs l [(Reg.UPL_KMP.enable, 1, 0, 0, 0), (Reg.CLK_BOOT.state, 10, 0, 0, 0)]
    let heard := fun (d : Dev) (r : RingMsg) => d.ringIn 1 r (fun d => d)
    (kmpDev.kmpServed 1 = true ∧ kmpDev.kmpHere m = false ∧ m.destination.toNat / 64 = kmpDev.fld Reg.FLK_CHAIN.row ∧ m.opcode = 0x02#8 ∧
      kmpDev.kmpHere far = false ∧ far.destination.toNat / 64 ≠ kmpDev.fld Reg.FLK_CHAIN.row) ∧
    (k.body = .kmp m ∧ k.channel.val = chKmp ∧ l.isOrigin k = false ∧ l.firstCopy k = none ∧ l.isDest k = true) ∧
    (l.isOrigin r = false ∧ l.firstCopy r = none ∧ l.isDest r = true ∧ a.flags.getLsbD 0 = true ∧ m.flags.getLsbD 0 = false) ∧
    (found (heard (kept run) r) = some w ∧ (heard (kept run) r).uplinkUp 1 = true ∧ found (heard (kept l) r) = some w ∧
      (heard (kept l) r).uplinkUp 1 = false ∧ found (heard l r) = none) ∧
    ((heard serves k).stewardsRun = true ∧ (heard serves k).flag Reg.UPL_KMP.enable = true ∧ (heard l k).stewardsRun = false ∧
      ((({ State.reset with dev := heard serves k } : State).relayAccept m).2) = none) ∧
    ((kept kmpDev).kmp.relays = w :: [] ∧
      ((kept kmpDev).reach ((kept kmpDev).fld Reg.UPL_KMP.kmp_relay_timeout * Config.usPs)).uplinkUp 1 = true ∧
      ((kept l).reach ((kept l).fld Reg.UPL_KMP.kmp_relay_timeout * Config.usPs)).uplinkUp 1 = false) := by decide +kernel

/-- KmpRelay: what comes over the chain is a first copy; an unauthenticated HELLO over it is answered. -/
theorem test_hyp_KmpRelay_heard :
    let m := { msg0 with opcode := 0x02, destination := 9 }
    let l := fs linked [(Reg.FLK_CHAIN.assigned, 1, 0, 0, 0), (Reg.UPL_KMP.enable, 1, 0, 0, 0), (Reg.CLK_BOOT.state, 10, 0, 0, 0)]
    let h : KmpMsg := { msg0 with opcode := 0 }
    FirstCopy l 1 { ring 5 (.kmp m) with broadcast := false, channel := 4 } ∧
    ((({ State.reset with dev := l } : State).relayAccept h).2).isSome = true := by
  exact ⟨first_of (by decide +kernel), by decide +kernel⟩

/-! ### Flank links and the chain -/

/-- Link 1 in a state. -/
def flank (st : Nat) : Dev :=
  fs Dev.init [(Reg.FLK_STATUS.state, st, 1, 0, 0), (Reg.FLK_CTRL.enable, 1, 1, 0, 0), (Reg.TMB_REPEATER.active, 0, 0, 0, 0)]

/-- FlankTraining: a link in every state of its training. -/
theorem test_hyp_FlankTraining :
    let d := (flank fsDown).modFlank 1 (fun r => { r with waitUntil := some 1000 })
    ((flank fsDetect).flkTrains 1 = true ∧ (flank fsDetect).flkState 1 = fsDetect ∧ (flank fsDetect).assigned = false ∧
      fsDetect < fsRun ∧ fsDetect ≠ fsEqualise) ∧
    ((flank fsPolarity).flkTrains 1 = true ∧ (flank fsPolarity).flkState 1 = fsPolarity) ∧
    ((flank fsOrder).flkTrains 1 = true ∧ (flank fsOrder).flkState 1 = fsOrder ∧ distinctLanes 27 = true ∧ distinctLanes 0xE4 = true) ∧
    ((flank fsEqualise).flkTrains 1 = true ∧ (flank fsEqualise).flkState 1 = fsEqualise) ∧
    ((flank fsAlign).flkTrains 1 = true ∧ (flank fsAlign).flkState 1 = fsAlign) ∧
    (d.flkTrains 1 = true ∧ d.flkState 1 = fsDown ∧ (d.flank 1).waitUntil = some 1000) ∧
    ((flank fsRun).flkTrains 1 = true ∧ (flank fsRun).flkState 1 = fsRun) := by decide +kernel

/-- FlankTraining: both partners at the lowest rate, and one that needs a higher rate than this end allows. -/
theorem test_hyp_FlankTraining_rate :
    let a := fun (x : Nat) => (flank fsEqualise).modFlank 1 (fun r => { r with
      rate := max r.rate x, lowest := ((flank fsEqualise).commonRates 1 (some (x, 0))).2 })
    ((a 0).flank 1).rate ≤ ((a 0).flank 1).lowest ∧ ((a 1).flank 1).lowest < ((a 1).flank 1).rate := by decide +kernel

/-- FlankFrames: a load that waits, none, as many frames out as may be, a frame that is out, a CRC failure that leaves RUN. -/
theorem test_hyp_FlankFrames :
    let d := (flank fsRun).modFlank 1 (fun r => { r with waiting := [.ring (ring 5 .presence)], unacked := [(255, .lost)] })
    let o := (flank fsRun).modFlank 1 (fun r => { r with unacked := (List.range 64).map (fun k => (k, .lost)) })
    let f := fun (n : Nat) => (flank fsRun).modFlank 1 (fun r => { r with fails := List.replicate n 0 })
    let c := fun (s : Dev) => (((s.bump Reg.FLK_STAT.crc_fail 1).sendNak 1).modFlank 1 (fun r => { r with
       fails := s.now :: r.fails.filter (fun t => decide (s.now < t + Config.msPs)) })).flank 1
    let n := flank fsRun
    (d.flkState 1 = fsRun ∧ (d.flank 1).waiting ≠ [] ∧ (pickLoad (d.flank 1).waiting).isSome = true ∧ (d.flank 1).unacked.length < 64) ∧
    (n.flkState 1 = fsRun ∧ pickLoad ((if (n.flank 1).waiting.isEmpty then n.seamRead 1 else n).flank 1).waiting = none) ∧
    (o.flkState 1 = fsRun ∧ 64 ≤ ((if (o.flank 1).waiting.isEmpty then o.seamRead 1 else o).flank 1).unacked.length) ∧
    ((d.flank 1).unacked.any (fun f => f.1 == (255#8 : Byte).toNat) = true ∧ (d.flank 1).unacked.any (fun f => f.1 == (0#8 : Byte).toNat) = false ∧
      (d.flank 1).unacked ≠ []) ∧
    ((c (f 1023)).fails.length ≤ 1024 ∧ 1024 < (c (f 1024)).fails.length) := by decide +kernel

/-- FlankFrames: seam copies for a receive queue with room for just as many grains, one that is full, the rest of a copy, and what still
belongs to one that was dropped. -/
theorem test_hyp_FlankFrames_seam :
    let q := fs (flank fsRun) (queueOf 7 0 6 2 0 ++ [(Reg.FLK_SEAM.rx_en, 1, 1, 15, 0), (Reg.FLK_SEAM.rx_q, 7, 1, 15, 0)])
    let f := q.qWriteAll 7 (List.replicate 64 (0, mkCode cNoun))
    let line := lineOf 0 0 0 100 cComma [[1, 2, 3, 4]]
    let x : Option FrameSeq := some ⟨0, none⟩
    (InSequence q 1 none ∧ InSequence q 1 x ∧ InSequence f 1 none) ∧
    (let a := accepted q 1 x
     q.flkState 1 = fsRun ∧ a.fld Reg.FLK_SEAM.rx_en 1 15 ≠ 0 ∧ a.fld Reg.FLK_SEAM.rx_q 1 15 = 7 ∧ a.qLive 7 = true ∧ a.qWaits 64 7 = false ∧
      a.occ 7 + 64 ≤ a.qSize 7 ∧ a.qSize 7 < a.occ 7 + 65 ∧ continues line = false ∧ (a.flank 1).dropped.contains 15 = false) ∧
    (let a := accepted f 1 none
     f.flkState 1 = fsRun ∧ a.fld Reg.FLK_SEAM.rx_en 1 15 ≠ 0 ∧ a.fld Reg.FLK_SEAM.rx_q 1 15 = 7 ∧ a.qSize 7 < a.occ 7 + 1) ∧
    (continues (line.drop 2) = true ∧ ((accepted q 1 none).queue 7).openTag = none) := by
  exact ⟨⟨in_sequence (by decide +kernel), in_sequence (by decide +kernel), in_sequence (by decide +kernel)⟩, by decide +kernel⟩

/-- ChainEnumeration: a follower and a root that hear a link, a follower that waits for the root, and a position that was heard. -/
theorem test_hyp_ChainEnumeration :
    let w := fs Dev.init [(Reg.CLK_BOOT.state, bsEnumerate, 0, 0, 0), (Reg.FLK_CHAIN.enum_state, esIdle, 0, 0, 0)]
    let t := { w with chain := { w.chain with settledAt := some 1000 } }
    let l0 := fs Dev.init [(Reg.FLK_STATUS.state, fsRun, 0, 0, 0)]
    let h := { Dev.init with chain := { Dev.init.chain with heard := [(63, 1000)] } }
    ((accepted linked 1 none).straps.root = false ∧ (accepted rootLinked 1 none).straps.root = true ∧
      (fs root [(Reg.MARN_CTRL.run, 1, 0, 0, 0)]).flag Reg.MARN_CTRL.run = true) ∧
    (t.chain.settledAt = some 1000 ∧ t.straps.root = false ∧ t.bootState = bsEnumerate ∧ t.fld Reg.FLK_CHAIN.enum_state = esIdle) ∧
    (root.straps.root = true ∧ root.flag Reg.MARN_CTRL.run = false) ∧ rootLinked.assigned = true ∧
    Sparse.find 63 h.chain.heard = some 1000 ∧ (l0.assigned = false ∧ l0.flkUp 0 = true) := by decide +kernel

/-- ChainEnumeration: enumeration, its end, presence and joins, heard for the first time. -/
theorem test_hyp_ChainEnumeration_heard :
    let j := ring 0 .join
    (InSequence linked 1 none ∧ InSequence rootLinked 1 none ∧ FirstCopy linked 1 (ring 5 (.chainDone 3 7 false)) ∧
      FirstCopy linked 1 (ring 5 .presence) ∧ FirstCopy rootLinked 1 j) ∧
    (j.broadcast = true ∧ (heardFirst rootLinked 1 j).straps.root = true ∧ (heardFirst rootLinked 1 j).fld Reg.FLK_CHAIN.enum_state ≠ esRunning) := by
  exact ⟨⟨in_sequence (by decide +kernel), in_sequence (by decide +kernel), first_of (by decide +kernel), first_of (by decide +kernel),
    first_of (by decide +kernel)⟩, by decide +kernel⟩

/-- A digest. -/
def digest : Digest := ⟨100, 2, false, false, false, 7, 1000, 7, none⟩

/-- TwinTraffic: a device with a position, the twin that falls silent, digests that wait and that expire. -/
theorem test_hyp_TwinTraffic :
    let t := fs Dev.init [(Reg.FLK_TWIN.twin_en, 1, 0, 0, 0)]
    let d := { t with twin := { t.twin with unsent := [digest], own := [digest] } }
    rootLinked.assigned = true ∧ (t.flag Reg.FLK_TWIN.twin_en = true ∧ t.fld Reg.FLK_TWIN.twin_state ≠ twLost) ∧
    (d.flag Reg.FLK_TWIN.twin_en = true ∧ d.twin.unsent = [digest] ∧
      ((d.twin.own ++ d.twin.theirs).map (fun d => d.at_)).min? = some 1000) := by decide +kernel

/-- TwinTraffic: a beacon, and an event to send on, heard for the first time. -/
theorem test_hyp_TwinTraffic_heard :
    let b := ring 5 (.twinBeacon true)
    let e := ring 5 (.event 3 [0, 0, 0, 0])
    let u := fs linked [(Reg.UPL_STATUS.state, 3, 0, 0, 0)]
    (FirstCopy linked 1 b ∧ InSequence u 1 e.frame) ∧ b.broadcast = true ∧ u.uplinkUp 0 = true ∧ u.isOrigin e = false ∧
    (accepted u 1 e.frame).firstCopy e = none := by
  exact ⟨⟨first_of (by decide +kernel), in_sequence (by decide +kernel)⟩, by decide +kernel⟩

/-- A device with a twin, and P0's key. -/
def twinDev : Dev := fs Dev.init [(Reg.FLK_TWIN.twin_en, 1, 0, 0, 0), (Reg.PART_CTRL.enable, 1, 0, 0, 0), (Reg.PART_KEY.key, 77, 0, 0, 0)]

/-- TwinTraffic: a batch with no digest, of P0, under its key, from the twin's address, and from another; its number is fresh until marked;
one without a key, and one of another partition, is not authentic. -/
theorem test_hyp_TwinTraffic_digest :
    ∃ m : KmpMsg, m.opcode = 0x40#8 ∧ m.part = 0 ∧ twinDev.kmpAuthentic m = true ∧ twinDev.seqFresh twinWindow m.sequence.toNat = true ∧
      (64#7 : BitVec 7).toNat = twinDev.twinAddr ∧ (65#7 : BitVec 7).toNat ≠ twinDev.twinAddr ∧
      (twinDev.seqMark twinWindow 1).seqFresh twinWindow 1 = false ∧ Dev.init.kmpAuthentic m = false ∧ (15#8 : Byte) ≠ 0 ∧ (twinEntries (twinDev.seqMark twinWindow m.sequence.toNat).now m.payload).isSome = true ∧
      twinEntries (twinDev.seqMark twinWindow m.sequence.toNat).now (m.payload.drop 1) = none := by
  have hk : ∃ k, twinDev.kmpKey 0 = some k := Option.isSome_iff_exists.mp (by decide +kernel)
  obtain ⟨k, hk⟩ := hk
  refine ⟨{ msg0 with opcode := 0x40, payload := List.replicate 8 0
                      tag := twinDev.kmpTag k { msg0 with opcode := 0x40, payload := List.replicate 8 0 } },
    rfl, rfl, ?_, show twinDev.seqFresh twinWindow 1 = true by decide +kernel, by decide +kernel, by decide +kernel, by decide +kernel, ?_,
    by decide +kernel,
    show (twinEntries (twinDev.seqMark twinWindow 1).now (List.replicate 8 0)).isSome = true by decide +kernel,
    show twinEntries (twinDev.seqMark twinWindow 1).now ((List.replicate 8 0).drop 1) = none by decide +kernel⟩
  rotate_left
  · have hn : Dev.init.kmpKey 0 = none := by decide +kernel
    have hp : msg0.part.toNat = 0 := rfl
    unfold Dev.kmpAuthentic
    simp only [hp, hn, Option.map_none, Option.getD_none, Bool.and_false]
  have h := tag_uncovered twinDev k { msg0 with opcode := 0x40, payload := List.replicate 8 0 }
    (twinDev.kmpTag k { msg0 with opcode := 0x40, payload := List.replicate 8 0 })
  unfold Dev.kmpAuthentic
  have hp : msg0.part.toNat = 0 := rfl
  simp only [hp, hk, h, Option.map_some, Option.getD_some, beq_self_eq_true, Bool.and_true]
  decide

/-! ### Time -/

/-- A PTP message of version 2, domain 0, transport 0, of master 9. -/
def ptp : PtpMsg :=
  { majorVersion := 2, minorVersion := 1, sdoId := 0, domain := 0, transport := 0, master := 9, sequence := 1, twoStep := false
    correction := 0, origin := 0, requester := 0, requesterPort := 2, logInterval := 0, quality := ⟨128, 6, 0x20, 0, 128, 9, 0⟩ }

/-- A master. -/
def master : Master := ⟨ptp.quality, 9, 1000, 1000, 0, none⟩

/-- A device that takes PTP on both uplinks over transport 0, from master 9 on U0, and for which device 7 asked through it. -/
def timed : Dev :=
  let d := fs Dev.init [(Reg.TIME_CTRL.u0_en, 1, 0, 0, 0), (Reg.TIME_CTRL.u1_en, 1, 0, 0, 0), (Reg.TIME_CTRL.transports, 1, 0, 0, 0),
    (Reg.TIME_CTRL.domain, 0, 0, 0, 0)]
  d.modTime (fun t => { t with masters := [(0, master)], askers := [7] })

/-- TimeTransfer: messages of the master, within the rate and beyond it, responses for this device and for another of the row, messages that
are not taken; a source in use, an uplink and the chain; a chain port; re-steps and claims; the wait for time. -/
theorem test_hyp_TimeTransfer :
    let src := fs Dev.init [(Reg.TIME_STATUS.source, 2, 0, 0, 0)]
    let chn := fs Dev.init [(Reg.TIME_STATUS.source, 3, 0, 0, 0)]
    let h := Dev.init.modTime (fun t => { t with hops := [(1, 0, 1000)] })
    let r := { root with marn := { root.marn with rootGrid := true } }
    let c := (resting Dev.init).modTime (fun t => { t with claim := some 0 })
    let f := (resting Dev.init).modTime (fun t => { t with firstAt := some 0 })
    let w := fs Dev.init [(Reg.CLK_BOOT.state, bsTime, 0, 0, 0)]
    let fast := timed.modTime (fun t => { t with rateAt := List.replicate 128 (0, 0) })
    let other := { ptp with requester := 7, requesterPort := 3 }
    (PtpPort.u0 ≠ .chain ∧ timed.ptpOk ptp = true ∧ timed.ptpUplink 0 ptp = true ∧ timed.fromMaster 0 ptp = true ∧ timed.ptpUplink 1 ptp = true ∧
      timed.syncTooFast 0 = false ∧ fast.syncTooFast 0 = true ∧ (timed.takeAnnounce 0 ptp).fromMaster 0 ptp = true ∧
      (timed.takeAnnounce 0 { ptp with master := 8 }).fromMaster 0 { ptp with master := 8 } = false) ∧
    (ptp.requester = (State.reset).fuses.uid ∧ ptp.requesterPort.toNat = 1 + 1 ∧ other.requester ≠ (State.reset).fuses.uid ∧
      timed.ptpUplink 1 other = true ∧ timed.time.askers.contains other.requester = true) ∧
    (timed.ptpOk { ptp with majorVersion := 1 } = false ∧ Dev.init.ptpUplink 0 ptp = false) ∧
    (src.fld Reg.TIME_STATUS.source = 1 + 1 ∧ (1 : Nat) ≠ 2 ∧ chn.fld Reg.TIME_STATUS.source = 2 + 1) ∧
    Sparse.find 0 timed.time.masters = some master ∧
    ((accepted linked 1 none).straps.root = false ∧ (accepted rootLinked 1 none).straps.root = true) ∧
    ((h.time.hops.filter (fun e => e.1 == h.timePort)).getLast?.isSome = true) ∧
    (r.straps.root = true ∧ r.flag Reg.TIME_STATUS.restep_pending = false ∧ r.marn.rootGrid = true ∧ root.marn.rootGrid = false) ∧
    (c.time.firstAt.orElse (fun _ => c.time.claim) = some 0 ∧ f.time.firstAt.orElse (fun _ => f.time.claim) = some 0 ∧
      c.crossing (c.linePos 0) = some 0 ∧ f.crossing (f.linePos 0) = some 0) ∧ (w.bootState = bsTime ∧ w.timeState ≠ tsLocked) := by
  decide +kernel

/-- TimeTransfer: frames in sequence, and announcements heard for the first time. -/
theorem test_hyp_TimeTransfer_heard :
    let n := ring 5 (.restepAnnounce false 100)
    let m := ring 5 (.restepAnnounce true 0)
    (InSequence linked 1 none ∧ InSequence rootLinked 1 (some ⟨0, some 255⟩) ∧ FirstCopy linked 1 n ∧ FirstCopy linked 1 m) ∧
    n.broadcast = true ∧ m.broadcast = true := by
  exact ⟨⟨in_sequence (by decide +kernel), in_sequence (by decide +kernel), first_of (by decide +kernel), first_of (by decide +kernel)⟩,
    by decide +kernel⟩

/-- TimeTransfer: no change of source, the loss of the source of a locked device and of another, a first source, and one while locked. -/
theorem test_hyp_TimeTransfer_source :
    let used := fun (st src : Nat) (d : Dev) => fs d [(Reg.TIME_STATUS.time_state, st, 0, 0, 0), (Reg.TIME_STATUS.source, src, 0, 0, 0)]
    let after := fun (d : Dev) => ((((d.setF Reg.TIME_STATUS.source d.pickSource).showGm).logAt Reg.TIME_STATUS.source 0 0 11 0 0).modTime (fun t => { t with
      req := none, path := none, anew := true })).timeState
    Dev.init.pickSource = Dev.init.fld Reg.TIME_STATUS.source ∧
    (let d := used tsLocked 1 Dev.init
     d.pickSource ≠ d.fld Reg.TIME_STATUS.source ∧ d.pickSource = 0 ∧ after d = tsLocked) ∧
    (let d := used tsAcquire 1 Dev.init
     d.pickSource ≠ d.fld Reg.TIME_STATUS.source ∧ d.pickSource = 0 ∧ after d ≠ tsLocked) ∧
    (let d := used tsFree 0 timed
     d.pickSource ≠ d.fld Reg.TIME_STATUS.source ∧ d.pickSource ≠ 0 ∧ after d = tsFree) ∧
    (let d := used tsLocked 0 timed
     d.pickSource ≠ d.fld Reg.TIME_STATUS.source ∧ d.pickSource ≠ 0 ∧ after d ≠ tsFree) := by decide +kernel

/-! ### Stalls -/

/-- A device whose completion writers stall, with their queues on. -/
def stall (d : Dev) : Dev :=
  (List.range 16).foldl (fun d p => (d.setF Reg.PART_CQ.cq_enable 1 p).setPart p { d.part p with stalled := true }) d

/-- Does a turn end an item of a partition whose completion writer stalls? -/
def ends (p : Nat) (d : Dev) (turn : Dev → Dev) : Bool := ((stall d).part p).stalled && (stall d).endsItem (turn (stall d)) p

/-- A line of twelve samples, too wide for the units of these tests. -/
def wide : List Cell := lineOf 0 0 2 100 cComma [[1, 2, 3, 4], [5, 6, 7, 8], [9, 9, 9, 9]]

/-- Tile 255 with a line too wide for it, which it may not have taken yet. -/
def tileWide : Dev :=
  (((fs Dev.init (queueOf 7 0 6 2 1 ++ queueOf 8 1 6 2 1 ++ [(Reg.TILE_CTRL.enable, 1, 255, 0, 0), (Reg.TILE_CTRL.in_q, 7, 255, 0, 0),
    (Reg.TILE_CTRL.out_q, 8, 255, 0, 0), (Reg.TILE_CTRL2.in_width, 8, 255, 0, 0)])).qWriteAll 7 ([pil 5] ++ wide)).tileTurn 255 false none)

/-- StalledTurnsWait: turns of tiles, Kaleidoscope units, resamplers and Abacus units that end an item. -/
theorem test_hyp_StalledTurnsWait :
    let r := (fs tile [(Reg.TILE_CTRL.op3, 10, 255, 0, 0)]).modTile 255 (fun x => { x with replay := some (2, some 254) })
    ends 0 tileWide (fun d => d.tileTurn 255 false none [] []) = true ∧ ends 0 r (fun d => d.tileTurn 255 true (some 3) [] []) = true ∧
    ends 0 ((kalIdle ([pil 5] ++ wide)).kalCopy 31) (fun d => d.kalCopy 31) = true ∧
    ends 0 (kal.kalCopy 31) (fun d => d.kalEmit 31 0 2 []) = true ∧
    ends 0 ((pgrIdle ([pil 5] ++ wide)).pgrCopy 31 3) (fun d => d.pgrCopy 31 3) = true ∧
    ends 0 (pgr.pgrCopy 31 3) (fun d => d.pgrEmit 31 3 2 []) = true ∧ ends 0 aba (fun d => d.abaTurn 63 0 []) = true ∧
    (tile.tileOwner 255 = 0 ∧ kal.kalOwner 31 = 0 ∧ pgr.pgrOwner 31 = 0 ∧ aba.abaOwner 63 = 0) := by decide +kernel

/-- StalledTurnsWait: turns of Jigsaw units that end an item. -/
theorem test_hyp_StalledTurnsWait_rounds :
    let skips := ((jigOf []).modJig 15 (fun r => { r with skipping := true })).qWriteAll 7 (lineOf 0 0 2 100 cComma [[1, 2, 3, 4]])
    ends 0 skips (fun d => d.roundOpen 15) = true ∧ ends 0 skips (fun d => d.seamDeadline 15) = true ∧
    ends 0 (jig.setJig 15 { jig.jig 15 with round := some (100, 0) }) (fun d => d.roundReady 15 2 []) = true ∧ skips.jigOwner 15 = 0 := by
  decide +kernel

/-- StalledTurnsWait: turns of a collector that end an item. -/
theorem test_hyp_StalledTurnsWait_collector :
    let lags := col.setMerge 1039 { col.merge 1039 with lagging := [0] }
    ends 0 lags (fun d => d.colTurn 15) = true ∧ ends 0 lags (fun d => d.colDeadline 15) = true ∧
    ends 0 lags (fun d => d.blockDeadline 15) = true ∧ (lags.colCfg 15).fld Reg.JIG_CTRL.owner 15 = 0 := by decide +kernel

/-- StalledTurnsWait: turns of a conjunction that end an item. -/
theorem test_hyp_StalledTurnsWait_conjunction :
    let behind := conj.setMerge 0 { conj.merge 0 with lagging := [0] }
    ends 0 behind (fun d => d.conjTurn 0) = true ∧ ends 0 behind (fun d => d.conjTimeout 0) = true ∧
    (behind.cfg 0 0x8000).fld Reg.QFAB_CONJ_CFG.owner 0 = 0 := by decide +kernel

/-- StalledTurnsWait: turns of channels that end an item. -/
theorem test_hyp_StalledTurnsWait_channels :
    let refused := ((fs rts (queueOf 7 0 6 2 0 ++ queueOf 9 1 6 0 0 ++ [(Reg.DMA_CH_CFG.desc_q, 9, 127, 0, 0)])).modChan 127 (fun r => { r with
      chained := true })).qWriteAll 9 ([0x7FFF, 0, 1, 0].map (fun x => (BitVec.ofNat 72 x, mkCode cNoun)))
    let long := (fs Dev.init (queueOf 7 0 6 2 0 ++ [(Reg.DMA_CH_CTRL.enable, 1, 127, 0, 0)])).modChan 127 (fun r => { r with
      started := [{ descRun true with d := { desc with length := 4 } }], spill := some (record 5) })
    let copies := (fs Dev.init [(Reg.DMA_CH_CTRL.enable, 1, 127, 0, 0), (Reg.DMA_CH_CFG.kind, 1, 127, 0, 0)]).modChan 127 (fun r => { r with
      started := [{ descRun true with d := { desc with length := 4 } }] })
    (ends 15 refused (fun d => d.chanNext 127 64) = true ∧ refused.chOwner 127 = 15) ∧
    (ends 0 long (fun d => d.assemble 127) = true ∧ long.chOwner 127 = 0) ∧
    (ends 0 copies (fun d => d.localCopy 127) = true ∧ copies.chOwner 127 = 0) := by decide +kernel

/-! ### Partitions, notices and resets -/

/-- P15 in a state. -/
def partIn (st : Nat) : Dev := fs Dev.init [(Reg.PART_CTRL.enable, 1, 15, 0, 0), (Reg.PART_CTRL.state, st, 15, 0, 0)]

/-- PartitionStates: every state of a partition. -/
theorem test_hyp_PartitionStates :
    let t := (partIn psRun).setPart 15 { (partIn psRun).part 15 with tmbSince := some 1000 }
    let a := (partIn psRun).partAbort 15 caPartAbort
    (partIn psRun).fld Reg.PART_CTRL.state 15 = psRun ∧ (partIn psStopped).fld Reg.PART_CTRL.state 15 = psStopped ∧
    (partIn psDraining).fld Reg.PART_CTRL.state 15 = psDraining ∧
    ((partIn psAborting).fld Reg.PART_CTRL.state 15 = psAborting ∧ (partIn psAborting).settled 15 = true) ∧
    (a.fld Reg.PART_CTRL.state 15 = psAborting ∧ ((partIn psRun).part 15).tmbSince = none ∧ (a.part 15).tmbSince = none) ∧
    (t.part 15).tmbSince = some 1000 ∧
    (let d := partIn psDraining
     let c := (d.partQueues 15).foldl (fun d q => d.closeRuns q (fun _ => true)) d
     d.itemsOpen 15 = false ∧ c.settled 15 = true) ∧
    ((partIn psAborting).fld Reg.PART_CTRL.state 15 ≠ psStopped ∧ (partIn psRun).fld Reg.PART_CTRL.state 15 ≠ psAborting) := by decide +kernel

/-- A notice that has not been sent. -/
def notice : Notice := ⟨7, 2, 2, 1, 0, 0, 0, 0, 1000, none⟩

/-- A device with notices of P15 on, uplink 1 in RUN, a notice that waits and one that was sent. -/
def noticed : Dev :=
  let d := fs (uplinkIn 3) [(Reg.PART_NOTICE_CFG.notice_en, 1, 15, 0, 0), (Reg.PART_SHARE.notice_burst, 4, 15, 0, 0)]
  d.setPart 15 { d.part 15 with notices := [notice, { notice with id := 8, sentAt := some 500 }] }

/-- Notices: a notice that may be sent, one that waits for its acknowledgement, and a buffer that fits. -/
theorem test_hyp_Notices :
    let a := noticed.reach (max 1000 0)
    (noticed.noticesOn 15 = true ∧ ((noticed.unsentNotices 15).map (noticed.sendableAt 15)).min? = some 1000 ∧
      noticed.sendAllowedAt 15 = some 0 ∧
      firstNotice ((a.unsentNotices 15).filter (fun n => decide (a.sendableAt 15 n ≤ a.now))) = some notice) ∧
    (noticed.noticeById 15 (8#32 : BitVec 32).toNat = some { notice with id := 8, sentAt := some 500 }) ∧
    (noticed.part 15).notices.any (fun n => n.id == (8#32 : BitVec 32).toNat) = true ∧
    (noticed.part 15).notices.any (fun n => n.id == (9#32 : BitVec 32).toNat) = false ∧
    (({ noticed.part 15 with overNote := some { notice with id := 9 } } : PartRec).overNote.any (fun n => n.id == (9#32 : BitVec 32).toNat)) = true ∧
    (let f := (fs noticed (queueOf 7 0 6 2 0 ++ [(Reg.PART_CQ.cq_q, 7, 15, 0, 0)])).qWriteAll 7 (List.replicate 64 (0, mkCode cNoun))
     let d := f.setPart 15 { f.part 15 with buffer := List.replicate 65 ⟨none, 0, 0, 0, 0⟩ }
     64 < ((d.drainBuffer 15 (d.part 15).buffer.length).part 15).buffer.length) ∧
    ((noticed.drainBuffer 15 (noticed.part 15).buffer.length).part 15).buffer.length ≤ 64 := by decide +kernel

/-- DeviceResets: no flush, and one in progress. -/
theorem test_hyp_DeviceResets :
    let f := { Dev.init with start := { Dev.init.start with flushFrom := some 1000 } }
    Dev.init.start.flushFrom = none ∧ (0 : Byte) ≠ resetConfirm ∧ f.start.flushFrom = some 1000 ∧
    (State.reset).fuses.debugOpen = false := by decide +kernel

/-! ### Integrity, events, clocks -/

/-- ScrubAndCheck: slots clean and in error, the last slot included, and a check unit before, in and after its scan. -/
theorem test_hyp_ScrubAndCheck :
    let d := Dev.init
    let e := { d.setSlotErr lastSlot .single with scrub := { d.scrub with next := lastSlot, due := [lastSlot] } }
    let g := { d with scrub := { d.scrub with due := [lastSlot] } }
    let c := fs Dev.init [(Reg.CHK_CFG.enable, 1, 63, 0, 0), (Reg.CHK_SCAN.length, 2, 63, 0, 0)]
    let r := fs c [(Reg.CHK_CTRL.status, ckRunning, 63, 0, 0)]
    let l := fs c [(Reg.CHK_CTRL.status, ckRunning, 63, 0, 0), (Reg.CHK_CTRL.done_slots, 1, 63, 0, 0)]
    let p := fs c [(Reg.CHK_CTRL.status, ckPaused, 63, 0, 0)]
    let upset := fun (k : Nat) => (((d.upset 0 k).reach ((d.upset 0 k).scrub.since + (d.upset 0 k).fld Reg.INTG_CTRL.scrub_period * Config.xcPs))).slotErr 0
    (d.scrub.next = 0 ∧ upset 0 = .clean ∧ upset 1 = .single ∧ upset 2 = .double) ∧ (e.scrub.due = lastSlot :: [] ∧ e.slotErr lastSlot = .single) ∧
    (g.scrub.due = lastSlot :: [] ∧ g.slotErr lastSlot ≠ .single) ∧
    (c.fld Reg.CHK_CFG.enable 63 ≠ 0 ∧ c.fld Reg.CHK_CTRL.status 63 ≠ ckRunning ∧ c.chkAllowed 63 = true ∧ c.fld Reg.CHK_SCAN.length 63 ≠ 0) ∧
    (r.fld Reg.CHK_CTRL.status 63 = ckRunning ∧ r.chkMay 63 (r.chkSlot 63 0) = true ∧ r.slotErr (r.chkSlot 63 0) ≠ .double ∧
      0 + 1 < r.fld Reg.CHK_SCAN.length 63) ∧
    (c.fld Reg.CHK_CTRL.status 63 ≠ ckRunning ∧ (fs c [(Reg.CHK_SCAN.start, lastSlot, 63, 0, 0), (Reg.CHK_CFG.owner, 15, 63, 0, 0)]).chkAllowed 63 = false) ∧
    (let o := fs r [(Reg.CHK_CFG.owner, 15, 63, 0, 0)]
     o.fld Reg.CHK_CTRL.status 63 = ckRunning ∧ o.chkMay 63 (o.chkSlot 63 0) = false) ∧
    (let u := r.setSlotErr (r.chkSlot 63 0) .double
     u.fld Reg.CHK_CTRL.status 63 = ckRunning ∧ u.chkMay 63 (u.chkSlot 63 0) = true ∧ u.slotErr (u.chkSlot 63 0) = .double) ∧
    (l.fld Reg.CHK_CTRL.done_slots 63 = 1 ∧ l.chkMay 63 (l.chkSlot 63 1) = true ∧ l.slotErr (l.chkSlot 63 1) ≠ .double ∧
      l.fld Reg.CHK_SCAN.length 63 ≤ 1 + 1) ∧
    (p.fld Reg.CHK_CTRL.status 63 = ckPaused ∧ p.fld Reg.CHK_CTRL.done_slots 63 < p.fld Reg.CHK_SCAN.length 63) := by decide +kernel

/-- EventTraffic: a source that spent a token, records to push, tails within the ring and beyond it. -/
theorem test_hyp_EventTraffic :
    let s := (fs Dev.init [(Reg.INTG_EVT_CFG.evt_rate, 10, 0, 0, 0)]).setEvtSrc (unitKey 15 65535) { EvtSrc.init with spent := 1 }
    let p := Dev.init.setPart 15 { Dev.init.part 15 with pushed := [[0, 0, 0, 0]] }
    let h := fs Dev.init [(Reg.INTG_EVT_HEAD.head, 4, 15, 0, 0)]
    ((s.evtSrc (unitKey 15 65535)).spent ≠ 0 ∧ s.fld Reg.INTG_EVT_CFG.evt_rate ≠ 0) ∧
    ((p.part 15).pushed ≠ [] ∧ (p.part 15).pushed.length < 29) ∧
    ((4#13 : BitVec 13).toNat + 8192 - h.fld Reg.INTG_EVT_TAIL.tail 15) % 8192 ≤ h.ringFill 15 ∧
    h.ringFill 15 < ((5#13 : BitVec 13).toNat + 8192 - h.fld Reg.INTG_EVT_TAIL.tail 15) % 8192 := by decide +kernel

/-- ClockSources: references present, lost and back, islands that relock, and sensors. -/
theorem test_hyp_ClockSources :
    let d := fs Dev.init [(Reg.CLK_BOOT.state, bsRun, 0, 0, 0), (presentFld 0, 1, 0, 0, 0), (presentFld 1, 1, 0, 0, 0),
      (Reg.CLK_REF.in_use, 1, 0, 0, 0), (Reg.CLK_REF.ref_fallback, 1, 0, 0, 0)]
    let o := fs d [(presentFld 0, 0, 0, 0, 0)]
    let l : Dev := { fs o [(presentFld 1, 0, 0, 0, 0)] with start := { d.start with refLost := some 1000 } }
    let p := d.setPll 520 ⟨true, false, 1, some 1000⟩
    let v := fs d [(Reg.CLK_VMON.lo, 700, 0, 0, 0), (Reg.CLK_VMON.hi, 900, 0, 0, 0)]
    let m := { d with start := { d.start with measuring := some 1000 } }
    let n := d.setPll 520 ⟨false, false, 0, none⟩
    let lose := fun (d : Dev) => (d.setF (presentFld 1) 0).bump Reg.CLK_STAT.ref_losses
    let back := fun (d : Dev) => d.setF (presentFld 1) 1
    let h : Dev := { l with start := { l.start with hold := .reference, backup := true } }
    let b : Dev := { l with start := { l.start with backup := true } }
    let u := fs l [(Reg.CLK_REF.in_use, 0, 0, 0, 0)]
    (d.fld Reg.CLK_REF.in_use = 1 ∧ d.refPresent 1 = true ∧ bsStraps ≤ d.bootState ∧ (lose d).refPresent (1 - 1) = true ∧
      (lose d).flag Reg.CLK_REF.ref_fallback = true) ∧
    (o.fld Reg.CLK_REF.in_use = 1 ∧ o.refPresent 1 = true ∧ (lose o).refPresent (1 - 1) = false ∧ d.fld Reg.CLK_REF.in_use ≠ 0) ∧
    ((back h).start.backup = true ∧ (back h).start.hold = .reference ∧ (back b).start.backup = true ∧ (back b).start.hold ≠ .reference) ∧
    ((back l).start.backup = false ∧ (back l).start.refLost.isSome = true ∧ (back l).fld Reg.CLK_REF.in_use = 1) ∧
    ((back u).start.backup = false ∧ (back u).start.refLost.isSome = true ∧ (back u).fld Reg.CLK_REF.in_use ≠ 1 ∧
      (back u).flag Reg.CLK_REF.ref_fallback = true) ∧
    (let x := fs u [(Reg.CLK_REF.ref_fallback, 0, 0, 0, 0)]
     (back x).start.backup = false ∧ (back x).start.refLost.isSome = true ∧ (back x).fld Reg.CLK_REF.in_use ≠ 1 ∧
      (back x).flag Reg.CLK_REF.ref_fallback = false) ∧ ((back d).start.backup = false ∧ (back d).start.refLost = none) ∧
    (l.start.refLost = some 1000 ∧ l.refPresent 0 = false ∧ l.refPresent 1 = false ∧ l.start.backup = false ∧
      ((l.reach (1000 + 100 * Config.usPs)).rebase).start.hold = .free) ∧
    (let t : Dev := { l with start := { l.start with hold := .thermal } }
     t.start.backup = false ∧ ((t.reach (1000 + 100 * Config.usPs)).rebase).start.hold ≠ .free) ∧
    (p.relocking 520 = true ∧ (p.pll 520).since = some 1000 ∧ ((p.reach (1000 + Config.msPs)).bump Reg.CLK_STAT.relock_fail).pll 520 = ⟨true, false, 1, some 1000⟩ ∧
      (let x := d.setPll 520 ⟨true, false, 2, some 1000⟩
       x.relocking 520 = true ∧ 2 ≤ (((x.reach (1000 + Config.msPs)).bump Reg.CLK_STAT.relock_fail).pll 520).fails)) ∧ (n.pll 520).onHaven = false ∧ 4 ≤ d.bootState ∧
    (v.fld Reg.CLK_VMON.lo 0 ≤ (700#12 : BitVec 12).toNat ∧ (900#12 : BitVec 12).toNat ≤ v.fld Reg.CLK_VMON.hi 0 ∧
      v.flag Reg.CLK_VMON.out 0 = false ∧ v.bootState ≠ bsPower) ∧ d.start.measuring = none ∧ m.start.measuring = some 1000 := by decide +kernel

/-- Calibration: a block of the thermal sensors idle, measuring and applying, with codes at and beyond their range. -/
theorem test_hyp_Calibration :
    let d := Dev.init
    let m := fs d [(Reg.CAL_BLK.state, csMeasuring, 61, 0, 0)]
    let edges := fun (n : Nat) => (fs d [(Reg.MARN_ENC.enable, 1, 0, 0, 0), (Reg.CAL_BLK.state, csMeasuring, 56, 0, 0),
      (Reg.CAL_BLK.result, crPrecondition, 56, 0, 0)]).setEnc 0 { EncRec.init with edgesA := 64, edgesB := n }
    let a := (fs d [(Reg.CAL_BLK.state, csApplying, 61, 0, 0)]).setCal 61 { d.cal 61 with codes := [5], targets := [6], startedAt := some 1000 }
    let b := (fs d [(Reg.CAL_BLK.state, csApplying, 61, 0, 0)]).setCal 61 { d.cal 61 with codes := [5], targets := [7] }
    (d.calEnabled 61 = true ∧ d.calState 61 = csIdle ∧ ((calKind 61).filter (fun c => d.calState c != csIdle)).length < 8 ∧
      m.calEnabled 61 = true ∧ m.calState 61 ≠ csIdle) ∧
    (let o := fs d [(Reg.CAL_BLK.state, csMeasuring, 55, 0, 0)]
     d.calEnabled 55 = false ∧ d.calState 55 = csIdle ∧ o.calEnabled 55 = false ∧ o.calState 55 ≠ csIdle) ∧
    (a.cal 61).startedAt = some 1000 ∧ ((edges 64).fld Reg.CAL_BLK.result 56 = crPrecondition ∧ (edges 64).calPre 56 = true ∧ ((edges 64).cal 56).preStart = none) ∧
    ((edges 64).calState 56 = csMeasuring ∧ (edges 64).calPre 56 = true ∧ (edges 64).calReported 56 = false ∧
      (edges 63).calState 56 = csMeasuring ∧ (edges 63).calPre 56 = false) ∧
    (let o := fs d [(Reg.CAL_BLK.state, csMeasuring, 0, 0, 0), (Reg.UPL_CTRL.enable, 1, 0, 0, 0)]
     o.calState 0 = csMeasuring ∧ o.calPre 0 = true ∧ o.calReported 0 = true) ∧
    ((∀ c ∈ [(0 : Int), 4095], 0 ≤ c ∧ c ≤ 4095) ∧ (∃ c ∈ [(4096 : Int)], c < 0 ∨ 4095 < c)) ∧
    (a.calState 61 = csApplying ∧ ((a.cal 61).codes.zip (a.cal 61).targets).map (fun ct => stepCode ct.1 ct.2) = (a.cal 61).targets) ∧
    (b.calState 61 = csApplying ∧ ((b.cal 61).codes.zip (b.cal 61).targets).map (fun ct => stepCode ct.1 ct.2) ≠ (b.cal 61).targets) := by
  decide +kernel

/-- R413: fifteen sixteenths of a degree leave a block stable and a whole degree does not; readings older than 1 s are forgotten. -/
theorem test_temp_stable :
    let f := fun (lo : Int) => { Dev.init with start := { Dev.init.start with
      temps := List.replicate 16 (List.replicate 16 800), seen := List.replicate 16 [(1000, 800), (900, lo)] } }
    spread [800, 785] = 15 ∧ spread [784, 800] = 16 ∧ seenAt 2000000000000 7 [(1000000000000, 7), (999999999999, 5)] = [(2000000000000, 7)] ∧
    seenAt 2000000000000 7 [(1000000000000, 6)] = [(2000000000000, 7), (1000000000000, 6)] ∧
    (f 785).start.seen.length = 16 := by decide +kernel

/-! ### Start-up, Tumbler and debug -/

/-- PowerAndStartUp: every state of start-up that a statement names. -/
theorem test_hyp_PowerAndStartUp :
    let b := fun (st : Nat) => fs Dev.init [(Reg.CLK_BOOT.state, st, 0, 0, 0)]
    ((b bsPower).bootState = bsPower ∧ (b bsTumbler).bootState = bsTumbler ∧ (b bsStraps).bootState = bsStraps ∧
      (b bsFirmware).bootState = bsFirmware ∧ (b bsSelftest).bootState = bsSelftest ∧ (b bsLinks).bootState = bsLinks ∧
      (b bsImage).bootState = bsImage ∧ (b bsImage).start.hold = .free ∧ (b bsFirmware).start.hold = .free ∧
      (b bsSelftest).start.hold = .free ∧ (b bsLinks).start.hold = .free) ∧
    ((b bsPower).railsIn = true ∧ (fs (b bsPower) [(Reg.CLK_VMON.out, 1, 0, 0, 0)]).railsIn = false ∧ (b bsRun).bootState ≠ bsPower) ∧
    ((b bsImage).straps.boot = 0 ∧ (b bsImage).boot.imgSlot = 0 ∧ ({ (b bsImage).boot with imgSlot := 1 } : BootRec).imgSlot ≠ 0) ∧
    (State.reset).fuses.debugOpen = false ∧
    (let v := fun (st : Nat) (on : Bool) => ({ b st with start := { (b st).start with vser := on } } : Dev)
     ((v bsRun false).start.vser = false ∧ (v bsRun true).repeats = false) ∧ ((v bsImage false).start.vser = false ∧
      (v bsFirmware true).repeats = true) ∧ (v bsRun true).start.vser = true) := by decide +kernel

/-- TumblerWatch: stewards that run, a report, no trip, a trip that holds, a repeater that is off. -/
theorem test_hyp_TumblerWatch :
    let r := fs Dev.init [(Reg.CLK_BOOT.state, bsRun, 0, 0, 0), (Reg.TMB_REPEATER.active, 0, 0, 0, 0)]
    let c := { r with tumbler := { r.tumbler with reports := [(3, 1000)] } }
    let t := { r with tumbler := { r.tumbler with trips := [1000] }, start := { r.start with hold := .thermal } }
    (r.stewardsRun = true ∧ r.isHalted 482 = false ∧ r.tumbler.trips = []) ∧
    (c.stewardsRun = true ∧ Sparse.find 3 c.tumbler.reports = some 1000) ∧
    (t.start.hold = .thermal ∧ t.tumbler.trips.getLast? = some 1000 ∧
      ((t.reach (1000 + 10 * Config.secPs)).setF Reg.TMB_STATUS.thermal 0).start.backup = false ∧
      (({ t with start := { t.start with backup := true } }.reach (1000 + 10 * Config.secPs)).setF Reg.TMB_STATUS.thermal 0).start.backup = true) ∧
    (r.setF Reg.TMB_REPEATER.force 1).flag Reg.TMB_REPEATER.active = false ∧
    (let o := fs r [(Reg.TMB_REPEATER.active, 1, 0, 0, 0), (Reg.TMB_REPEATER.force, 1, 0, 0, 0)]
     (o.setF Reg.TMB_REPEATER.force 0).flag Reg.TMB_REPEATER.active = true ∧ (o.setF Reg.TMB_REPEATER.force 0).repeats = false) ∧
    (let x := { r with tumbler := { r.tumbler with trips := [0, 1000] } }
     let recent := (x.tumbler.trips ++ [x.now]).drop (x.tumbler.trips.length - 2)
     recent.length = 3 ∧ (x.countAnd Reg.TMB_STAT.thermal_trips 0 0 2 15 0 0 3 0).now ≤ recent.headD 0 + 3600 * Config.secPs) := by
  decide +kernel

/-- DebugInstructions, LockedPortBypasses, DebugPort: a port unlocked and locked, an access register selected, an access in progress, an
island that is asked to halt, and a challenge that was drawn. -/
theorem test_hyp_Debug :
    let u := fs Dev.init [(Reg.DBG_STATUS.unlocked, 1, 0, 0, 0)]
    let m := { u with dbg := { u.dbg with instr := diMem } }
    let o : DbgOp := ⟨1, false, true, 0, 0⟩
    let h := { u with dbg := { u.dbg with op := some o, halting := [520], challenge := some 1, lockUntil := some 1000 } }
    (u.fld Reg.DBG_STATUS.unlocked = 1 ∧ (State.reset).fuses.debugOpen = false) ∧ Dev.init.fld Reg.DBG_STATUS.unlocked ≠ 1 ∧
    (m.accessWindow = some 1 ∧ m.dbg.op = none ∧ m.captureAccess.dbg.op = none) ∧
    (h.dbg.op = some o ∧ h.dbg.halting.contains 520 = true ∧ h.halted.contains 520 = false) ∧
    (h.dbg.challenge = some 1 ∧ h.dbg.lockUntil = some 1000) ∧
    (let b := { m with dbg := { m.dbg with op := some o } }
     b.accessWindow = some 1 ∧ b.dbg.op.isSome = true) ∧
    ((({ u with dbg := { u.dbg with challenge := some 1 } } : Dev).select diResponse .off).lockedOut = false ∧ (1 : BitVec 256) ≠ 0 ∧
      (({ u with dbg := { u.dbg with lockUntil := some 1000 } } : Dev).select diResponse .off).lockedOut = true) := by decide +kernel

/-! ### The whole block -/

/-- IdleStepTicks, FusesOnlyBurn, ExecKeepsQueue: the reset state has no command waiting, steps, and covers its own fuses. -/
theorem test_hyp_Steps : State.reset.pending = [] ∧ Completes (step State.reset) ∧
    (State.reset).fuses.covers (State.reset).fuses := by
  refine ⟨rfl, ⟨_, rfl⟩, ?_⟩
  unfold Fuses.covers; decide +kernel

/-- SequenceNotFreshTwice: the first number, and one far beyond the window. -/
theorem test_hyp_SequenceNotFreshTwice : Dev.init.seqFresh 0 1 = true ∧ Dev.init.seqFresh 15 (2 ^ 63) = true ∧
    Dev.init.seqFresh 0 0 = true := by decide +kernel

/-- NothingLostAtCoincidence, CountersSaturate, LockedFieldsStay: a clear with a rise, a link in RUN, and a write after the commit. -/
theorem test_hyp_Values :
    let d := fs Dev.init [(Reg.INTG_ALARM.summary, 3, 3, 0, 0)]
    let c := fs Dev.init [(Reg.IMG_STATUS.committed, 1, 0, 0, 0)]
    (1#64 : Word).getLsbD 0 = true ∧ (1#64 : Word).getLsbD 1 = false ∧ (3#64 : Word).getLsbD 1 = true ∧ (3#64 : Word).getLsbD 2 = false ∧
    c.committed = true ∧ Completes (exec (.alarmClear 3 3 1) (on d)) ∧ (uplinkIn 3).fld Reg.UPL_STATUS.state 1 = 3 ∧
    Completes (exec (.registerWrite p0 (at_ (Reg.TILE_CTRL.base + 255 * Reg.TILE_CTRL.s0)) true 1) (on c)) := by
  exact ⟨by decide +kernel, by decide +kernel, by decide +kernel, by decide +kernel, by decide +kernel, ⟨_, rfl⟩, by decide +kernel, ⟨_, rfl⟩⟩

/-! ### Worked examples of the spec -/

/-- R474's example addresses: the pointers of Q0x0102, exposure slot 1 of SP2, slot 1,000 of queue memory. -/
theorem test_addresses : Reg.QD_PROD.write_ptr.addr 0x102 0 0 = 0x602048 ∧ Reg.QD_FILL.release_ptr.addr 0x102 0 0 = 0x602058 ∧
    Reg.SPORT_EXP_SLOT.arm.addr 2 1 0 = 0x1024C0 ∧ slotOf 0x0100003E80 = 1000 ∧ inWindow 0x0100003E80 = true := by decide +kernel

/-- A grain in queue memory. -/
def poke (d : Dev) (slot : Nat) (g : Grain) : Dev := { d with mem := memSetBytes d.mem (slotKey slot 0) ((List.range 9).map (grainByte g)) }

/-- R380's check value: the grain 0x39_3837_3635_3433_3231 scanned with algorithm 0 leaves 0xE306_9283. -/
theorem test_crc : ∃ t, exec (.checkScanSlot 63) (on (poke (fs Dev.init [(Reg.CHK_CFG.enable, 1, 63, 0, 0), (Reg.CHK_SCAN.length, 1, 63, 0, 0),
      (Reg.CHK_SCAN.start, 1000, 63, 0, 0), (Reg.CHK_CTRL.status, ckRunning, 63, 0, 0), (Reg.CHK_VALUE.value, 0xFFFFFFFF, 63, 0, 0)]) 1000
      0x393837363534333231)) = .next t ∧ t.dev.chkResult 63 = 0xE3069283 ∧ t.dev.fld Reg.CHK_CTRL.status 63 = ckDone :=
  ⟨_, rfl, by decide +kernel⟩

/-- The tile of the worked correction chain of chapter 05, with four columns before its grain: BLK, DFX, FLT and LIN, the defect in
column 6, the tables in the region of queue 9. -/
def chain : Dev :=
  let flat := fun (a b c e : Nat) => BitVec.ofNat 72 (a + b % 2 ^ 17 * 2 ^ 18 + c * 2 ^ 36 + e % 2 ^ 17 * 2 ^ 54)
  let d := fs Dev.init (queueOf 2 0 6 2 1 ++ queueOf 3 1 6 2 1 ++ [(Reg.TILE_CTRL.enable, 1, 5, 0, 0), (Reg.TILE_CTRL.op0, 1, 5, 0, 0),
    (Reg.TILE_CTRL.op1, 2, 5, 0, 0), (Reg.TILE_CTRL.op2, 3, 5, 0, 0), (Reg.TILE_CTRL.op3, 4, 5, 0, 0), (Reg.TILE_CTRL.in_q, 2, 5, 0, 0),
    (Reg.TILE_CTRL.out_q, 3, 5, 0, 0), (Reg.TILE_CTRL2.in_width, 8, 5, 0, 0), (Reg.TILE_P_BLK_INIT.black, 0xFFF80, 5, 0, 0),
    (Reg.TILE_P_BLK.pedestal, 1024, 5, 0, 0), (Reg.QD_BASE.base, 16, 9, 0, 0), (Reg.QD_BASE.size_log2, 6, 9, 0, 0),
    (Reg.QD_BASE.enable, 1, 9, 0, 0), (Reg.QD_BASE.table, 1, 9, 0, 0), (Reg.QD_BASE.shape, 5, 9, 0, 0),
    (Reg.TILE_P_DFX.map_base, 1024, 5, 0, 0), (Reg.TILE_P_DFX.list_base, 1030, 5, 0, 0), (Reg.TILE_P_FLT.table_base, 1025, 5, 0, 0),
    (Reg.TILE_P_LIN.base, 56000, 5, 7, 0), (Reg.TILE_P_LIN.slope, 0x3E00, 5, 7, 0)])
  let t := poke (poke (poke d 1024 0x40) 1027 (flat 0x14000 (2 ^ 17 - 200) 0x14000 (2 ^ 17 - 200))) 1028
    (flat 0x14400 (2 ^ 17 - 180) 0x13E00 (2 ^ 17 - 190))
  (t.qWriteAll 2 ([pil 0] ++ lineOf 0 0x17 2 100 cStop [[1, 2, 3, 4], [51968, 52160, 262080, 51776]])).tileTurn 5 false none

/-- The worked correction chain: 59,464, 59,697, 60,224, 58,873, the last with the end of the line. -/
theorem test_correction_chain :
    ∃ t, exec (.tileLine 5 none) (on chain) = .next t ∧
      ((t.dev.visible 3).getLast?.map (fun c => (rawSamples 2 c.1, codeOf c.2))) = some ([59464, 59697, 60224, 58873], cStop) :=
  ⟨_, rfl, by decide +kernel⟩

/-- The position grid's example: t of outputs n − 2, n and n + 2 in 1/65,536, and the output of the two taps. -/
theorem test_interpolation :
    divRound (10 * 65536) 475 = 1380 ∧ divRound (35 * 65536) 515 = 4454 ∧ divRound (20 * 65536) 535 = 2450 ∧
    divRound (520 * 65536) 535 = 63699 ∧ rshiftRound (61082 * 60000 + 4454 * 61030) 16 = 60070 ∧
    rshiftRound (160 * 60070 + 96 * 60110) 8 = 60085 := by decide +kernel

/-- The lateral taps of q = 0x07_D060: columns 2,000 and 2,001, weights 160 and 96. -/
theorem test_lateral : lateralTaps 1 0x07D060 4096 = ([(160, 2000), (96, 2001)], 256) := by decide +kernel

/-- A side of Jigsaw seam 2 with 96 columns of one value. -/
def side (num : Nat) (x : Int) : Present :=
  ⟨⟨num, 7, 12000, 96⟩, ⟨idleCell, idleCell, 0, List.replicate 96 x, List.replicate 96 false, List.replicate 24 Blemish.clear⟩, 4⟩

/-- Chapter 08's seam of Kestrel Bay: 912 at column 12,010, where the tie rounds to even, and 915 at 12,048. -/
theorem test_seam :
    let c := (mk [(Reg.JIG_SEAM.lo, 12016, 0, 2, 0), (Reg.JIG_SEAM.hi, 12079, 0, 2, 0)]).dev.regs
    (blended c 0 12010 1 6 6 [side 2 58400, side 3 58720]).1 = [912] ∧ (blended c 0 12048 1 6 6 [side 2 58400, side 3 58720]).1 = [915] := by
  decide +kernel

/-- Numbers of R6's examples: 48,896.5 rounds to the even 48,896, 60,499.5 to 60,500, 3,696.75 to 3,697. -/
theorem test_rounding : rshiftRound (2 * 48896 + 1) 1 = 48896 ∧ rshiftRound (48704 * 81408) 16 = 60500 ∧ rshiftRound (3816 * 15872) 14 = 3697 := by
  decide +kernel

/-- Four 16-bit numbers in a grain of a kernel table, and a row of kernels: coefficient `v` at each place given, zero elsewhere. -/
def kernel (d : Dev) (slot : Nat) (cs : List (Nat × Nat)) : Dev :=
  (List.range 7).foldl (fun d k => poke d (slot + k) (BitVec.ofNat 72 (((List.range 4).map (fun i =>
    ((cs.find? (fun c => c.1 == 4 * k + i)).map (fun c => c.2)).getD 0 * 2 ^ (16 * i))).sum))) d

/-- The RGB-IR head of chapter 06, with columns 1,999 to 2,002 as its four columns. -/
def mosaic : Dev :=
  let d := fs Dev.init (queueOf 2 0 8 2 1 ++ queueOf 3 4 8 2 1 ++ queueOf 4 8 8 2 1 ++ [(Reg.QD_BASE.base, 64, 9, 0, 0),
    (Reg.QD_BASE.size_log2, 12, 9, 0, 0), (Reg.QD_BASE.enable, 1, 9, 0, 0), (Reg.QD_BASE.table, 1, 9, 0, 0), (Reg.QD_BASE.shape, 5, 9, 0, 0),
    (Reg.KAL_CTRL.enable, 1, 0, 0, 0), (Reg.KAL_CTRL.in_q, 2, 0, 0, 0), (Reg.KAL_CTRL.in_width, 4, 0, 0, 0), (Reg.KAL_CTRL.n_int, 3, 0, 0, 0),
    (Reg.KAL_CTRL.n_out, 1, 0, 0, 0), (Reg.KAL_MOSAIC.px, 1, 0, 0, 0), (Reg.KAL_MOSAIC.py, 1, 0, 0, 0), (Reg.KAL_SCRATCH.base, 6144, 0, 0, 0),
    (Reg.KAL_SCRATCH.stride, 100, 0, 0, 0), (Reg.KAL_CELLS.code1, 1, 0, 0, 0), (Reg.KAL_CELLS.code8, 4, 0, 0, 0), (Reg.KAL_CELLS.code9, 2, 0, 0, 0),
    (Reg.KAL_OUT.out_q, 3, 0, 0, 0), (Reg.KAL_OUT.out_q, 4, 0, 1, 0), (Reg.KAL_P_KERN.kernel_base, 4096, 0, 0, 0),
    (Reg.KAL_P_PLANE.channel1, 1, 0, 0, 0), (Reg.KAL_P_PLANE.channel2, 2, 0, 0, 0), (Reg.KAL_P_PLANE.channel3, 4, 0, 0, 0),
    (Reg.KAL_P_PLANE.centre_row2, 1, 0, 0, 0), (Reg.KAL_P_PLANE.centre_row3, 1, 0, 0, 0), (Reg.KAL_P_OFFSETS.off1, 2, 0, 0, 0),
    (Reg.KAL_P_SEL.sel0, 6, 0, 0, 0), (Reg.KAL_P_SEL.sel1, 3, 0, 0, 0), (Reg.KAL_P_LUMA.w0, 4899, 0, 0, 0), (Reg.KAL_P_LUMA.w1, 9617, 0, 0, 0),
    (Reg.KAL_P_LUMA.w2, 1868, 0, 0, 0)])
  let x := [(0, 16384), (7, 16384), (14, 16384), (21, 16384), (3, 2 ^ 17 - 12288), (9, 2 ^ 17 - 8192), (15, 2 ^ 17 - 10240)].foldl (fun d (x : Nat × Nat) =>
    d.setF ([Reg.KAL_P_XT.coeff0, Reg.KAL_P_XT.coeff1, Reg.KAL_P_XT.coeff2].getD (x.1 % 3) Reg.KAL_P_XT.coeff0) x.2 0 (x.1 / 3) 0) d
  let k := [(0, 0, 0, 1), (1, 0, 1, 0), (2, 1, 1, 0), (3, 1, 0, 1)].foldl (fun d (p : Nat × Nat × Nat × Nat) =>
    kernel (kernel d (4096 + 7 * (64 * p.1 + 8 * p.2.1 + p.2.2.1)) [(12, 16384)]) (4096 + 7 * (64 * p.1 + 8 * p.2.1 + p.2.2.2))
      [(11, 8192), (13, 8192)]) x
  let line := fun (n : Nat) (xs : List Nat) => lineOf 0 0x17 2 n cComma [xs]
  let z := [0, 0, 0, 0]
  (List.range 12).foldl (fun d _ => d.kalCopy 0) (k.qWriteAll 2 ([pil 0] ++ line 0 [40000, 52000, 40800, 50000] ++ line 0 [1, 2, 3, 4] ++
    line 1 z ++ line 1 z ++ line 2 z ++ line 2 [9000, 30000, 9400, 31000]))

/-- The worked column of chapter 06: plane 0 is 40,604 and plane 1 is 9,200. -/
theorem test_mosaic :
    ∃ t, exec (.kalSetEmit 0 0 0) (on mosaic) = .next t ∧
      ((t.dev.visible 3).map (fun c => (rawSamples 2 c.1).getD 1 0)).getLast? = some 40604 ∧
      ((t.dev.visible 4).map (fun c => (rawSamples 2 c.1).getD 1 0)).getLast? = some 9200 :=
  ⟨_, rfl, by decide +kernel⟩

end Sys2Proof.Tests
end

section
/-! PROOFS. What an event changes (R392–R398): the frame of `Dev.raise`, said once for every event. -/

namespace Sys2Proof.Machine

/-- An event as it is credited: to the partition whose request is carried out, where there is one (R392). -/
def Dev.credited (s : Dev) (e : Event) : Event := { e with owner := s.kmp.asker.getD e.owner }

/-- The register words that an event may write: the notice and ring words of its partition, and for an ALARM its summary word and the
word of its counter. -/
def Event.words (e : Event) : List Nat :=
  [Reg.PART_NOTICE_STAT.pending.addr e.owner 0 0, Reg.PART_NOTICE_STAT2.raised.addr e.owner 0 0,
   Reg.INTG_EVT_HEAD.head.addr e.owner 0 0, Reg.INTG_EVT_STAT.trace_dropped.addr e.owner 0 0] ++
  if e.cls = 2 then
    [Reg.INTG_ALARM.summary.addr (alarmBit e.kind e.cond).1 0 0, Reg.INTG_ALARM_COUNT.count0.addr ((8 * e.kind + e.cond) / 4) 0 0]
  else []

/-- The device `t` differs from `s` as an event may make it differ: in records, links and time stamps (`frame`), in the event's own register words
(`words`), and in queue memory only where its partition has a ring (`mem`). -/
structure EventEffect (e : Event) (s t : Dev) : Prop where
  frame : t = { s with
    regs := t.regs, mem := t.mem, slotErrs := t.slotErrs, tb := t.tb, evtSrcs := t.evtSrcs, alarmUntil := t.alarmUntil
    parts := t.parts, flanks := t.flanks, chain := t.chain }
  words : ∀ a, a ∉ e.words → t.regs.word a = s.regs.word a
  mem : Reg.INTG_EVT_RING.enable.addr e.owner 0 0 ∉ e.words → s.fld Reg.INTG_EVT_RING.enable e.owner = 0 → t.mem = s.mem

namespace EventEffect

variable {e : Event} {s t u : Dev}

theorem refl (e : Event) (s : Dev) : EventEffect e s s := ⟨rfl, fun _ _ => rfl, fun _ _ => rfl⟩

theorem fld_eq (h : EventEffect e s t) (f : Reg.Fld) (i j k : Nat) (hf : f.addr i j k ∉ e.words) : t.fld f i j k = s.fld f i j k := by
  simp only [Dev.fld, RegFile.fld, h.words _ hf]

theorem queues_eq (h : EventEffect e s t) : t.queues = s.queues := (congrArg Dev.queues h.frame :)

theorem halted_eq (h : EventEffect e s t) : t.halted = s.halted := (congrArg Dev.halted h.frame :)

theorem trans (h : EventEffect e s t) (g : EventEffect e t u) : EventEffect e s u where
  frame := g.frame.trans (congrArg (fun x : Dev => { x with
    regs := u.regs, mem := u.mem, slotErrs := u.slotErrs, tb := u.tb, evtSrcs := u.evtSrcs, alarmUntil := u.alarmUntil
    parts := u.parts, flanks := u.flanks, chain := u.chain }) h.frame)
  words a ha := (g.words a ha).trans (h.words a ha)
  mem hr hs := (g.mem hr ((h.fld_eq _ _ _ _ hr).trans hs)).trans (h.mem hr hs)

/-! What the parts of an event may do after what it did before. -/

theorem setF (h : EventEffect e s t) (f : Reg.Fld) (v i j k : Nat) (hf : f.addr i j k ∈ e.words) : EventEffect e s (t.setF f v i j k) :=
  h.trans ⟨rfl, fun _ ha => word_setWord_other _ _ _ _ (fun hx => ha (hx ▸ hf)), fun _ _ => rfl⟩

theorem bump (h : EventEffect e s t) (f : Reg.Fld) (i j k n : Nat) (hf : f.addr i j k ∈ e.words) : EventEffect e s (t.bump f i j k n) :=
  h.setF f _ i j k hf

theorem setPart (h : EventEffect e s t) (i : Nat) (r : PartRec) : EventEffect e s (t.setPart i r) :=
  h.trans ⟨rfl, fun _ _ => rfl, fun _ _ => rfl⟩

theorem setEvtSrc (h : EventEffect e s t) (i : Nat) (r : EvtSrc) : EventEffect e s (t.setEvtSrc i r) :=
  h.trans ⟨rfl, fun _ _ => rfl, fun _ _ => rfl⟩

theorem setAlarmHold (h : EventEffect e s t) (i r : Nat) : EventEffect e s (t.setAlarmHold i r) :=
  h.trans ⟨rfl, fun _ _ => rfl, fun _ _ => rfl⟩

theorem stamped (h : EventEffect e s t) : EventEffect e s t.stamped :=
  h.trans ⟨rfl, fun _ _ => rfl, fun _ _ => rfl⟩

theorem flkQueue (h : EventEffect e s t) (l : Nat) (x : FlkLoad) : EventEffect e s (t.flkQueue l x) := by
  unfold Dev.flkQueue
  split
  · exact h.trans ⟨rfl, fun _ _ => rfl, fun _ _ => rfl⟩
  · exact h

theorem keepOwn (h : EventEffect e s t) (m : RingMsg) : EventEffect e s (t.keepOwn m) := by
  unfold Dev.keepOwn
  split
  · exact h
  · exact h.trans ⟨rfl, fun _ _ => rfl, fun _ _ => rfl⟩

theorem ringSend (h : EventEffect e s t) (ch : Nat) (dest : Option Nat) (b : RingBody) : EventEffect e s (t.ringSend ch dest b) :=
  (((h.keepOwn _).trans ⟨rfl, fun _ _ => rfl, fun _ _ => rfl⟩ : EventEffect e s ((t.keepOwn (t.ringMsg ch dest b)).takeId ch)).flkQueue
    0 _).flkQueue 1 _

theorem relayRecord (h : EventEffect e s t) (p cls : Nat) (gs : List Grain) : EventEffect e s (t.relayRecord p cls gs) := by
  unfold Dev.relayRecord
  split
  · exact h.ringSend _ _ _
  · exact h

theorem pushRecord (h : EventEffect e s t) (p cls : Nat) (gs : List Grain) : EventEffect e s (t.pushRecord p cls gs) := by
  unfold Dev.pushRecord
  split
  · exact (h.setPart _ _).relayRecord _ _ _
  · exact h.relayRecord _ _ _

theorem countLost (h : EventEffect e s t) (cls : Nat) : EventEffect e s (t.countLost e.owner cls) := by
  have hw : Reg.INTG_EVT_STAT.trace_dropped.addr e.owner 0 0 ∈ e.words := by simp [Event.words]
  unfold Dev.countLost
  split
  · exact h.bump _ _ _ _ _ hw
  · split
    · exact h.bump _ _ _ _ _ hw
    · exact h.bump _ _ _ _ _ hw

theorem syncNotices (h : EventEffect e s t) : EventEffect e s (t.syncNotices e.owner) := by
  have hw : Reg.PART_NOTICE_STAT.pending.addr e.owner 0 0 ∈ e.words := by simp [Event.words]
  exact (h.setF _ _ _ _ _ hw).setF _ _ _ _ _ hw

theorem notice (h : EventEffect e s t) (c : Nat) (detail : BitVec 64) : EventEffect e s (t.notice e.owner c detail) := by
  have hw : Reg.PART_NOTICE_STAT2.raised.addr e.owner 0 0 ∈ e.words := by simp [Event.words]
  unfold Dev.notice
  split
  · exact h
  · dsimp only
    split
    · exact (h.setPart _ _).bump _ _ _ _ _ hw
    · split
      · refine syncNotices (bump (h.stamped.setPart _ _) _ _ _ _ _ ?_)
        exact hw
      · refine syncNotices (bump (h.stamped.setPart _ _) _ _ _ _ _ ?_)
        exact hw

end EventEffect

/-- Grains written leave everything but queue memory and its check bits. -/
theorem Dev.writeGrains_frame (s : Dev) (slot : Nat) (gs : List Grain) :
    s.writeGrains slot gs = { s with mem := (s.writeGrains slot gs).mem, slotErrs := (s.writeGrains slot gs).slotErrs } := by
  induction gs generalizing s slot with
  | nil => rfl
  | cons g rest ih => exact (ih (s.writeSlot slot (g, 0)) (slot + 1)).trans rfl

namespace EventEffect

variable {e : Event} {s t u : Dev}

/-- A record enters the ring of a partition that has one. -/
theorem ringPut (h : EventEffect e s t) (gs : List Grain) (hr : t.fld Reg.INTG_EVT_RING.enable e.owner ≠ 0) :
    EventEffect e s (t.ringPut e.owner gs) := by
  have hw : Reg.INTG_EVT_HEAD.head.addr e.owner 0 0 ∈ e.words := by simp [Event.words]
  have grains : ∀ slot, EventEffect e t (t.writeGrains slot gs) := fun slot =>
    ⟨by rw [Dev.writeGrains_frame], fun _ _ => by rw [Dev.writeGrains_frame], fun _ h0 => absurd h0 hr⟩
  exact (h.trans (grains _)).setF _ _ _ _ _ hw

theorem record (h : EventEffect e s t) (x : Event) (code flags : Nat) (hx : x.owner = e.owner) :
    EventEffect e s (t.record x code flags) := by
  have sent : ∀ key r, EventEffect e s ((t.stamped.setEvtSrc key r).takeSeq e.owner) := fun key r => (h.stamped.setEvtSrc key r).setPart _ _
  unfold Dev.record
  dsimp only
  rw [hx]
  split
  · split
    · exact ((sent _ _).countLost _).pushRecord _ _ _
    · exact h.countLost _
  · next hr =>
    split
    · exact ((sent _ _).ringPut _ hr).pushRecord _ _ _
    · split
      · exact (h.setEvtSrc _ _).countLost _
      · split
        · exact ((sent _ _).countLost _).pushRecord _ _ _
        · exact h.countLost _

theorem refill (h : EventEffect e s t) (key : Nat) : EventEffect e s (t.refill key) := by
  unfold Dev.refill
  dsimp only
  split
  · exact h.setEvtSrc _ _
  · split
    · exact h
    · exact h.setEvtSrc _ _

theorem summaryRecord (h : EventEffect e s t) (kind inst : Nat) : EventEffect e s (t.summaryRecord kind inst e.owner) := by
  unfold Dev.summaryRecord
  dsimp only
  split
  · exact (h.setEvtSrc _ _).record _ _ _ rfl
  · exact h

theorem summarise (h : EventEffect e s t) (hc : e.cls = 2) : EventEffect e s (t.summarise e.kind e.cond) := by
  have hs : Reg.INTG_ALARM.summary.addr (alarmBit e.kind e.cond).1 0 0 ∈ e.words := by simp [Event.words, hc]
  have hn : ∀ n, (alarmCountFld n).addr ((8 * e.kind + e.cond) / 4) 0 0 ∈ e.words := by
    intro n
    have : (alarmCountFld n).addr ((8 * e.kind + e.cond) / 4) 0 0 = Reg.INTG_ALARM_COUNT.count0.addr ((8 * e.kind + e.cond) / 4) 0 0 := by
      unfold alarmCountFld
      split_ifs <;> rfl
    simp [Event.words, hc, this]
  exact (h.setF _ _ _ _ _ hs).bump _ _ _ _ _ (hn _)

end EventEffect

/-- An event changes what `EventEffect` names and nothing else. -/
theorem raise_effect (s : Dev) (ev : Event) : EventEffect (s.credited ev) s (s.raise ev) := by
  unfold Dev.raise
  extract_lets e key alarmed n src due summed noted src'
  change EventEffect e s _
  have h : EventEffect e s s := .refl e s
  have counted : Reg.INTG_EVT_STAT.trace_dropped.addr e.owner 0 0 ∈ e.words := by simp [Event.words]
  split
  · next hc =>
    have ha : EventEffect e s alarmed := (h.summarise hc).notice 0 _
    split
    · exact ha.setEvtSrc _ _
    · split
      · exact (ha.setAlarmHold _ _).record _ _ _ rfl
      · exact ha.record _ _ _ rfl
  · have hs : EventEffect e s summed := (h.refill key).summaryRecord e.kind e.inst
    have hn : EventEffect e s noted := by
      dsimp only [noted]
      split
      · exact hs.notice 1 _
      · exact hs
    split
    · exact (hn.setEvtSrc _ _).record _ _ _ rfl
    · split
      · exact hn.bump _ _ _ _ _ counted
      · refine .bump (hn.setEvtSrc _ _) _ _ _ _ _ ?_
        exact counted

/-- A LOG event leaves every word but the notice and ring words of the partition to which it is credited. -/
theorem log_word (s : Dev) (kind inst owner detail a : Nat)
    (h : a ∉ (s.credited ⟨1, kind, inst, owner, 0, 0, 0, detail⟩).words) :
    (s.log kind inst owner detail).regs.word a = s.regs.word a :=
  (raise_effect s _).words a h

end Sys2Proof.Machine
end

section
/-! PROOFS. Accesses to register words: which register an address names, what a 64-bit read of a port's counters does, and what
the writes that R11 locks do (R10–R14). -/

namespace Sys2Proof.Sparse

variable {α : Type}

theorem erase_erase_same (k : Nat) (m : List (Nat × α)) : erase k (erase k m) = erase k m := by
  induction m with
  | nil => rfl
  | cons p t ih =>
    obtain ⟨k', v'⟩ := p
    by_cases hk : k = k'
    · simp only [erase, if_pos hk, ih]
    · simp only [erase, if_neg hk, ih]

theorem insert_insert_same (k : Nat) (v : α) (m : List (Nat × α)) : insert k v (insert k v m) = insert k v m := by
  induction m with
  | nil => simp [insert]
  | cons p t ih =>
    obtain ⟨k', v'⟩ := p
    rcases Nat.lt_trichotomy k k' with hk | hk | hk
    · simp [insert, hk]
    · simp [insert, hk]
    · simp [insert, Nat.not_lt.2 (Nat.le_of_lt hk), Nat.ne_of_gt hk, ih]

/-- A second write of the same value changes nothing. -/
theorem set_set_same [DecidableEq α] (d : Nat → α) (m : List (Nat × α)) (k : Nat) (v : α) : set d (set d m k v) k v = set d m k v := by
  unfold set
  split
  · exact erase_erase_same k m
  · exact insert_insert_same k v m

end Sys2Proof.Sparse

namespace Sys2Proof.Machine

theorem setWord_setWord_same (r : RegFile) (a : Nat) (w : Word) : (r.setWord a w).setWord a w = r.setWord a w :=
  Sparse.set_set_same _ r a w

/-- A merge under the mask of all 64 bits takes the new word. -/
theorem mergeWord_all (old new : Word) : mergeWord (2 ^ 64 - 1) old new = new := by
  unfold mergeWord
  rw [show BitVec.ofNat 64 (2 ^ 64 - 1) = BitVec.allOnes 64 from rfl]
  simp only [BitVec.not_allOnes, BitVec.and_zero, BitVec.and_allOnes, BitVec.zero_or]

/-- A walk that no entry of its list moves ends where it began. -/
theorem foldl_eq_self {α β : Type} (f : β → α → β) (b : β) (l : List α) (h : ∀ c, ∀ x ∈ l, f c x = c) : l.foldl f b = b :=
  (List.foldl_ext f (fun c _ => c) b h).trans (List.foldl_fixed' (fun _ => rfl) l)

/-- A bus address that a register outside the bank windows owns. -/
def NamesPlain (a : Nat) (h : Reg.Hit) : Prop :=
  a < 2 ^ 40 ∧ a ≠ 0 ∧ Reg.findReg a = some h ∧ h.reg.banked = false ∧
    (Reg.windowOf a).table.all (fun r => !r.banked || (r.locate (2 ^ 40 + a)).isNone) = true

theorem locate_of_namesPlain (s : Dev) {a : Nat} {h : Reg.Hit} (hn : NamesPlain a h) : s.locate a = some (a, h) := by
  obtain ⟨hlt, h0, hf, hb, ht⟩ := hn
  have none_banked : (Reg.windowOf a).table.findSome?
      (fun r => if r.banked then (r.locate (2 ^ 40 + a)).map (fun h => (r, h)) else none) = none := by
    rw [List.findSome?_eq_none_iff]
    intro r hr
    have := List.all_eq_true.1 ht r hr
    cases hrb : r.banked <;> simp_all
  unfold Dev.locate
  rw [if_neg (Nat.not_le.2 hlt), if_neg h0]
  simp only [none_banked, hf, hb, Option.bind_some, Bool.false_eq_true, if_false]

theorem inWindow_of_lt {a : Nat} (h : a < windowBase) : inWindow a = false := by
  simp [inWindow, Nat.not_le.2 h]

/-! ### Reads of a port's counters -/

/-- The address of a port's counters. -/
def statAddr (n : Port) : Nat := Reg.SPORT_STAT.base + n.val * 4096

/-- The register found there. -/
def statHit (n : Port) : Reg.Hit := ⟨Reg.SPORT_STAT, n.val, 0, 0⟩

theorem statAddr_facts (n : Port) : statAddr n < windowBase ∧ statAddr n % 8 = 0 := by
  have : statAddr n = 0x1000C0 + n.val * 4096 := rfl
  have := n.isLt
  unfold windowBase
  omega

theorem namesPlain_statAddr (n : Port) : NamesPlain (statAddr n) (statHit n) := by
  have all : ∀ m : Port, NamesPlain (statAddr m) (statHit m) := by
    unfold NamesPlain
    decide +kernel
  exact all n

theorem windowOf_statAddr (n : Port) : Reg.windowOf (statAddr n) = .wSPORT := by
  have all : ∀ m : Port, Reg.windowOf (statAddr m) = .wSPORT := by decide +kernel
  exact all n

theorem addr_statField (n : Port) (f : Reg.Fld) (hf : f ∈ Reg.SPORT_STAT.fields) : f.addr n.val 0 0 = statAddr n := by
  have hb : ∀ g ∈ Reg.SPORT_STAT.fields, g.base = Reg.SPORT_STAT.base ∧ g.s0 = 4096 := by decide
  obtain ⟨hbase, hs⟩ := hb f hf
  simp only [Reg.Fld.addr, statAddr, hbase, hs]
  omega

/-- The device with a port's counters at zero. -/
def Dev.statCleared (s : Dev) (n : Port) : Dev := { s with regs := s.regs.setWord (statAddr n) 0 }

theorem fld_statCleared (s : Dev) (n : Port) (f : Reg.Fld) (hf : f ∈ Reg.SPORT_STAT.fields) : (s.statCleared n).fld f n.val = 0 := by
  have hw : (s.statCleared n).regs.word (f.addr n.val 0 0) = 0 := by
    rw [addr_statField n f hf]
    exact word_setWord_same ..
  simp [Dev.fld, RegFile.fld, hw, fieldOf]

/-- No field of the counters shows an action in progress. -/
theorem startedIn_statHit (s : Dev) (n : Port) (w : Word) : s.startedIn (statHit n) w = w := by
  refine foldl_eq_self _ _ _ fun _ x hx => ?_
  have hn : (statHit n).reg.fields.contains x.1 = false := by
    have all : ∀ f ∈ startedBits.map (·.1), Reg.SPORT_STAT.fields.contains f = false := by decide +kernel
    exact all _ (List.mem_map_of_mem hx)
  simp only [hn, Bool.false_eq_true, if_false]

theorem shown_statHit (s : State) (n : Port) (w : Word) : s.shown (statHit n) w = w := by
  simp only [State.shown, startedIn_statHit]
  rfl

theorem clearRc_statHit (s : Dev) (n : Port) : s.clearRc (statAddr n) (statHit n) (2 ^ 64 - 1) = s.statCleared n := by
  have hm : maskOf ((statHit n).reg.fields.filter (fun f => f.acc == .rc)) &&& (2 ^ 64 - 1) = 2 ^ 64 - 1 := by
    change maskOf (Reg.SPORT_STAT.fields.filter (fun f => f.acc == .rc)) &&& (2 ^ 64 - 1) = 2 ^ 64 - 1
    decide
  unfold Dev.clearRc
  simp only [hm, mergeWord_all]
  rfl

theorem readWord_statHit (s : State) (who : Requester) (n : Port) :
    s.readWord who (statAddr n) true (statAddr n) (statHit n) =
      (s.dev.regs.word (statAddr n), { s with dev := s.dev.statCleared n }) := by
  have hlive : s.dev.liveWord (statAddr n) = s.dev.regs.word (statAddr n) := by
    simp [Dev.liveWord, windowOf_statAddr]
  calc s.readWord who (statAddr n) true (statAddr n) (statHit n)
      = (taken (statAddr n) true (s.shown (statHit n) (s.dev.liveWord (statAddr n))),
          { s with dev := s.dev.clearRc (statAddr n) (statHit n) (accessMask (statAddr n) true) }) := rfl
    _ = _ := by rw [shown_statHit, hlive, show accessMask (statAddr n) true = 2 ^ 64 - 1 from rfl, clearRc_statHit]; rfl

/-- P0's 64-bit read of a mapped word over KMP. -/
theorem regRead_p0 (s : State) (a key : Nat) (h : Reg.Hit) (ha : a % 8 = 0) (hl : s.dev.locate a = some (key, h)) :
    s.regRead ⟨0, .kmp⟩ a true =
      ((s.readWord ⟨0, .kmp⟩ a true key h).1, (s.readWord ⟨0, .kmp⟩ a true key h).2, ksOk) := by
  simp [State.regRead, aligned, ha, wordAddr, hl, Dev.mayRead]

/-- The read of a port's counters with the increments of its fc: the word as it stood, cleared, and the increments put on top. -/
theorem rcRead_statAddr (s : State) (n : Port) (incs : List (Nat × Nat)) :
    exec (.rcRead ⟨0, .kmp⟩ (BitVec.ofNat 40 (statAddr n)) true incs) s =
      .next (({ s with dev := (s.dev.statCleared n).keepIncrements (statAddr n) (statHit n) incs } : State).answered
        (s.dev.regs.word (statAddr n)) ksOk) := by
  obtain ⟨hlt, hal⟩ := statAddr_facts n
  have hw := inWindow_of_lt hlt
  have hl := locate_of_namesPlain s.dev (namesPlain_statAddr n)
  have hto : (BitVec.ofNat 40 (statAddr n)).toNat = statAddr n := Nat.mod_eq_of_lt (Nat.lt_trans hlt (by decide))
  change execRcRead _ _ _ _ s = _
  simp only [execRcRead, hto, State.hostRead, hw, Bool.false_eq_true, if_false, wordAddr, hal, Nat.sub_zero,
    regRead_p0 s _ _ _ hal hl, hl, readWord_statHit, if_true]

/-- Without increments the word stays cleared. -/
theorem keepIncrements_statCleared_nil (s : Dev) (n : Port) (h : Reg.Hit) :
    (s.statCleared n).keepIncrements (statAddr n) h [] = s.statCleared n := by
  have hw : (s.statCleared n).regs.setWord (statAddr n) ((s.statCleared n).regs.word (statAddr n)) = (s.statCleared n).regs := by
    simp only [Dev.statCleared, word_setWord_same, setWord_setWord_same]
  exact congrArg (fun r => { s with regs := r }) hw

/-- One increment, of the counter that stands lowest in the word of a port. -/
theorem keepIncrements_hdrCorrected (s : Dev) (n : Port) (k : Nat) :
    s.keepIncrements (statAddr n) (statHit n) [(0, k)] = s.bump Reg.SPORT_STAT.hdr_corrected n.val 0 0 k := by
  have ha := addr_statField n Reg.SPORT_STAT.hdr_corrected (by decide)
  simp only [Dev.bump, Dev.setF, RegFile.setF, Dev.fld, RegFile.fld, ha]
  rfl

/-! ### Counters -/

/-- A counter of a link in RUN moves up and saturates. -/
theorem fld_uplCount_same (s : Dev) (u : Nat) (f : Reg.Fld) (hf : Reg.Fld.fits f) (hu : s.fld Reg.UPL_STATUS.state u = 3) :
    (s.uplCount u f).fld f u = min (s.fld f u + 1) (2 ^ f.width - 1) := by
  have : s.uplCount u f = s.bump f u := by simp [Dev.uplCount, Dev.uplinkUp, hu]
  rw [this, fld_bump_same s f u 0 0 1 hf]

/-! ### Writes of locked words (R11) -/

/-- Effects of fields that the register does not have do not take place. -/
theorem runActs_of_no_field (s : State) (acts : List (Reg.Fld × FieldAct)) (h : Reg.Hit) (who : Requester) (v : Word) (m : Nat)
    (which : Reg.Fld → Bool) (hn : ∀ f ∈ acts.map (·.1), f ∉ h.reg.fields) : s.runActs acts h who v m which = s := by
  refine foldl_eq_self _ _ _ fun _ x hx => ?_
  have : x.1 ∉ h.reg.fields := hn _ (List.mem_map_of_mem hx)
  simp [this]

/-- No RWL field has an effect of its own. -/
theorem rwActs_not_rwl : ∀ f ∈ rwActs.map (·.1), f.acc ≠ .rwl := by decide +kernel

theorem startActs_not_rwl : ∀ f ∈ startActs.map (·.1), f.acc ≠ .rwl := by decide +kernel

/-- After the first commit a write of a word whose fields are all RWL is ignored: at most its LOG event comes of it. -/
theorem writeWord_of_locked (s : State) (who : Requester) (key : Nat) (h : Reg.Hit) (m : Nat) (v : Word) (hc : s.dev.committed = true)
    (hb : h.reg.banked = false) (hr : h.reg ≠ Reg.TMB_RESET) (hf : ∀ f ∈ h.reg.fields, f.acc = .rwl) :
    s.writeWord who key h m v = s ∨ s.writeWord who key h m v = { s with dev := s.dev.ignored who key h } := by
  have hplain : plainMask h = 0 := by
    have : h.reg.fields.filter (fun f => f.acc == .rw && (rwActs.find? (fun x => x.1 == f)).isNone) = [] := by
      rw [List.filter_eq_nil_iff]
      intro f hm
      simp [hf f hm]
    simp [plainMask, this, maskOf]
  have hrw := fun (t : State) (w : Word) (which : Reg.Fld → Bool) => runActs_of_no_field t rwActs h who w m which
    (fun f hm hin => rwActs_not_rwl f hm (hf f hin))
  have hst := fun (t : State) (w : Word) (which : Reg.Fld → Bool) => runActs_of_no_field t startActs h who w m which
    (fun f hm hin => startActs_not_rwl f hm (hf f hin))
  -- A write that changes RWL bits is locked, so the configuration is written in no case.
  have hkeep : ∀ (c k : Bool) (d : Dev), (if (!c || (c && true) || k) = true then s.dev else d) = s.dev := by
    intro c k d
    cases c <;> rfl
  have pick : ∀ c : Bool, ({ s with dev := if c then s.dev.ignored who key h else s.dev } : State) = s ∨
      ({ s with dev := if c then s.dev.ignored who key h else s.dev } : State) = { s with dev := s.dev.ignored who key h } := by
    intro c
    cases c
    · exact .inl rfl
    · exact .inr rfl
  unfold State.writeWord
  simp only [hb, hplain, hrw, hst, hc, hr, hkeep, Bool.true_or, Nat.zero_and, Nat.sub_zero, if_true, if_false,
    Bool.false_eq_true]
  exact pick _

end Sys2Proof.Machine
end

section
/-! PROOFS. The obligations about the scope of the model: accesses and their counters, locks, resets, the idle step. -/

namespace Sys2Proof.Machine

theorem step_of_idle (s : State) (h : s.pending = []) : step s = .next s.tick := by
  unfold step
  split
  · rfl
  · next hp => exact absurd (h.symm.trans hp) (List.cons_ne_nil _ _).symm

/-- Settles O47: the step of an empty queue is the tick. -/
theorem idleStepTicks : Obligations.IdleStepTicks := step_of_idle

/-- Settles O48: every map of the reset state is empty, and reads as its default. -/
theorem resetState : Obligations.ResetState :=
  ⟨rfl, fun _ => rfl, rfl, fun _ => rfl, fun _ => rfl, rfl, rfl, rfl, rfl⟩

/-- Settles O58: each of the three commands moves its counter by `bump`. -/
theorem countersSaturate : Obligations.CountersSaturate := by
  intro s u hu
  refine ⟨⟨_, rfl, ?_⟩, ⟨_, rfl, ?_⟩, fun p => ⟨_, rfl, ?_⟩⟩
  · exact fld_uplCount_same s.dev u.val Reg.UPL_STAT3.pause_ignored (by unfold Reg.Fld.fits; decide) hu
  · exact fld_uplCount_same s.dev u.val Reg.UPL_STAT2.rx_discard (by unfold Reg.Fld.fits; decide) hu
  · exact fld_bump_same s.dev Reg.TIME_STAT2.rx_discard 0 0 0 1 (by unfold Reg.Fld.fits; decide)

/-- Settles O2: no increment comes on top of the cleared word. -/
theorem rcReadClears : Obligations.RcReadClears := by
  intro s n
  refine (rcRead_statAddr s n []).trans ?_
  rw [keepIncrements_statCleared_nil]
  rfl

/-- A bit of the summary after its clearing access: one that rises stands, another stands if it stood and the mask spares it. -/
theorem testBit_alarmClear (s : Dev) (i b : Nat) (mask rise : Word) (hb : b < 64) :
    ((s.alarmClear i mask rise).fld Reg.INTG_ALARM.summary i).testBit b =
      (((s.fld Reg.INTG_ALARM.summary i).testBit b && !mask.getLsbD b) || rise.getLsbD b) := by
  unfold Dev.alarmClear
  rw [fld_setF_same _ _ _ _ _ _ (by unfold Reg.Fld.fits; decide), show Reg.INTG_ALARM.summary.width = 64 from rfl,
    Nat.mod_eq_of_lt (BitVec.isLt _), BitVec.testBit_toNat]
  simp only [BitVec.getLsbD_or, BitVec.getLsbD_and, BitVec.getLsbD_not, BitVec.getLsbD_ofNat, hb, decide_true, Bool.true_and]

/-- Settles O59: the bits by `testBit_alarmClear`, the counters by the increment on top of a cleared word. -/
theorem nothingLostAtCoincidence : Obligations.NothingLostAtCoincidence := by
  refine ⟨fun s t i mask rise b hb ht => ?_, fun s n k => ?_⟩
  · obtain rfl : { s with dev := s.dev.alarmClear i.val mask rise } = t := Host.Outcome.next.inj ht
    rw [testBit_alarmClear s.dev i.val b mask rise hb]
    refine ⟨fun hr => by simp [hr], fun hr hm => by simp [hr, hm], fun hr hm => by simp [hr, hm]⟩
  · let p : Port := ⟨n.val, by omega⟩
    have hread := rcRead_statAddr s p [(0, k)]
    rw [keepIncrements_hdrCorrected] at hread
    refine ⟨_, hread, rfl, ?_, ?_⟩
    · refine (fld_bump_same (s.dev.statCleared p) Reg.SPORT_STAT.hdr_corrected p.val 0 0 k (by unfold Reg.Fld.fits; decide)).trans ?_
      rw [fld_statCleared _ _ _ (by decide), Nat.zero_add]
      rfl
    · refine (fld_setF_field (s.dev.statCleared p) Reg.SPORT_STAT.hdr_corrected Reg.SPORT_STAT.unmatched _ _ _ _ _ _ _ rfl
        (by decide) (by unfold Reg.Fld.fits; decide)).trans ?_
      exact fld_statCleared _ _ _ (by decide)

/-! ### Locks (R11) -/

/-- The address of a tile's control word. -/
def tileAddr (n : Fin 256) : Nat := Reg.TILE_CTRL.base + n.val * Reg.TILE_CTRL.s0

/-- The register found there. -/
def tileHit (n : Fin 256) : Reg.Hit := ⟨Reg.TILE_CTRL, n.val, 0, 0⟩

theorem tileAddr_bounds (n : Fin 256) : 0x300000 ≤ tileAddr n ∧ tileAddr n < 0x340000 ∧ tileAddr n % 8 = 0 := by
  have : tileAddr n = 0x300000 + n.val * 0x400 := rfl
  omega

theorem namesPlain_tileAddr (n : Fin 256) : NamesPlain (tileAddr n) (tileHit n) := by
  have all : ∀ m : Fin 256, NamesPlain (tileAddr m) (tileHit m) := by
    unfold NamesPlain
    decide +kernel
  exact all n

/-- No LOG event of a partition writes a tile's control word. -/
theorem tileAddr_not_mem_words (n : Fin 256) (e : Event) (hc : e.cls = 1) (ho : e.owner < 16) : tileAddr n ∉ e.words := by
  have := tileAddr_bounds n
  simp only [Event.words, hc, Reg.Fld.addr, Reg.PART_NOTICE_STAT.pending, Reg.PART_NOTICE_STAT2.raised, Reg.INTG_EVT_HEAD.head,
    Reg.INTG_EVT_STAT.trace_dropped, List.mem_append, List.mem_cons, List.not_mem_nil]
  simp
  omega

/-- Who a request's events go to is a partition. -/
theorem credited_owner_lt (s : Dev) (who : Requester) (e : Event) (h : e.owner < 16) :
    ((s.askedBy (askerOf who)).credited e).owner < 16 := by
  change ((askerOf who).getD e.owner) < 16
  unfold askerOf
  split
  · exact who.part.isLt
  · exact h

theorem word_ignored_tileAddr (s : Dev) (who : Requester) (n : Fin 256) (key : Nat) (h : Reg.Hit) :
    ((s.askedBy (askerOf who)).ignored who key h).regs.word (tileAddr n) = s.regs.word (tileAddr n) :=
  log_word _ _ _ _ _ _ (tileAddr_not_mem_words n _ rfl (credited_owner_lt s who _ who.part.isLt))

/-- A refused access counts in its partition's own word. -/
theorem word_refused_tileAddr (s : Dev) (who : Requester) (n : Fin 256) : (s.refused who).regs.word (tileAddr n) = s.regs.word (tileAddr n) := by
  unfold Dev.refused
  split
  · refine word_setWord_other _ _ _ _ ?_
    have := tileAddr_bounds n
    have := who.part.isLt
    simp only [Reg.Fld.addr, Reg.PART_STAT2.range_refusals]
    omega
  · rfl

/-- After the first commit no register write changes a tile's control word. -/
theorem word_regWrite_tileAddr (s : State) (who : Requester) (n : Fin 256) (v : Word) (hc : s.dev.committed = true) :
    (s.regWrite who (tileAddr n) true v).1.dev.regs.word (tileAddr n) = s.dev.regs.word (tileAddr n) := by
  obtain ⟨-, -, hal⟩ := tileAddr_bounds n
  have hl := locate_of_namesPlain s.dev (namesPlain_tileAddr n)
  unfold State.regWrite
  simp only [aligned, wordAddr, hal, Nat.sub_zero, hl, if_true, beq_self_eq_true, Bool.not_true, Bool.false_eq_true, if_false]
  split
  · rfl
  · split
    · exact word_refused_tileAddr s.dev who n
    · split
      · rfl
      · rcases writeWord_of_locked { s with dev := s.dev.askedBy (askerOf who) } who (tileAddr n) (tileHit n)
          (accessMask (tileAddr n) true) (placed (tileAddr n) true v) hc rfl
          (by decide : Reg.TILE_CTRL ≠ Reg.TMB_RESET) (by decide : ∀ f ∈ Reg.TILE_CTRL.fields, f.acc = .rwl) with hw | hw
        · simp only [hw]
          rfl
        · simp only [hw]
          exact word_ignored_tileAddr s.dev who n (tileAddr n) (tileHit n)

/-- Settles O60: a write that is refused counts elsewhere, and one that is not is ignored with a LOG event. -/
theorem lockedFieldsStay : Obligations.LockedFieldsStay := by
  intro s t who n v hc ht
  have hb := tileAddr_bounds n
  have hto : (BitVec.ofNat 40 (tileAddr n)).toNat = tileAddr n := Nat.mod_eq_of_lt (by omega)
  have hw : inWindow (tileAddr n) = false := inWindow_of_lt (by unfold windowBase; omega)
  obtain rfl := Host.Outcome.next.inj ht
  change (s.hostWrite who (BitVec.ofNat 40 (tileAddr n)).toNat true v).1.dev.regs.word (tileAddr n) = _
  rw [hto, State.hostWrite, if_neg (by simp [hw])]
  exact word_regWrite_tileAddr s who n v hc

/-! ### Device resets -/

/-- The links of a device at power-on, with VSER in range (R432). -/
def Dev.linksRepeat (s : Dev) : Dev := [0, 1].foldl (fun d l => d.setF Reg.FLK_STATUS.state fsRepeater l) s

theorem powerOnRepeater_eq (s : Dev) : s.powerOnRepeater = if s.start.vser then s.linksRepeat.alarm 15 4 0 0 else s := rfl

theorem fld_linksRepeat (s : Dev) (f : Reg.Fld) (i j k : Nat)
    (h : f.addr i j k ∉ [Reg.FLK_STATUS.state.addr 0 0 0, Reg.FLK_STATUS.state.addr 1 0 0]) :
    s.linksRepeat.fld f i j k = s.fld f i j k := by
  obtain ⟨h0, h1⟩ : f.addr i j k ≠ Reg.FLK_STATUS.state.addr 0 0 0 ∧ f.addr i j k ≠ Reg.FLK_STATUS.state.addr 1 0 0 := by simpa using h
  simp only [Dev.linksRepeat, List.foldl_cons, List.foldl_nil, fld_setF_word _ _ _ _ _ _ _ _ _ _ h0, fld_setF_word _ _ _ _ _ _ _ _ _ _ h1]

theorem fld_refFields (s : Dev) (f : Reg.Fld) (i j k : Nat) (h : f.addr i j k ≠ Reg.CLK_REF.base) : s.refFields.fld f i j k = s.fld f i j k := by
  have hp : f.addr i j k ≠ Reg.CLK_REF.primary.addr 0 0 0 := h
  have hu : f.addr i j k ≠ Reg.CLK_REF.in_use.addr 0 0 0 := h
  simp only [Dev.refFields, fld_setF_word _ _ _ _ _ _ _ _ _ _ hp, fld_setF_word _ _ _ _ _ _ _ _ _ _ hu]

/-- What a device without register words is after its cold start: its memory and queues as they were, and the debug port locked. -/
theorem coldStart_keeps (a : Dev) (hr : a.regs = []) (hk : a.kmp.asker = none) :
    a.refFields.powerOnRepeater.mem = a.mem ∧ a.refFields.powerOnRepeater.queues = a.queues ∧
      a.refFields.powerOnRepeater.halted = a.halted ∧ a.refFields.powerOnRepeater.dbgOpen = false := by
  have hfld : ∀ (f : Reg.Fld), f.addr 0 0 0 ≠ Reg.CLK_REF.base → Reg.resetWord (f.addr 0 0 0) = 0 → a.refFields.fld f = 0 := by
    intro f h1 h0
    rw [fld_refFields a f 0 0 0 h1, Dev.fld, hr, RegFile.fld]
    change fieldOf f (Reg.resetWord (f.addr 0 0 0)) = 0
    rw [h0]
    simp [fieldOf]
  have hring := hfld Reg.INTG_EVT_RING.enable (by decide) (by decide +kernel)
  have hopen := hfld Reg.DBG_STATUS.unlocked (by decide) (by decide +kernel)
  rw [powerOnRepeater_eq]
  split
  · let e : Event := ⟨2, 15, 0, 0, 4, 0, 0, 0⟩
    have he : a.refFields.linksRepeat.credited e = e := by
      change ({ e with owner := a.kmp.asker.getD e.owner } : Event) = e
      rw [hk]
      rfl
    have h : EventEffect e a.refFields.linksRepeat (a.refFields.linksRepeat.alarm 15 4 0 0) := he ▸ raise_effect _ e
    refine ⟨h.mem (by decide) ((fld_linksRepeat _ _ 0 0 0 (by decide)).trans hring), h.queues_eq, h.halted_eq, ?_⟩
    have hlocked := (h.fld_eq Reg.DBG_STATUS.unlocked 0 0 0 (by decide)).trans ((fld_linksRepeat _ _ 0 0 0 (by decide)).trans hopen)
    simp [Dev.dbgOpen, Dev.flag, hlocked]
  · exact ⟨rfl, rfl, rfl, by simp [Dev.dbgOpen, Dev.flag, hopen]⟩

/-- A command that runs an operation of the device yields its result. -/
theorem yields_of_run {c : Instr} {s : State} {d : Dev} (f : Dev → Dev) (hc : exec c s = s.run f) (hd : f s.dev = d) : Yields c s d := by
  rw [Yields, hc, State.run, hd]

theorem warmRequest_of_idle (s : Dev) (hf : s.start.flushFrom = none) : s.warmRequest resetConfirm = s.warmBegin := by
  simp [Dev.warmRequest, hf]

theorem warmRequest_of_flushing (s : Dev) (hf : s.start.flushFrom.isSome = true) : s.warmRequest resetConfirm = s := by
  simp [Dev.warmRequest, hf]

theorem warmRequest_of_unconfirmed (s : Dev) (b : Byte) (hb : b ≠ resetConfirm) : s.warmRequest b = s.unconfirmed := if_pos hb

theorem execColdResetRequest_of_confirmed (s : State) : execColdResetRequest resetConfirm s = .next s.coldReset := if_pos rfl

theorem execColdResetRequest_of_unconfirmed (s : State) (b : Byte) (hb : b ≠ resetConfirm) :
    execColdResetRequest b s = s.run (fun d => d.unconfirmed) := if_neg hb

theorem flushEnds_of_flushing (s : Dev) (t : Nat) (hf : s.start.flushFrom = some t) :
    s.flushEnds = (s.reach (t + s.fld Reg.PART_GLOBAL.warm_flush * Config.msPs)).warmReset 1 false .free := by
  simp only [Dev.flushEnds, hf]

/-- Settles O37: the requests by the cases of `warmRequest` and of the cold reset, the state after it by `coldStart_keeps`. -/
theorem deviceResets : Obligations.DeviceResets := by
  intro s
  refine ⟨fun hf => ?_, fun hf => ?_, fun b hb => ⟨?_, ?_⟩, fun t ht => ?_, fun hf => ?_, fun hf => ?_, ?_⟩
  · exact yields_of_run (·.warmRequest resetConfirm) rfl (warmRequest_of_idle s.dev hf)
  · exact yields_of_run (·.warmRequest resetConfirm) rfl (warmRequest_of_flushing s.dev hf)
  · exact yields_of_run (·.warmRequest b) rfl (warmRequest_of_unconfirmed s.dev b hb)
  · exact yields_of_run (·.unconfirmed) (execColdResetRequest_of_unconfirmed s b hb) rfl
  · exact yields_of_run (·.flushEnds) rfl (flushEnds_of_flushing s.dev t ht)
  · refine (execColdResetRequest_of_confirmed s).trans ?_
    simp only [State.coldReset, hf]
    rfl
  · refine (execColdResetRequest_of_confirmed s).trans ?_
    simp only [State.coldReset, hf]
    rfl
  · exact coldStart_keeps _ rfl rfl

end Sys2Proof.Machine
end

section
/-! PROOFS. The queue-memory window and the queue fabric (chapter 02): window accesses, the producer's write of an idle grain, bank
arbitration, and the turns of conjunctions. -/

namespace Sys2Proof.Machine

/-! ### The queue-memory window (R81–R83) -/

/-- A window write leaves the bytes that it does not cover, and bytes 10–15 of every slot image. -/
theorem memGet_putImage_left (bs : List Byte) (m : List Host.Cell) (k x : Nat) (h : x < k ∨ k + bs.length ≤ x ∨ 10 ≤ x % 16) :
    memGet (putImage m k bs) x = memGet m x := by
  induction bs generalizing m k with
  | nil => rfl
  | cons b rest ih =>
    simp only [List.length_cons] at h
    refine (ih (if k % 16 < 10 then memSet m k b else m) (k + 1) (by omega)).trans ?_
    split
    · exact memGet_memSet_other m x k b (by omega)
    · rfl

/-- A window write stores every other byte that it covers. -/
theorem memGet_putImage_stored (bs : List Byte) (m : List Host.Cell) (k i : Nat) (hi : i < bs.length) (hk : (k + i) % 16 < 10) :
    memGet (putImage m k bs) (k + i) = bs[i] := by
  induction bs generalizing m k i with
  | nil => exact absurd hi (Nat.not_lt_zero i)
  | cons b rest ih =>
    cases i with
    | zero =>
      refine (memGet_putImage_left rest _ (k + 1) k (.inl (by omega))).trans ?_
      rw [if_pos (by exact hk)]
      exact memGet_memSet_same m k b
    | succ n =>
      have stored := ih (if k % 16 < 10 then memSet m k b else m) (k + 1) n (Nat.lt_of_succ_lt_succ hi) (by omega)
      rwa [Nat.add_assoc, Nat.add_comm 1 n] at stored

@[simp] theorem length_leBytes (n v : Nat) : (leBytes n v).length = n := by simp [leBytes]

/-- Byte i of a number in little-endian bytes. -/
theorem getElem_leBytes (n v i : Nat) (h : i < (leBytes n v).length) : (leBytes n v)[i] = BitVec.ofNat 8 (v / 256 ^ i) := by
  simp only [leBytes, List.getElem_map, List.getElem_range, Nat.shiftRight_eq_div_pow, Nat.pow_mul, Nat.reducePow]

/-- An access that nothing bars is one to the window. -/
theorem windowBase_le_of_open {s : Dev} {who : Requester} {a : Nat} {wide : Bool} (h : s.windowBars who a wide = none) : windowBase ≤ a := by
  have hin : inWindow a = true := by
    by_contra hout
    rw [Bool.not_eq_true] at hout
    simp [Dev.windowBars, hout] at h
    split at h <;> cases h
  simp only [inWindow, Bool.and_eq_true, decide_eq_true_eq] at hin
  exact hin.1

theorem windowRead_of_open {s : Dev} {who : Requester} {a : Nat} {wide : Bool} (h : s.windowBars who a wide = none) :
    s.windowRead who a wide = (BitVec.ofNat 64 (s.windowBytes a (if wide then 8 else 4)), s, ksOk) := by
  simp only [Dev.windowRead, h]

/-- The device once n bytes are stored at an address of the window, under fresh check bits of their slot (R82, R83). -/
def Dev.windowStored (s : Dev) (a n v : Nat) : Dev :=
  ({ s with mem := putImage s.mem (a - windowBase) (leBytes n v) } : Dev).setSlotErr (slotOf a) .clean

theorem windowWrite_of_open {s : Dev} {who : Requester} {a : Nat} {wide : Bool} (v : Word) (h : s.windowBars who a wide = none) :
    s.windowWrite who a wide v = (s.windowStored a (if wide then 8 else 4) v.toNat, ksOk) := by
  simp only [Dev.windowWrite, h, Dev.windowStored]

section
variable (s : Dev) (a n v : Nat)

theorem windowStored_slotErr_same : (s.windowStored a n v).slotErr (slotOf a) = .clean :=
  Sparse.get_set_same (fun _ => SlotErr.clean) s.slotErrs (slotOf a) .clean

theorem windowStored_slotErr_other (q : Nat) (h : q ≠ slotOf a) : (s.windowStored a n v).slotErr q = s.slotErr q :=
  Sparse.get_set_other (fun _ => SlotErr.clean) s.slotErrs q (slotOf a) .clean h

end

/-- An open read answers the bytes of the window and changes nothing else. -/
theorem yields_queueWindowRead {s : State} {who : Requester} {a : Addr} {wide : Bool} (h : s.dev.windowBars who a.toNat wide = none) :
    Yields (.queueWindowRead who a wide) s
      { s.dev with lastRead := BitVec.ofNat 64 (s.dev.windowBytes a.toNat (if wide then 8 else 4)), lastStatus := ksOk } := by
  change execQueueWindowRead who a wide s = _
  simp only [execQueueWindowRead, windowRead_of_open h]
  rfl

/-- An open write stores its bytes, and answers OK. -/
theorem exec_queueWindowWrite_of_open {s : State} {who : Requester} {a : Addr} {wide : Bool} (v : Word)
    (h : s.dev.windowBars who a.toNat wide = none) :
    exec (.queueWindowWrite who a wide v) s =
      .next (({ s with dev := s.dev.windowStored a.toNat (if wide then 8 else 4) v.toNat } : State).answered 0 ksOk) := by
  change execQueueWindowWrite who a wide v s = _
  simp only [execQueueWindowWrite, windowWrite_of_open v h]

/-- Settles O4: the reads by `yields_queueWindowRead`; the bytes after a write by what `putImage` stores and leaves. -/
theorem windowAccess : Obligations.WindowAccess := by
  refine ⟨fun s who a h => yields_queueWindowRead h, fun s who a h => yields_queueWindowRead h, fun s who a wide v h => ?_⟩
  have hbase := windowBase_le_of_open h
  have haligned : windowBase % 16 = 0 := by decide
  refine ⟨_, exec_queueWindowWrite_of_open v h, rfl, rfl, rfl, windowStored_slotErr_same _ _ _ _,
    fun q hq => windowStored_slotErr_other _ _ _ _ q hq, rfl, rfl, fun i hi hrow => ?_, fun k hk => ?_, fun k hk => ?_,
    fun hm => putImage_wf _ _ _ hm⟩
  · have hlen : i < (leBytes (if wide then 8 else 4) v.toNat).length := by rwa [length_leBytes]
    exact (memGet_putImage_stored _ s.dev.mem _ i hlen (by omega)).trans (getElem_leBytes _ v.toNat i hlen)
  · exact memGet_putImage_left _ s.dev.mem _ k (by rw [length_leBytes]; omega)
  · exact memGet_putImage_left _ s.dev.mem _ k (.inr (.inr hk))

/-! ### An idle write (R59) -/

theorem qStep_of_idle (s : Dev) (q : Nat) (c : Cell) (via : Option Nat) (h : codeOf c.2 = cIdle) :
    s.qStep q c via = ⟨s.bump Reg.QFAB_IDLE_WRITES.count, [], []⟩ := by
  simp only [Dev.qStep, h, if_true]

/-- The taps of the queue have nothing to mirror. -/
theorem qFlow_of_idle (n : Nat) (s : Dev) (q : Nat) (c : Cell) (via : Option Nat) (h : codeOf c.2 = cIdle) :
    s.qFlow (n + 1) q c via = (s.bump Reg.QFAB_IDLE_WRITES.count, []) := by
  simp only [Dev.qFlow, qStep_of_idle s q c via h]
  split <;> rfl

theorem qWrite_of_idle (s : Dev) (q : Nat) (c : Cell) (hl : s.qLive q = true) (h : codeOf c.2 = cIdle) :
    s.qWrite q c = s.bump Reg.QFAB_IDLE_WRITES.count := by
  simp [Dev.qWrite, hl, h, qFlow_of_idle 63 s q c none h, Dev.endAll, cIdle, cStop]

/-- Settles O7: by `qWrite_of_idle`. -/
theorem idleWriteCounts : Obligations.IdleWriteCounts := fun s q g m hl hm =>
  yields_of_run (·.qWrite q.val (g, m)) rfl (qWrite_of_idle s.dev q.val (g, m) hl hm)

/-! ### Bank arbitration (R69–R73) -/

theorem bankServe_of_none {s : Dev} {bank : Nat} {write : Bool} (h : s.bankPick (s.bankDir (bankKey bank write)) = none) :
    s.bankServe bank write = s := by
  simp only [Dev.bankServe, h]

theorem bankServe_of_some {s : Dev} {bank : Nat} {write : Bool} {k : Fin 4} {w : BankWait}
    (hk : s.bankPick (s.bankDir (bankKey bank write)) = some k) (hw : station (s.bankDir (bankKey bank write)).waiting k = some w) :
    s.bankServe bank write =
      (s.setBankDir (bankKey bank write)
        { waiting := s.ageStations k [] (dropClass k (s.bankDir (bankKey bank write)).waiting)
          lastUrgent := if s.fld Reg.QFAB_CTRL.age_limit ≤ w.age then k else (s.bankDir (bankKey bank write)).lastUrgent }).setF
        Reg.QFAB_WAIT_MAX.wait_max (max (s.fld Reg.QFAB_WAIT_MAX.wait_max) (min w.waited 65535)) := by
  simp only [Dev.bankServe, hk, hw, Option.map_some, Option.getD_some, decide_eq_true_eq]

theorem bankArbitrationServes : Claim.BankArbitrationServes := fun _ b write reqs =>
  ⟨fun hn => yields_of_run (·.bankArbitrate b.val write reqs) rfl (bankServe_of_none hn),
   fun _ _ hk hw => yields_of_run (·.bankArbitrate b.val write reqs) rfl (bankServe_of_some hk hw)⟩

/-! ### Conjunctions (R76–R80, R272) -/

/-- A partition whose completion writer does not stall holds no turn back. -/
theorem unlessStalled_of_free {s : Dev} {p : Nat} (turn : Dev → Dev) (h : (s.part p).stalled = false) : s.unlessStalled p turn = turn s := by
  simp [Dev.unlessStalled, h]

theorem conjTurn_of_runs {s : Dev} {c : Nat}
    (h : (s.switchAt 0 (0x8000 + c) (s.merge c).pil.isSome (fun cf => conjInputs cf c)).conjRuns c = true) :
    s.conjTurn c =
      (s.switchAt 0 (0x8000 + c) (s.merge c).pil.isSome (fun cf => conjInputs cf c)).mTurn
        ((s.switchAt 0 (0x8000 + c) (s.merge c).pil.isSome (fun cf => conjInputs cf c)).conjCfg c) := by
  simp only [Dev.conjTurn, h, if_true]

/-- An ordered conjunction at its timeout: what has arrived is absorbed, and the round that is then due is open. -/
def Dev.conjDue (s : Dev) (c : Nat) : Dev := ((s.mAbsorbAll (s.conjCfg c)).mOpenRound (s.conjCfg c)).mSince (s.conjCfg c)

section
variable {s : Dev} {c : Nat}

/-- May the round of a conjunction time out: does it run in order, with an output that does not wait? -/
def Dev.conjExpires (s : Dev) (c : Nat) : Prop := s.conjRuns c = true ∧ (s.conjCfg c).ordered = true ∧ s.qStalled (s.conjCfg c).out = false

theorem conjTimeout_of_round {n t : Nat} (h : s.conjExpires c) (hn : ((s.conjDue c).merge c).round = some n)
    (ht : (s.conjDue c).conjDeadline c = some t) :
    s.conjTimeout c =
      (((((s.conjDue c).reach t).mExpire 300 (s.conjCfg c) n).mAbsorbAll (s.conjCfg c)).mCloseBlock (s.conjCfg c)).mAbsorbAll (s.conjCfg c) := by
  obtain ⟨hr, ho, hs⟩ := h
  unfold Dev.conjDue at hn ht
  simp [Dev.conjTimeout, Dev.conjDue, hr, ho, hs, hn, ht]

theorem conjTimeout_of_no_deadline (h : s.conjExpires c) (hn : ((s.conjDue c).merge c).round = none ∨ (s.conjDue c).conjDeadline c = none) :
    s.conjTimeout c = s.conjDue c := by
  obtain ⟨hr, ho, hs⟩ := h
  unfold Dev.conjDue at hn
  rcases hn with hn | hn
  · simp [Dev.conjTimeout, Dev.conjDue, hr, ho, hs, hn]
  · simp [Dev.conjTimeout, Dev.conjDue, hr, ho, hs, hn]

end

theorem yields_conjunctionSelect {s : State} {c : Fin 1024} {d : Dev}
    (hf : (s.dev.part ((s.dev.cfg 0 (0x8000 + c.val)).fld Reg.QFAB_CONJ_CFG.owner c.val)).stalled = false) (hd : s.dev.conjTurn c.val = d) :
    Yields (.conjunctionSelect c) s d :=
  yields_of_run (fun d => d.unlessStalled ((d.cfg 0 (0x8000 + c.val)).fld Reg.QFAB_CONJ_CFG.owner c.val) (fun e => e.conjTurn c.val)) rfl
    ((unlessStalled_of_free _ hf).trans hd)

theorem yields_conjunctionRoundTimeout {s : State} {c : Fin 1024} {d : Dev}
    (hf : (s.dev.part ((s.dev.cfg 0 (0x8000 + c.val)).fld Reg.QFAB_CONJ_CFG.owner c.val)).stalled = false) (hd : s.dev.conjTimeout c.val = d) :
    Yields (.conjunctionRoundTimeout c) s d :=
  yields_of_run (fun d => d.unlessStalled ((d.cfg 0 (0x8000 + c.val)).fld Reg.QFAB_CONJ_CFG.owner c.val) (fun e => e.conjTimeout c.val)) rfl
    ((unlessStalled_of_free _ hf).trans hd)

theorem conjunctionRuns : Claim.ConjunctionRuns :=
  ⟨fun _ _ hf hr => yields_conjunctionSelect hf (conjTurn_of_runs hr),
   fun _ _ hf hr ho hs =>
    ⟨fun _ _ hn ht => yields_conjunctionRoundTimeout hf (conjTimeout_of_round ⟨hr, ho, hs⟩ hn ht),
     fun hn => yields_conjunctionRoundTimeout hf (conjTimeout_of_no_deadline ⟨hr, ho, hs⟩ hn)⟩⟩

/-- Settles O9: banks by the cases of `bankServe`, conjunctions by those of `conjTurn` and `conjTimeout`. -/
theorem banksAndConjunctions : Obligations.BanksAndConjunctions := ⟨bankArbitrationServes, conjunctionRuns⟩

end Sys2Proof.Machine
end

section
/-! PROOFS. Three statements about queues that fail, each at a device that the model's own operations reach from one queue that is the
source of a remote channel, with twin digests on (R388): a line that comes round to the slot of its own colon, a colon read while its
digest waits for the twin, and a line whose last grain a full queue holds back. -/

namespace Sys2Proof.Machine

/-- A command that runs an operation of the device yields nothing but its result. -/
theorem run_eq_of_yields {c : Instr} {s : State} {d : Dev} (f : Dev → Dev) (hc : exec c s = s.run f) (hy : Yields c s d) : f s.dev = d :=
  congrArg State.dev (Host.Outcome.next.inj (hc.symm.trans hy))

theorem exists_state_of_dev (d : Dev) : ∃ s : State, s.dev = d := ⟨{ State.reset with dev := d }, rfl⟩

theorem exists_queue_7 : ∃ q : QId, q.val = 7 := ⟨7, rfl⟩

/-- Queue 7, of 64 slots from slot 0, the source of channel 0, with twin digests on. -/
def twinSource : Dev :=
  (((Dev.init.setF Reg.QD_BASE.enable 1 7).setF Reg.FLK_TWIN.twin_en 1).setF Reg.DMA_CH_CTRL.enable 1).setChan 0
    { ChanRec.init with srcQ := some 7 }

/-- A pilcrow, and a line of n nouns that has not ended. -/
def openLine (n : Nat) : List Cell := [(0, mkCode cPilcrow), (0, mkCode cColon), (0, mkCode cBracket)] ++ List.replicate n (0, mkCode cNoun)

/-- The comma that ends it. -/
def lineEnd : Cell := (0, mkCode cComma)

/-- The twin's entry for the line of tag 0, of another digest than this device finds. -/
def otherDigest : Digest := ⟨0, 0, false, false, false, 1, 0, 0, none⟩

/-- A grain written to a queue, read there and released. -/
def Dev.passThrough (s : Dev) (q : Nat) (c : Cell) : Dev := ((s.qWrite q c).portRead q).qRelease q

/-! ### A line longer than its queue -/

/-- A line of 65 grains short of its comma, all of them read and released: the comma falls on the slot of the colon, and the twin's entry for the
line is there already. -/
def wrappedLine : Dev := ((openLine 62).foldl (fun d c => d.passThrough 7 c) twinSource).twinDigestIn otherDigest

/-- Queue 7 commits at once, is empty, and takes the comma: the conditions of the round trip. -/
theorem wrappedLine_takes_comma :
    (wrappedLine.qMoves 7 = true ∧ wrappedLine.qLineCommit 7 = false ∧ wrappedLine.tapOf 7 = none ∧ wrappedLine.breaks = []) ∧
    ((wrappedLine.queue 7).held = [] ∧ (wrappedLine.queue 7).dropping = .nothing) ∧
    (wrappedLine.fld Reg.QD_BASE.size_log2 7 ≤ 22 ∧ wrappedLine.qFull 7 = false) ∧
    (wrappedLine.fld Reg.QD_PROD.write_ptr 7 < wrappedLine.qMod 7 ∧
      wrappedLine.fld Reg.QD_PROD.commit_ptr 7 = wrappedLine.fld Reg.QD_PROD.write_ptr 7 ∧
      wrappedLine.fld Reg.QD_CONS.read_ptr 7 = wrappedLine.fld Reg.QD_PROD.write_ptr 7) ∧
    (gramStep (wrappedLine.queue 7).gram lineEnd).2 = (none, false) := by decide +kernel

/-- The consumer reads the comma with the divergent flag that the comparison set in the slot of the colon. -/
theorem wrappedLine_delivers : ((wrappedLine.qWrite 7 lineEnd).portRead 7).lastGrain = (2 ^ 49, mkCode cComma) := by decide +kernel

/-- Refutes O8: at `wrappedLine` the comma ends a line whose digest differs from the twin's, and the flag of R391, which belongs in a colon that the
channel has not read, enters the slot of the colon read long before, where the comma now stands. -/
theorem not_writeThenRead : ¬ Obligations.WriteThenRead := by
  intro h
  have conditions := wrappedLine_takes_comma
  have delivers := wrappedLine_delivers
  obtain ⟨s, hs⟩ := exists_state_of_dev wrappedLine
  obtain ⟨q, hq⟩ := exists_queue_7
  rw [← hs, ← hq] at conditions delivers
  obtain ⟨⟨hmoves, hcommit, htap, hbreaks⟩, ⟨hheld, hdrop⟩, ⟨hsize, hfull⟩, ⟨hw, hc, hr⟩, hgram⟩ := conditions
  have delivered := h s _ _ q lineEnd.1 lineEnd.2 hmoves hcommit htap hbreaks hheld hdrop (by decide) (by decide) hsize hfull hw hc hr hgram
    rfl rfl
  have same : ((2 ^ 49 : Grain), mkCode cComma) = lineEnd := delivers.symm.trans delivered
  exact absurd same (by decide)

/-! ### A colon read while its digest waits -/

/-- A block with one line of no nouns, written and read up to its pilcrow: the colon stands next, and the line's digest waits for the twin's. -/
def unreadColon : Dev := (twinSource.qWriteAll 7 (openLine 0 ++ [lineEnd])).portRead 7

/-- Queue 7 holds the colon, and the grammar takes it: the conditions of a read that delivers. -/
theorem unreadColon_is_next :
    (unreadColon.qMoves 7 = true ∧ unreadColon.fill 7 ≠ 0 ∧ unreadColon.breaks = []) ∧
    unreadColon.slotErr (unreadColon.slotAt 7 (unreadColon.fld Reg.QD_CONS.read_ptr 7)) = .clean ∧
    gramStep (unreadColon.queue 7).gram (unreadColon.slotCell (unreadColon.slotAt 7 (unreadColon.fld Reg.QD_CONS.read_ptr 7))) =
      (.afterColon 0, none, false) := by decide +kernel

/-- The digest that waits knows where the colon stands, until the colon is read. -/
theorem unreadColon_forgotten :
    unreadColon.twin.own.map (·.colonPtr) = [some 1] ∧ (unreadColon.portRead 7).twin.own.map (·.colonPtr) = [none] := by decide +kernel

theorem twin_notice (s : Dev) (p c : Nat) (detail : BitVec 64) : (s.notice p c detail).twin = s.twin := by
  unfold Dev.notice
  dsimp only
  split_ifs <;> rfl

theorem twin_watches (s : Dev) (p q : Nat) : (s.watches p q).twin = s.twin := by
  unfold Dev.watches
  refine List.foldlRecOn (motive := fun d : Dev => d.twin = s.twin) _ _ rfl fun d hd k _ => ?_
  split_ifs
  · exact (twin_notice d _ _ _).trans hd
  · exact hd

/-- That paced_high follows leaves the twin's record. -/
theorem twin_pace (s : Dev) (q : Nat) : (s.pace q).twin = s.twin := by
  unfold Dev.pace
  split_ifs
  · rfl
  · exact twin_watches _ _ _
  · rfl
  · rfl

/-- Refutes O5, in its claim about a read that delivers: at `unreadColon` the read also strikes the place of the colon from the digest that waits,
so that no later comparison sets the divergent flag there (R391). -/
theorem not_consumerPort : ¬ Obligations.ConsumerPort := by
  rintro ⟨-, -, delivers⟩
  have conditions := unreadColon_is_next
  obtain ⟨held, forgotten⟩ := unreadColon_forgotten
  obtain ⟨s, hs⟩ := exists_state_of_dev unreadColon
  obtain ⟨q, hq⟩ := exists_queue_7
  rw [← hs, ← hq] at conditions forgotten
  rw [← hs] at held
  obtain ⟨⟨hmoves, hfill, hbreaks⟩, hclean, hgram⟩ := conditions
  have hy := run_eq_of_yields (·.portRead q.val) rfl (delivers s q _ hmoves hfill hbreaks hclean hgram)
  have kept : (s.dev.portRead q.val).twin = s.dev.twin := (congrArg Dev.twin hy).trans (twin_pace _ q.val)
  rw [kept, held] at forgotten
  exact absurd forgotten (by decide)

/-! ### A line end that a full queue holds back -/

/-- A tile fills queue 7 with a line, whose comma waits in the crossing; then the consumer releases a slot. -/
def heldLineEnd : Dev := ((twinSource.qEmit (.tile 0) 7 (openLine 61 ++ [lineEnd])).portRead 7).qRelease 7

/-- The held grains of queue 7 written again, as the statement puts it. -/
def heldWritten : Dev := (heldLineEnd.setQueue 7 { heldLineEnd.queue 7 with held := [] }).qWriteAll 7 (heldLineEnd.queue 7).held

/-- No grain waits then, and the tile has counted no line; the resumption counts it. -/
theorem heldLineEnd_counted :
    heldWritten.qStalled 7 = false ∧ (heldLineEnd.qResume 7).fld Reg.TILE_STAT.lines = 1 ∧
    ((heldWritten.queue 7).owed.foldl (fun d o => d.payOwed o) (heldWritten.setQueue 7 { heldWritten.queue 7 with owed := [] })).fld
      Reg.TILE_STAT.lines = 0 := by decide +kernel

/-- Refutes O6, in its clause about the resumption: at `heldLineEnd` the comma that is written again commits a line, which the tile that wrote it
counts in TILE_STAT (R172); what the statement lets be done counts none. -/
theorem not_producerOperations : ¬ Obligations.ProducerOperations := by
  rintro ⟨-, -, -, resumes, -⟩
  obtain ⟨written, counted, uncounted⟩ := heldLineEnd_counted
  unfold heldWritten at written uncounted
  obtain ⟨s, hs⟩ := exists_state_of_dev heldLineEnd
  obtain ⟨q, hq⟩ := exists_queue_7
  rw [← hs, ← hq] at written counted uncounted
  have hy := run_eq_of_yields (·.qResume q.val) rfl ((resumes s q).2 written)
  have same : 1 = 0 := counted.symm.trans ((congrArg (·.fld Reg.TILE_STAT.lines) hy).trans uncounted)
  exact absurd same (by decide)

end Sys2Proof.Machine
end

section
/-! PROOFS. Sensor ports (chapter 03): packets and frames, the start of a link and its deskew burst, the windows of trigger records, and
the grains that wait at a port. -/

namespace Sys2Proof.Machine

/-! ### Packets (R84, R88, R89, R95, R99, R100) -/

section
variable {s : Dev} {n : Nat} (take : Dev → Dev)

/-- Before the deskew burst a port counts what arrives and does nothing else. -/
theorem packetIn_of_needsDeskew (hl : s.portListens n = true) (hd : s.needsDeskew n = true) :
    s.packetIn n take = s.bump Reg.SPORT_STAT.unmatched n := by
  simp [Dev.packetIn, hl, hd]

/-- After it, or where none is awaited, the port takes what arrives. -/
theorem packetIn_of_ready (hl : s.portListens n = true) (hd : s.needsDeskew n = false) : s.packetIn n take = take s := by
  simp [Dev.packetIn, hl, hd]

end

/-- PART_PORTS lies at other addresses than the counters of ports. -/
theorem portOwner_bump_overrun (s : Dev) (n m : Nat) : (s.bump Reg.SPORT_STAT.overrun n).portOwner m = s.portOwner m := by
  have ports : ∀ p, (s.bump Reg.SPORT_STAT.overrun n).fld Reg.PART_PORTS.ports p = s.fld Reg.PART_PORTS.ports p := by
    intro p
    refine fld_setF_word _ _ _ _ _ _ _ _ _ _ ?_
    simp only [Reg.Fld.addr, Reg.PART_PORTS.ports, Reg.SPORT_STAT.overrun]
    omega
  simp only [Dev.portOwner, ports]

section
variable {s : Dev} {n st : Nat} {p : LongPacket} (hl : s.portListens n = true) (hd : s.needsDeskew n = false)
include hl hd

theorem longPacket_of_ok (hr : s.portRuns n = true) (hh : p.hdr = .ok) (hm : s.matchStream n p.vc.val p.dt.toNat = some st) :
    s.longPacket n p = s.streamPacket n st p := by
  simp [Dev.longPacket, packetIn_of_ready _ hl hd, hh, hm, hr]

theorem longPacket_of_corrected (hr : s.portRuns n = true) (hh : p.hdr = .corrected)
    (hm : (s.bump Reg.SPORT_STAT.hdr_corrected n).matchStream n p.vc.val p.dt.toNat = some st) :
    s.longPacket n p = (s.bump Reg.SPORT_STAT.hdr_corrected n).streamPacket n st p := by
  simp [Dev.longPacket, packetIn_of_ready _ hl hd, hh, hm, hr]

theorem longPacket_of_unmatched (hh : p.hdr = .ok) (hm : s.matchStream n p.vc.val p.dt.toNat = none) :
    s.longPacket n p = s.bump Reg.SPORT_STAT.unmatched n := by
  simp [Dev.longPacket, packetIn_of_ready _ hl hd, hh, hm]

theorem longPacket_of_uncorrectable (hh : p.hdr = .uncorrectable) (ho : p.overrun = false) :
    s.longPacket n p = s.countAnd Reg.SPORT_STAT.hdr_uncorrectable n 0 1 1 n (s.portOwner n) 0 0 := by
  simp [Dev.longPacket, packetIn_of_ready _ hl hd, hh, ho]

theorem longPacket_of_uncorrectable_overrun (hh : p.hdr = .uncorrectable) (ho : p.overrun = true) :
    s.longPacket n p = (s.bump Reg.SPORT_STAT.overrun n).countAnd Reg.SPORT_STAT.hdr_uncorrectable n 0 1 1 n
      ((s.bump Reg.SPORT_STAT.overrun n).portOwner n) 0 0 := by
  simp [Dev.longPacket, packetIn_of_ready _ hl hd, hh, ho, portOwner_bump_overrun]

/-! ### Frames (R97) -/

theorem frameStart_of_framed (vc : Nat) (hf : (s.cfg 1 n).fld Reg.SPORT_CTRL.framing n < 2) :
    s.frameStart n vc = s.setPort n { s.port n with
      frames := (s.port n).frames.filter (fun f => f.1 != vc) ++ [(vc, s.now)] } :=
  (packetIn_of_ready _ hl hd).trans (if_pos hf)

theorem frameEnd_of_framed (vc : Nat) (hf : (s.cfg 1 n).fld Reg.SPORT_CTRL.framing n < 2) : s.frameEnd n vc = s.endFrame n vc :=
  (packetIn_of_ready _ hl hd).trans (if_pos hf)

end

section
variable {s : Dev} {n vc : Nat}

/-- In framing per trigger the end of a frame also closes what the streams of its channel have open. -/
theorem endFrame_per_trigger (hf : (s.cfg 1 n).fld Reg.SPORT_CTRL.framing n = 0) (hr : s.portRuns n = true) :
    s.endFrame n vc = (s.setPort n { s.port n with frames := (s.port n).frames.filter (fun f => f.1 != vc) }).closeFrame n vc := by
  simp [Dev.endFrame, hf, hr]

theorem endFrame_per_line (hf : (s.cfg 1 n).fld Reg.SPORT_CTRL.framing n = 1) :
    s.endFrame n vc = s.setPort n { s.port n with frames := (s.port n).frames.filter (fun f => f.1 != vc) } := by
  simp [Dev.endFrame, hf]

theorem frameTimeout_of_open {f : Nat × Nat} (hl : s.portListens n = true) (hf : (s.port n).frames.find? (fun f => f.1 == vc) = some f) :
    s.frameTimeout n vc =
      ((s.reach (f.2 + (s.cfg 1 n).fld Reg.SPORT_TIMING.frame_timeout n * 1024 * Config.xcPs)).endFrame n vc).countAnd
        Reg.SPORT_STAT2.frame_timeouts n 0 1 1 n (s.portOwner n) 0 0 := by
  simp [Dev.frameTimeout, hf, hl]

end

theorem portFraming : Claim.PortFraming := by
  intro s n vc
  refine ⟨fun hl hd => ?_, fun hl hd => ?_, fun f hl hf => ?_⟩
  · have counted : ∀ take, s.dev.packetIn n.val take = s.dev.bump Reg.SPORT_STAT.unmatched n.val :=
      fun take => packetIn_of_needsDeskew take hl hd
    exact ⟨fun p => yields_of_run (·.longPacket n.val p) rfl (counted _), yields_of_run (·.frameStart n.val vc.val) rfl (counted _),
      yields_of_run (·.frameEnd n.val vc.val) rfl (counted _), fun _ => yields_of_run (·.packetIn n.val id) rfl (counted _)⟩
  · refine ⟨fun p st hr => ⟨fun hh hm => ?_, fun hh hm => ?_⟩, fun p hh hm => ?_, fun p hh => ⟨fun ho => ?_, fun ho => ?_⟩,
      fun hf => ?_, ⟨fun hf hr => ?_, fun hf => ?_⟩, fun _ => ?_⟩
    · exact yields_of_run (·.longPacket n.val p) rfl (longPacket_of_ok hl hd hr hh hm)
    · exact yields_of_run (·.longPacket n.val p) rfl (longPacket_of_corrected hl hd hr hh hm)
    · exact yields_of_run (·.longPacket n.val p) rfl (longPacket_of_unmatched hl hd hh hm)
    · exact yields_of_run (·.longPacket n.val p) rfl (longPacket_of_uncorrectable hl hd hh ho)
    · exact yields_of_run (·.longPacket n.val p) rfl (longPacket_of_uncorrectable_overrun hl hd hh ho)
    · exact yields_of_run (·.frameStart n.val vc.val) rfl (frameStart_of_framed hl hd vc.val hf)
    · exact yields_of_run (·.frameEnd n.val vc.val) rfl
        ((frameEnd_of_framed hl hd vc.val (by omega)).trans (endFrame_per_trigger hf hr))
    · exact yields_of_run (·.frameEnd n.val vc.val) rfl ((frameEnd_of_framed hl hd vc.val (by omega)).trans (endFrame_per_line hf))
    · exact yields_of_run (·.packetIn n.val id) rfl (packetIn_of_ready id hl hd)
  · exact yields_of_run (·.frameTimeout n.val vc.val) rfl (frameTimeout_of_open hl hf)

/-! ### The start of a link and its deskew burst (R88, R413–R416) -/

theorem portLinkStart : Claim.PortLinkStart := by
  refine ⟨fun s n => ?_, fun s n skew hl hp => ?_⟩
  · refine ⟨_, rfl, rfl, rfl, ?_, rfl, rfl, fun k hk => Dev.setPort_other _ _ _ _ hk⟩
    exact congrArg PortRec.deskewed (Dev.setPort_same s.dev n.val _)
  · intro b r len base skews
    have runs : exec (.deskewBurst n skew) s = s.run (fun d => d.deskew n.val (skew.map (fun x => x.toNat))) := rfl
    refine yields_of_run _ runs ?_
    simp [Dev.deskew, hl, hp, Function.comp_def, b, r, len, base, skews]

/-! ### The windows of trigger records (R95, R96) and waiting grains (R481) -/

section
variable {s : Dev} {n st : Nat}

theorem windowClose_of_running {r : TrigRec} (hr : s.portRuns n = true)
    (hf : (s.stream (4 * n + st)).recs.find? (fun r => r.received == 0) = some r) :
    s.windowClose n st =
      (s.reach (r.pinAt + ((s.cfg 1 n).fld Reg.SPORT_TIMING.first_max n + 1) * Config.xcPs)).closeTrig n st r := by
  simp [Dev.windowClose, hf, hr]

theorem interLineTimeout_of_running {r : TrigRec} (hr : s.portRuns n = true)
    (hf : (s.stream (4 * n + st)).recs.find? (fun r => r.received != 0) = some r) :
    s.interLineTimeout n st =
      (s.reach (r.lastAt + ((s.cfg 1 n).fld Reg.SPORT_TIMING.inter_line n + 1) * Config.xcPs)).closeTrig n st r := by
  simp [Dev.interLineTimeout, hf, hr]

/-- The oldest waiting grain is written, and then those behind it. -/
theorem portFlush_succ {e : Cell × Bool} {rest : List (Cell × Bool)} (k : Nat) (he : (s.stream (4 * n + st)).store = e :: rest)
    (hw : s.qWaits 64 (s.streamQ n st) = false) :
    s.portFlush n st (k + 1) =
      ((s.modStream n st (fun r => { r with store := rest })).qWrite (s.streamQ n st) e.1).portFlush n st k := by
  simp [Dev.portFlush, he, hw]

end

theorem portWindows : Claim.PortWindows := by
  refine fun s n st => ⟨fun r hr hf => ?_, fun r hr hf => ?_, fun e rest he hr hw => ?_⟩
  · exact yields_of_run (·.windowClose n.val st.val) rfl (windowClose_of_running hr hf)
  · exact yields_of_run (·.interLineTimeout n.val st.val) rfl (interLineTimeout_of_running hr hf)
  · refine yields_of_run (fun d => if d.portRuns n.val then
      d.portFlush n.val st.val (d.stream (4 * n.val + st.val)).store.length else d) rfl ?_
    rw [if_pos hr, he, List.length_cons]
    exact portFlush_succ rest.length he hw

/-- Settles O10: packets by the cases of `packetIn` and `longPacket`, frames by those of `endFrame`, windows by those of their operations. -/
theorem sensorPorts : Obligations.SensorPorts := ⟨portFraming, portLinkStart, portWindows⟩

end Sys2Proof.Machine
end

section
/-! PROOFS. The frame of the queue fabric: what a queue write and a completion record (chapters 02 and 14) leave unchanged, said once for
every operation on the way. -/

namespace Sys2Proof.Machine

/-- The device `t` differs from `s` as operations of the queue fabric may make it differ: in registers, queue memory, queues, twin digests,
breakpoints and halted islands, and in what an event changes. The records of the units stay. -/
structure FabricEffect (s t : Dev) : Prop where
  frame : t = { s with
    regs := t.regs, mem := t.mem, slotErrs := t.slotErrs, tb := t.tb, evtSrcs := t.evtSrcs, alarmUntil := t.alarmUntil
    parts := t.parts, flanks := t.flanks, chain := t.chain, queues := t.queues, twin := t.twin, breaks := t.breaks, halted := t.halted }

namespace FabricEffect

variable {s t u : Dev}

theorem refl (s : Dev) : FabricEffect s s := ⟨rfl⟩

theorem trans (h : FabricEffect s t) (g : FabricEffect t u) : FabricEffect s u where
  frame := g.frame.trans (congrArg (fun x : Dev => { x with
    regs := u.regs, mem := u.mem, slotErrs := u.slotErrs, tb := u.tb, evtSrcs := u.evtSrcs, alarmUntil := u.alarmUntil
    parts := u.parts, flanks := u.flanks, chain := u.chain, queues := u.queues, twin := u.twin, breaks := u.breaks
    halted := u.halted }) h.frame)

theorem ccis_eq (h : FabricEffect s t) : t.ccis = s.ccis := (congrArg Dev.ccis h.frame :)

theorem of_event {e : Event} (h : EventEffect e s t) : FabricEffect s t where
  frame := h.frame.trans (by rw [h.queues_eq, h.halted_eq, congrArg Dev.twin h.frame, congrArg Dev.breaks h.frame])

/-- A walk whose every step the fabric may make. -/
theorem foldl {α : Type} (h : FabricEffect s t) (f : Dev → α → Dev) (l : List α) (hf : ∀ d x, FabricEffect d (f d x)) :
    FabricEffect s (l.foldl f t) :=
  List.foldlRecOn l f h fun d hd x _ => hd.trans (hf d x)

/-! What the parts of a queue operation may do after what it did before. -/

theorem setF (h : FabricEffect s t) (f : Reg.Fld) (v i j k : Nat) : FabricEffect s (t.setF f v i j k) := h.trans ⟨rfl⟩

theorem bump (h : FabricEffect s t) (f : Reg.Fld) (i j k n : Nat) : FabricEffect s (t.bump f i j k n) := h.trans ⟨rfl⟩

theorem setQueue (h : FabricEffect s t) (q : Nat) (r : QRec) : FabricEffect s (t.setQueue q r) := h.trans ⟨rfl⟩

theorem setPart (h : FabricEffect s t) (p : Nat) (r : PartRec) : FabricEffect s (t.setPart p r) := h.trans ⟨rfl⟩

theorem setBreakAt (h : FabricEffect s t) (i : Nat) (r : BreakRec) : FabricEffect s (t.setBreakAt i r) := h.trans ⟨rfl⟩

theorem stamped (h : FabricEffect s t) : FabricEffect s t.stamped := h.trans ⟨rfl⟩

theorem writeSlot (h : FabricEffect s t) (slot : Nat) (c : Cell) : FabricEffect s (t.writeSlot slot c) := h.trans ⟨rfl⟩

theorem haltIslands (h : FabricEffect s t) (is : List Nat) : FabricEffect s (t.haltIslands is) := h.trans ⟨rfl⟩

theorem setTwin (h : FabricEffect s t) (r : TwinRec) : FabricEffect s { t with twin := r } := h.trans ⟨rfl⟩

theorem raise (h : FabricEffect s t) (e : Event) : FabricEffect s (t.raise e) := h.trans (of_event (raise_effect t e))

theorem log (h : FabricEffect s t) (kind inst owner detail witness wbit : Nat) :
    FabricEffect s (t.log kind inst owner detail witness wbit) := h.raise _

theorem alarm (h : FabricEffect s t) (kind cond inst owner detail witness wbit : Nat) :
    FabricEffect s (t.alarm kind cond inst owner detail witness wbit) := h.raise _

theorem countAnd (h : FabricEffect s t) (f : Reg.Fld) (i j cls kind inst owner cond detail : Nat) :
    FabricEffect s (t.countAnd f i j cls kind inst owner cond detail) := (h.bump f i j 0 1).raise _

theorem notice (h : FabricEffect s t) (p c : Nat) (detail : BitVec 64) : FabricEffect s (t.notice p c detail) :=
  h.trans (of_event (EventEffect.notice (e := ⟨0, 0, 0, p, 0, 0, 0, 0⟩) (.refl _ t) c detail))

/-! ### Pacing and breakpoints (R56, R353, R441) -/

theorem watches (h : FabricEffect s t) (p q : Nat) : FabricEffect s (t.watches p q) := by
  refine h.foldl _ _ fun d k => ?_
  split
  · exact (refl d).notice _ _ _
  · exact refl d

theorem pace (h : FabricEffect s t) (q : Nat) : FabricEffect s (t.pace q) := by
  unfold Dev.pace
  split_ifs
  · exact h
  · exact (h.setF _ _ _ _ _).watches _ _
  · exact h.setF _ _ _ _ _
  · exact h

theorem breakHit (h : FabricEffect s t) (onRead : Bool) (q ptr i : Nat) : FabricEffect s (t.breakHit onRead q ptr i) := by
  unfold Dev.breakHit
  extract_lets isl r a
  have ha : FabricEffect s a := (((h.setBreakAt _ _).setF _ _ _ _ _).setF _ _ _ _ _).setF _ _ _ _ _
  exact (ha.haltIslands _).log _ _ _ _ _ _

theorem breakCheck (h : FabricEffect s t) (onRead : Bool) (q ptr : Nat) (c : Cell) : FabricEffect s (t.breakCheck onRead q ptr c) := by
  unfold Dev.breakCheck
  split
  · exact h
  · refine h.foldl _ _ fun d i => ?_
    split
    · exact (refl d).breakHit _ _ _ _
    · exact refl d

/-! ### Twin digests (R388–R391) -/

theorem flagDivergent (h : FabricEffect s t) (d : Digest) : FabricEffect s (t.flagDivergent d) := by
  unfold Dev.flagDivergent
  split
  · exact h
  · dsimp only
    split
    · exact h
    · exact h.writeSlot _ _

theorem compareDigests (h : FabricEffect s t) (own twin : Digest) : FabricEffect s (t.compareDigests own twin) := by
  unfold Dev.compareDigests
  dsimp only
  split
  · exact h.bump _ _ _ _ _
  · split
    · exact h
    · refine flagDivergent ?_ own
      split
      · exact h.countAnd _ _ _ _ _ _ _ _ _
      · exact h.countAnd _ _ _ _ _ _ _ _ _

theorem ownDigest (h : FabricEffect s t) (d : Digest) : FabricEffect s (t.ownDigest d) := by
  unfold Dev.ownDigest
  split
  · exact h.setTwin _
  · exact (h.setTwin _).compareDigests _ _

theorem digestLine (h : FabricEffect s t) (q ptr : Nat) (cells : List Cell) : FabricEffect s (t.digestLine q ptr cells) := by
  unfold Dev.digestLine
  split
  · exact (h.setTwin _).ownDigest _
  · exact h

theorem digestGrain (h : FabricEffect s t) (q ptr : Nat) (c : Cell) : FabricEffect s (t.digestGrain q ptr c) := by
  unfold Dev.digestGrain
  dsimp only
  split_ifs
  · exact h.setQueue _ _
  · exact (h.setQueue _ _).digestLine _ _ _
  · exact h.setQueue _ _
  · exact h
  · exact (h.setQueue _ _).digestLine _ _ _
  · exact h.setQueue _ _
  · exact h

/-! ### One producer write at a queue (R57–R66) -/

theorem qStore (h : FabricEffect s t) (q : Nat) (c : Cell) : FabricEffect s (t.qStore q c) := by
  unfold Dev.qStore
  extract_lets w w' r code openLine lc a b e d
  have hb : FabricEffect s b := ((h.writeSlot _ _).setF _ _ _ _ _).setQueue _ _
  have hd : FabricEffect s d := by
    dsimp only [d]
    split
    · have he : FabricEffect s e := hb.setF _ _ _ _ _
      split_ifs
      · exact he.digestGrain _ _ _
      · exact he.digestLine _ _ _
      · exact he
    · exact hb
  exact (hd.pace q).breakCheck _ _ _ _

theorem qDrop (h : FabricEffect s t) (q : Nat) : FabricEffect s (t.qDrop q) := (h.setF _ _ _ _ _).setQueue _ _

theorem qFailLine (h : FabricEffect s t) (q cause : Nat) : FabricEffect s (t.qFailLine q cause).dev := by
  unfold Dev.qFailLine
  split
  · exact h.qDrop q
  · exact (h.qDrop q).qStore _ _

theorem qStoreChecked (h : FabricEffect s t) (q : Nat) (c : Cell) : FabricEffect s (t.qStoreChecked q c).dev := by
  unfold Dev.qStoreChecked
  dsimp only
  split
  · exact (((h.qStore q c).qFailLine q _).setQueue _ _).alarm _ _ _ _ _ _ _
  · exact h.qStore q c

theorem countTapDrop (h : FabricEffect s t) (q : Nat) (via : Option Nat) : FabricEffect s (t.countTapDrop q via) := by
  unfold Dev.countTapDrop
  cases via with
  | none => exact h.bump _ _ _ _ _
  | some tap => exact (h.bump _ _ _ _ _).bump _ _ _ _ _

theorem qLossyDrop (h : FabricEffect s t) (q : Nat) (c : Cell) (via : Option Nat) : FabricEffect s (t.qLossyDrop q c via).dev := by
  unfold Dev.qLossyDrop
  extract_lets code p r idx a
  have ha : FabricEffect s a := (h.qDrop q).setQueue _ _
  split_ifs <;> dsimp only
  · exact (h.setQueue _ _).countAnd _ _ _ _ _ _ _ _ _
  · exact h.countAnd _ _ _ _ _ _ _ _ _
  · exact (h.countTapDrop _ _).log _ _ _ _ _ _
  · exact (ha.countTapDrop _ _).log _ _ _ _ _ _

theorem qHold (h : FabricEffect s t) (q : Nat) (c : Cell) : FabricEffect s (t.qHold q c) := h.setQueue _ _

theorem qAdmit (h : FabricEffect s t) (q : Nat) (c : Cell) (via : Option Nat) : FabricEffect s (t.qAdmit q c via).dev := by
  unfold Dev.qAdmit
  extract_lets code o a o2
  have ha : FabricEffect s a := by
    dsimp only [a]
    split
    · exact h.qFailLine q _
    · exact (h.qFailLine q _).log _ _ _ _ _ _
  split_ifs
  · exact h.qLossyDrop _ _ _
  · exact ha.qHold _ _
  · exact ha.qStoreChecked _ _
  · exact h.qHold _ _
  · exact h.qStoreChecked _ _

theorem qStep (h : FabricEffect s t) (q : Nat) (c : Cell) (via : Option Nat) : FabricEffect s (t.qStep q c via).dev := by
  unfold Dev.qStep
  extract_lets code r free
  have hf : FabricEffect s free := h.setQueue _ _
  split
  · exact h.bump _ _ _ _ _
  · split
    · exact h.qAdmit _ _ _
    · split_ifs
      · exact hf
      · exact hf.qAdmit _ _ _
      · exact h
    · split_ifs
      · exact hf.qAdmit _ _ _
      · exact h.countTapDrop _ _
      · exact h

/-! ### Taps (R236, R237) -/

theorem tapCount (h : FabricEffect s t) (before : Dev) (tap tq : Nat) (g : Cell) : FabricEffect s (before.tapCount t tap tq g) := by
  unfold Dev.tapCount
  dsimp only
  split
  · exact h.bump _ _ _ _ _
  · exact h

theorem tapDrop (h : FabricEffect s t) (fuel q : Nat) : FabricEffect s (t.tapDrop fuel q) := by
  induction fuel generalizing t q with
  | zero => exact h
  | succ fuel ih =>
    unfold Dev.tapDrop
    extract_lets a r b
    have ha : FabricEffect s a := by
      dsimp only [a]
      split
      · exact h.qDrop q
      · exact h
    have hb : FabricEffect s b := ha.setQueue _ _
    split
    · exact hb
    · exact ih hb _

theorem qFlow (h : FabricEffect s t) (fuel q : Nat) (c : Cell) (via : Option Nat) : FabricEffect s (t.qFlow fuel q c via).1 := by
  induction fuel generalizing s t q c via with
  | zero => exact h
  | succ fuel ih =>
    unfold Dev.qFlow
    dsimp only
    split
    · exact h.qStep q c via
    · next tap _ =>
      refine (h.qStep q c via).foldl _ _ fun d act => ?_
      cases act with
      | discard => exact (refl d).tapDrop _ _
      | copy g own =>
        dsimp only
        refine foldl (setQueue ?_ _ _) _ _ fun d x => ?_
        · have ha := (refl d).setQueue tap.2 { d.queue tap.2 with tapGram := (tapGrammar (d.queue tap.2).tapGram g).1 }
          split_ifs
          · exact (ha.tapDrop _ _).log _ _ _ _ _ _
          · exact ha.log _ _ _ _ _ _
          · exact ha.tapDrop _ _
          · exact ha
        · split
          · exact (refl d).setQueue _ _
          · exact (ih (refl d) _ _ _).tapCount _ _ _ _

/-! ### Completion records (R365, R366) -/

theorem putRecord (h : FabricEffect s t) (p : Nat) (c : CompRec) : FabricEffect s (t.putRecord p c) := by
  unfold Dev.putRecord
  extract_lets q cells a r b st detail
  have ha : FabricEffect s a := h.stamped.foldl _ _ fun d x => by
    split
    · exact (refl d).qHold _ _
    · exact (refl d).qFlow _ _ _ _
  have hb : FabricEffect s b := (ha.setPart _ _).bump _ _ _ _ _
  split_ifs
  · exact hb.notice _ _ _
  · exact hb.notice _ _ _
  · exact hb

theorem cqStall (h : FabricEffect s t) (p : Nat) : FabricEffect s (t.cqStall p) := by
  unfold Dev.cqStall
  split
  · exact h
  · exact ((h.setPart _ _).countAnd _ _ _ _ _ _ _ _ _).notice _ _ _

theorem complete (h : FabricEffect s t) (p : Nat) (r : CompRec) : FabricEffect s (t.complete p r) := by
  unfold Dev.complete
  dsimp only
  split_ifs
  · exact h
  · exact h.putRecord _ _
  · exact (h.setPart _ _).cqStall _
  · exact h.setPart _ _

end FabricEffect

end Sys2Proof.Machine
end

section
/-! PROOFS. The control bus of a port and its exposure slots (chapter 03). -/

namespace Sys2Proof.Machine

/-! ### Direct commands, transactions and stretch timeouts (R102, R104, R105, R108) -/

section
variable {s : Dev} {n : Nat}

/-- The device once the transaction in progress has ended: its bus is free. -/
def Dev.cciFreed (s : Dev) (n : Nat) : Dev := s.modCci n (fun r => { r with job := .idle, lastBusy := s.now })

/-- The device once the transaction in progress is abandoned. -/
def Dev.cciLeft (s : Dev) (n : Nat) : Dev := s.modCci n (fun r => { r with job := .abandoned s.now, lastBusy := s.now })

theorem cciGo_of_clear (hg : s.flag Reg.SPORT_CCI_CMD.go n = false) :
    s.cciGo n = (((s.setF Reg.SPORT_CCI_CMD.go 1 n).setF Reg.SPORT_CCI_CMD.status 1 n).modCci n
      (fun r => { r with directWaiting := true })).cciNext n := by
  simp [Dev.cciGo, hg]

theorem transactionEnd_of_direct_read (d : BitVec 32) (hj : (s.cci n).job = .direct) (hr : s.flag Reg.SPORT_CCI_CMD.read n = true) :
    s.transactionEnd n true d =
      (((s.cciFreed n).setF Reg.SPORT_CCI_DATA.data (d.toNat % 2 ^ (8 * (s.fld Reg.SPORT_CCI_CMD.bytes n + 1))) n).directEnd n 0).cciNext
        n := by
  simp [Dev.transactionEnd, Dev.cciFreed, hj, hr]

theorem transactionEnd_of_direct_write (d : BitVec 32) (hj : (s.cci n).job = .direct) (hr : s.flag Reg.SPORT_CCI_CMD.read n = false) :
    s.transactionEnd n true d = ((s.cciFreed n).directEnd n 0).cciNext n := by
  simp [Dev.transactionEnd, Dev.cciFreed, hj, hr]

theorem transactionEnd_of_direct_nack (d : BitVec 32) (hj : (s.cci n).job = .direct) :
    s.transactionEnd n false d = ((s.cciFreed n).directEnd n 2).cciNext n := by
  simp [Dev.transactionEnd, Dev.cciFreed, hj]

theorem transactionEnd_of_set (ok : Bool) (d : BitVec 32) {k : Nat} (hj : (s.cci n).job = .set k) (he : (s.exp n k).ending = none) :
    s.transactionEnd n ok d = ((s.cciFreed n).expStep n k ok d).cciNext n := by
  simp [Dev.transactionEnd, Dev.cciFreed, hj, he]

theorem transactionEnd_of_ending (ok : Bool) (d : BitVec 32) {k cause : Nat} (hj : (s.cci n).job = .set k)
    (he : (s.exp n k).ending = some cause) :
    s.transactionEnd n ok d =
      ((s.cciFreed n).abortSet n k cause ((s.exp n k).next + if s.expPasses n k ok d then 1 else 0) s.now).cciNext n := by
  simp [Dev.transactionEnd, Dev.cciFreed, hj, he]

theorem transactionEnd_of_abandoned (ok : Bool) (d : BitVec 32) {t : Nat} (hj : (s.cci n).job = .abandoned t) :
    s.transactionEnd n ok d =
      (((s.cciFreed n).cciWaitersFail n (fun t => decide (t + s.stretchLimit n < s.now))).cciWaitOver n).cciNext n := by
  simp [Dev.transactionEnd, Dev.cciFreed, hj]

section
variable (hm : (s.cfg 1 n).flag Reg.SPORT_CCI_CFG.mode n = false)
include hm

theorem stretchTimeout_of_direct (hj : (s.cci n).job = .direct) :
    s.stretchTimeout n = ((s.cciLeft n).directEnd n 3).cciNext n := by
  simp [Dev.stretchTimeout, Dev.cciLeft, hm, hj]

theorem stretchTimeout_of_set {k : Nat} (hj : (s.cci n).job = .set k) (he : (s.exp n k).ending = none) :
    s.stretchTimeout n = ((s.cciLeft n).endSet n k stFailed caBusTimeout 0 0).cciNext n := by
  simp [Dev.stretchTimeout, Dev.cciLeft, hm, hj, he]

theorem stretchTimeout_of_ending {k cause : Nat} (hj : (s.cci n).job = .set k) (he : (s.exp n k).ending = some cause) :
    s.stretchTimeout n = ((s.cciLeft n).abortSet n k cause (s.exp n k).next s.now).cciNext n := by
  simp [Dev.stretchTimeout, Dev.cciLeft, hm, hj, he]

theorem stretchTimeout_of_abandoned {t0 t : Nat} (hj : (s.cci n).job = .abandoned t0) (ht : (s.cciDues n).min? = some t) :
    s.stretchTimeout n =
      ((s.reach (t + s.stretchLimit n)).cciWaitersFail n
        (fun x => decide (x + s.stretchLimit n ≤ (s.reach (t + s.stretchLimit n)).now))).cciNext n := by
  simp [Dev.stretchTimeout, hm, hj, ht]

end

/-! ### Active masters and listeners (R103, R109) -/

theorem cciTakeover_of_listener (ha : s.cciActive n = false) :
    s.cciTakeover n = (s.setF Reg.SPORT_CCI_CFG.takeover 1 n).modCci n (fun r => { r with activeWait := some s.now }) := by
  simp [Dev.cciTakeover, ha]

theorem idleWaitEnd_of_waiting {t : Nat} (hw : (s.cci n).activeWait = some t) :
    s.idleWaitEnd n = ((((s.reach (max t (s.cci n).lastBusy + 100 * Config.usPs)).setF Reg.SPORT_CCI_CFG.role 0 n).setF
      Reg.SPORT_CCI_CFG.takeover 0 n).modCci n (fun r => { r with activeWait := none })).cciNext n := by
  simp [Dev.idleWaitEnd, hw]

/-- A listener's device once it has seen a transaction on the bus. -/
def Dev.cciSeen (s : Dev) (n : Nat) : Dev := s.modCci n (fun r => { r with lastBusy := s.now })

/-- The slot that a listener follows: the first, in the order of the sets, that has not finished. -/
def Dev.cciExpected (s : Dev) (n : Nat) : Option Nat := (s.expOrder n).find? (fun k => (s.exp n k).lastEnd.isNone)

/-- Is a transaction the next one of a set: of the same direction, register, length, and data where it writes? -/
def Dev.isNextOf (s : Dev) (n k : Nat) (tr : CciTrans) : Bool :=
  let t := (s.expPlan n k).getD (s.exp n k).next (0, false)
  let m := 2 ^ (8 * (s.fld Reg.SPORT_EXP_ENTRY.bytes n k t.1 + 1))
  tr.read == t.2 && s.cciAddr n tr.reg.toNat == s.cciAddr n (s.fld Reg.SPORT_EXP_ENTRY.reg_addr n k t.1)
    && tr.bytes.val == s.fld Reg.SPORT_EXP_ENTRY.bytes n k t.1
    && (t.2 || tr.data.toNat % m == s.fld Reg.SPORT_EXP_ENTRY.data n k t.1 % m)

theorem isNextOf_iff {k : Nat} {tr : CciTrans} :
    s.isNextOf n k tr = true ↔
      let t := (s.expPlan n k).getD (s.exp n k).next (0, false)
      let m := 2 ^ (8 * (s.fld Reg.SPORT_EXP_ENTRY.bytes n k t.1 + 1))
      tr.read = t.2 ∧ s.cciAddr n tr.reg.toNat = s.cciAddr n (s.fld Reg.SPORT_EXP_ENTRY.reg_addr n k t.1) ∧
        tr.bytes.val = s.fld Reg.SPORT_EXP_ENTRY.bytes n k t.1 ∧
        (t.2 = true ∨ tr.data.toNat % m = s.fld Reg.SPORT_EXP_ENTRY.data n k t.1 % m) := by
  simp [Dev.isNextOf, and_assoc]

/-- The device once a set that had not begun has. -/
def Dev.expBegun (s : Dev) (n k : Nat) : Dev := s.setExp n k { s.exp n k with phase := if s.groupHold n then 2 else 4 }

section
variable {tr : CciTrans} (ok : Bool) (d : BitVec 32) (ha : s.cciActive n = false)
include ha

theorem busObserved_of_unexpected (he : (s.cciSeen n).cciExpected n = none) :
    s.busObserved n tr ok d = (s.cciSeen n).alarm 1 2 n ((s.cciSeen n).portOwner n) := by
  unfold Dev.cciSeen Dev.cciExpected at *
  simp [Dev.busObserved, ha, he]

/-- The transaction is held against the set that the listener expects. -/
theorem busObserved_of_expected {k : Nat} (he : (s.cciSeen n).cciExpected n = some k) :
    s.busObserved n tr ok d =
      if (s.cciSeen n).isNextOf n k tr then
        (if ((s.cciSeen n).exp n k).phase = 1 then (s.cciSeen n).expBegun n k else s.cciSeen n).expStep n k ok d
      else (s.cciSeen n).alarm 1 2 n ((s.cciSeen n).portOwner n) := by
  unfold Dev.cciSeen Dev.cciExpected at he
  simp only [Dev.busObserved, ha, he, Bool.false_eq_true, if_false]
  rfl

variable {ok d} {k : Nat} (he : (s.cciSeen n).cciExpected n = some k)
include he

theorem busObserved_of_first (hn : (s.cciSeen n).isNextOf n k tr = true) (hp : ((s.cciSeen n).exp n k).phase = 1) :
    s.busObserved n tr ok d = ((s.cciSeen n).expBegun n k).expStep n k ok d := by
  rw [busObserved_of_expected ok d ha he, if_pos hn, if_pos hp]

theorem busObserved_of_next (hn : (s.cciSeen n).isNextOf n k tr = true) (hp : ((s.cciSeen n).exp n k).phase ≠ 1) :
    s.busObserved n tr ok d = (s.cciSeen n).expStep n k ok d := by
  rw [busObserved_of_expected ok d ha he, if_pos hn, if_neg hp]

theorem busObserved_of_other (hn : ¬ (s.cciSeen n).isNextOf n k tr = true) :
    s.busObserved n tr ok d = (s.cciSeen n).alarm 1 2 n ((s.cciSeen n).portOwner n) := by
  rw [busObserved_of_expected ok d ha he, if_neg hn]

end

end

theorem controlBus : Claim.ControlBus := by
  intro s n
  refine ⟨fun hg => ?_, fun d hj => ⟨fun hr => ?_, fun hr => ?_, ?_⟩, fun ok d k hj he => ?_, fun ok d k cause hj he => ?_,
    fun ok d t hj => ?_, fun hm => ⟨fun hj => ?_, fun k hj => ⟨fun he => ?_, fun cause he => ?_⟩, fun t0 t hj ht => ?_⟩,
    fun ha => ?_, fun ha => ?_, fun ha => ?_, fun t hw => ?_,
    fun tr ok d ha => ⟨fun he => ?_, fun k he => ⟨fun hn hp => ?_, fun hn hp => ?_, fun hn => ?_⟩⟩⟩
  · exact yields_of_run (·.cciGo n.val) rfl (cciGo_of_clear hg)
  · exact yields_of_run (·.transactionEnd n.val true d) rfl (transactionEnd_of_direct_read d hj hr)
  · exact yields_of_run (·.transactionEnd n.val true d) rfl (transactionEnd_of_direct_write d hj hr)
  · exact yields_of_run (·.transactionEnd n.val false d) rfl (transactionEnd_of_direct_nack d hj)
  · exact yields_of_run (·.transactionEnd n.val ok d) rfl (transactionEnd_of_set ok d hj he)
  · exact yields_of_run (·.transactionEnd n.val ok d) rfl (transactionEnd_of_ending ok d hj he)
  · exact yields_of_run (·.transactionEnd n.val ok d) rfl (transactionEnd_of_abandoned ok d hj)
  · exact yields_of_run (·.stretchTimeout n.val) rfl (stretchTimeout_of_direct hm hj)
  · exact yields_of_run (·.stretchTimeout n.val) rfl (stretchTimeout_of_set hm hj he)
  · exact yields_of_run (·.stretchTimeout n.val) rfl (stretchTimeout_of_ending hm hj he)
  · exact yields_of_run (·.stretchTimeout n.val) rfl (stretchTimeout_of_abandoned hm hj ht)
  · exact yields_of_run (·.cciTakeover n.val) rfl (cciTakeover_of_listener ha)
  · exact yields_of_run (fun d => if d.cciActive n.val then d.setF Reg.SPORT_CCI_CFG.role 1 n.val else d) rfl (if_pos ha)
  · exact yields_of_run (fun d => if d.cciActive n.val then d.setF Reg.SPORT_CCI_CFG.role 1 n.val else d) rfl (if_neg (by simp [ha]))
  · exact yields_of_run (·.idleWaitEnd n.val) rfl (idleWaitEnd_of_waiting hw)
  · exact yields_of_run (·.busObserved n.val tr ok d) rfl (busObserved_of_unexpected ok d ha he)
  · exact yields_of_run (·.busObserved n.val tr ok d) rfl (busObserved_of_first ha he (isNextOf_iff.2 hn) hp)
  · exact yields_of_run (·.busObserved n.val tr ok d) rfl (busObserved_of_next ha he (isNextOf_iff.2 hn) hp)
  · exact yields_of_run (·.busObserved n.val tr ok d) rfl (busObserved_of_other ha he (mt isNextOf_iff.1 hn))

/-! ### Staged sets (R105, R110) -/

section
variable {s t : Dev} {n k : Nat}

/-- The staged sets of a port are in its master's record. -/
theorem exp_of_ccis_eq (h : t.ccis = s.ccis) : t.exp n k = s.exp n k := by
  simp only [Dev.exp, Dev.cci, h]

theorem exp_setExp (e : ExpRec) : (s.setExp n k e).exp n k = ((s.cci n).slots.set k e).getD k .init :=
  congrArg (fun r : CciRec => r.slots.getD k .init) (Dev.setCci_same s n { s.cci n with slots := (s.cci n).slots.set k e })

/-- A set staged in one of the slots that there are reads back. -/
theorem exp_setExp_same (e : ExpRec) (hk : k < (s.cci n).slots.length) : (s.setExp n k e).exp n k = e := by
  simp [exp_setExp, hk]

/-- An emptied slot is empty, and so is one that there is not. -/
theorem exp_setExp_init : (s.setExp n k .init).exp n k = .init := by
  rw [exp_setExp, List.getD_eq_getElem?_getD, List.getElem?_set_self']
  cases (s.cci n).slots[k]? <;> rfl

/-- Only a slot that there is can be armed. -/
theorem slot_lt_of_armed (h : (s.exp n k).phase ≠ 0) : k < (s.cci n).slots.length := by
  by_contra hk
  exact h (by simp [Dev.exp, Nat.le_of_not_lt hk, ExpRec.init])

/-- What ends a set empties its slot, and then does nothing more to the masters. -/
theorem exp_endSet (status cause idx gen : Nat) : (s.endSet n k status cause idx gen).exp n k = .init := by
  unfold Dev.endSet
  extract_lets p commit a b d e
  refine (exp_of_ccis_eq (FabricEffect.ccis_eq ?_)).trans (exp_setExp_init (s := s))
  have ha : FabricEffect (s.setExp n k .init) a := ((FabricEffect.refl _).setF _ _ _ _ _).setF _ _ _ _ _
  have hb : FabricEffect (s.setExp n k .init) b := ha.setF _ _ _ _ _
  have hd : FabricEffect (s.setExp n k .init) d := by
    dsimp only [d]
    split
    · exact hb.setF _ _ _ _ _
    · exact hb
  have he : FabricEffect (s.setExp n k .init) e := by
    dsimp only [e]
    split
    · exact hd.alarm _ _ _ _ _ _ _
    · exact hd
  exact (he.complete _ _).notice _ _ _

theorem exp_abortSet (cause done at_ : Nat) : (s.abortSet n k cause done at_).exp n k = .init := exp_endSet _ _ _ _

theorem expArm_of_well_formed (hp : (s.exp n k).phase = 0) (hw : s.expWellFormed n k = true)
    (hc : (List.range 4).any (fun j => j != k && (s.exp n j).phase != 0 && s.expIndex n j == s.expIndex n k) = false) :
    s.expArm n k = (((s.setF Reg.SPORT_EXP_SLOT.arm 1 n k).setF Reg.SPORT_EXP_SLOT.result 0 n k).setExp n k
      { ExpRec.init with phase := 1 }).cciNext n := by
  unfold Dev.expArm
  rw [if_neg (not_not.2 hp), if_neg (by rw [hw, hc]; decide)]

theorem expArm_refused (hp : (s.exp n k).phase = 0) (h : s.expWellFormed n k = false ∨
      (List.range 4).any (fun j => j != k && (s.exp n j).phase != 0 && s.expIndex n j == s.expIndex n k) = true) :
    s.expArm n k = (s.setF Reg.SPORT_EXP_SLOT.result 4 n k).logAt Reg.SPORT_EXP_SLOT.result n k 1 n (s.portOwner n) (s.expIndex n k) := by
  unfold Dev.expArm
  rw [if_neg (not_not.2 hp), if_pos (h.imp_left (by simp))]

section
variable (hp : (s.exp n k).phase ≠ 0) (hl : (s.exp n k).phase ≠ 4)
include hp hl

/-- A set without a transaction on the bus ends at once; its empty slot has nothing left to end. -/
theorem expCancel_off_bus (hj : (s.cci n).job ≠ .set k) :
    s.expCancel n k =
      (s.abortSet n k caCancelled (s.exp n k).next ((s.exp n k).lastEnd.getD (s.cci n).lastBusy)).cciNext n := by
  have ends : s.expAbort n k caCancelled false =
      s.abortSet n k caCancelled (s.exp n k).next ((s.exp n k).lastEnd.getD (s.cci n).lastBusy) := by
    simp [Dev.expAbort, hp, hl, hj]
  simp [Dev.expCancel, ends, exp_abortSet, ExpRec.init]

/-- A set with a transaction on the bus is to end after it, and cancel reads 1 until then. -/
theorem expCancel_on_bus (hj : (s.cci n).job = .set k) :
    s.expCancel n k =
      (s.setExp n k { s.exp n k with ending := some caCancelled }).setF Reg.SPORT_EXP_SLOT.cancel 1 n k := by
  have marks : s.expAbort n k caCancelled false = s.setExp n k { s.exp n k with ending := some caCancelled } := by
    simp [Dev.expAbort, hp, hl, hj]
  simp [Dev.expCancel, marks, exp_setExp_same _ (slot_lt_of_armed hp)]

end

end

theorem exposureSlots : Claim.ExposureSlots := by
  refine fun s n k => ⟨fun hp => ⟨fun hw hc => ?_, fun h => ?_⟩, fun hp hl hj => ?_, fun hp hl hj => ?_⟩
  · exact yields_of_run (·.expArm n.val k.val) rfl (expArm_of_well_formed hp hw hc)
  · exact yields_of_run (·.expArm n.val k.val) rfl (expArm_refused hp h)
  · exact yields_of_run (·.expCancel n.val k.val) rfl (expCancel_off_bus hp hl hj)
  · exact yields_of_run (·.expCancel n.val k.val) rfl (expCancel_on_bus hp hl hj)

/-- Settles O11: the bus by the cases of its operations; a cancelled set leaves its slot empty (`exp_abortSet`), so that the bus goes on. -/
theorem controlBusAndSets : Obligations.ControlBusAndSets := ⟨controlBus, exposureSlots⟩

end Sys2Proof.Machine
end

section
/-! PROOFS. Marionette's inputs (chapter 04, R112–R117): the edges of encoders, their windows, stalls and restarts, the running indication
and the cross-check. -/

namespace Sys2Proof.Machine

/-! ### Quadrature edges (R112–R114) -/

section
variable (s : Dev) (e : Nat) (a b : Bool) (held : Nat)

/-- The level of an encoder's line A, where its pins stand at a and b. -/
def Dev.lineA : Bool := if s.flag Reg.MARN_ENC.swap_ab e then b else a

/-- The level of its line B. -/
def Dev.lineB : Bool := if s.flag Reg.MARN_ENC.swap_ab e then a else b

/-- How many places of the forward sequence new levels are away from those before. -/
def Dev.quadStep : Nat :=
  (quadrature (s.lineA e a b) (s.lineB e a b) + 4 - quadrature (s.enc e).a (s.enc e).b) % 4

/-- The device with a step counted, at the time of the first sample at the new levels. -/
def Dev.encCounted (step : Int) : Dev :=
  let r := s.enc e
  let x := s.lineA e a b
  let y := s.lineB e a b
  let at_ := s.now - samplesPs held
  let cut := at_ - (s.fld Reg.MARN_BCAST.speed_window + 1) * Config.usPs
  let old := (r.history.filter (fun h => h.1 ≤ cut)).drop ((r.history.filter (fun h => h.1 ≤ cut)).length - 1)
  let fwd := decide (0 < s.sense step)
  s.setEnc e { r with
    a := x, b := y, count := r.count + step, edgeAt := at_, forwardAt := if fwd then at_ else r.forwardAt
    forwardCount := if fwd then r.count + step else r.forwardCount
    edgesA := if x = r.a then r.edgesA else min 64 (r.edgesA + 1), edgesB := if y = r.b then r.edgesB else min 64 (r.edgesB + 1)
    history := old ++ r.history.filter (fun h => cut < h.1) ++ [(at_, r.count + step)] }

/-- The device with new levels of both lines, which is no step. -/
def Dev.encJumped : Dev :=
  let r := s.enc e
  s.setEnc e { r with
    a := s.lineA e a b, b := s.lineB e a b, edgesA := min 64 (r.edgesA + 1), edgesB := min 64 (r.edgesB + 1) }

end

section
variable {s : Dev} {e held : Nat} {a b : Bool} (ho : s.encOn e = true) (hg : s.glitchPassed e held = true)
include ho hg

/-- An edge that passes the filter acts by its quadrature step. -/
theorem encoderEdge_of_passed :
    s.encoderEdge e a b held =
      if s.quadStep e a b = 0 then s
      else if s.quadStep e a b = 2 then (s.encJumped e a b).encFail e 0
      else s.encCounted e a b held (if s.quadStep e a b = 1 then 1 else -1) :=
  if_neg (by simp [ho, hg])

theorem encoderEdge_of_forward (hd : s.quadStep e a b = 1) : s.encoderEdge e a b held = s.encCounted e a b held 1 := by
  simp [encoderEdge_of_passed ho hg, hd]

theorem encoderEdge_of_backward (hd : s.quadStep e a b = 3) : s.encoderEdge e a b held = s.encCounted e a b held (-1) := by
  simp [encoderEdge_of_passed ho hg, hd]

theorem encoderEdge_of_double (hd : s.quadStep e a b = 2) : s.encoderEdge e a b held = (s.encJumped e a b).encFail e 0 := by
  simp [encoderEdge_of_passed ho hg, hd]

end

/-! ### Z edges (R114, R123) -/

/-- The device with the count at a Z edge kept, and its distance from the Z before checked where z_check is set. -/
def Dev.zChecked (s : Dev) (e : Nat) : Dev :=
  let r := s.enc e
  let nom := s.fld Reg.MARN_ZCHK.z_nominal
  let tol := s.fld Reg.MARN_ZCHK.z_tol
  let dist : Nat := (r.zCount.map (fun z => (r.count - z).natAbs)).getD nom
  let a := s.setEnc e { r with zCount := some r.count }
  if s.flag Reg.MARN_ENC.z_check e = true ∧ (dist + tol < nom ∨ nom + tol < dist) then
    a.countAnd Reg.MARN_STAT.enc_faults 0 0 2 2 0 0 2 0
  else a

section
variable {s : Dev} {e held : Nat} (ho : s.encOn e = true) (hg : s.glitchPassed e held = true)
include ho hg

/-- A Z edge that passes the filter is checked, and anchors where its encoder is active. -/
theorem zEdge_of_passed :
    s.zEdge e held = if e = s.activeEnc then (s.zChecked e).anchorAt 1 (s.anchorCount e) else s.zChecked e :=
  if_neg (by simp [ho, hg])

theorem zEdge_of_active (ha : e = s.activeEnc) : s.zEdge e held = (s.zChecked e).anchorAt 1 (s.anchorCount e) :=
  (zEdge_of_passed ho hg).trans (if_pos ha)

theorem zEdge_of_other (ha : e ≠ s.activeEnc) : s.zEdge e held = s.zChecked e := (zEdge_of_passed ho hg).trans (if_neg ha)

end

/-! ### Windows and stalls (R114) -/

/-- How far an encoder has counted in its acceleration window. -/
def Dev.accelCount (s : Dev) (e : Nat) : Int := (s.enc e).count - (s.enc e).winCount

/-- The device at the end of the window, with its count kept. -/
def Dev.accelKept (s : Dev) (e : Nat) : Dev :=
  let a := s.reach ((s.enc e).winAt + s.fld Reg.MARN_ENC_CHK.accel_window * Config.usPs)
  a.setEnc e { s.enc e with winAt := a.now, winCount := (s.enc e).count, winPrev := some (s.accelCount e) }

section
variable {s : Dev} {e : Nat} (ho : s.encOn e = true) (hm : s.rateMode = false)
include ho hm

theorem accelWindow_of_first (hp : (s.enc e).winPrev = none) : s.accelWindow e = s.accelKept e :=
  (if_neg (by simp [ho, hm])).trans (by simp only [hp]; rfl)

/-- A window that follows another is held against it. -/
theorem accelWindow_of_prev {p : Int} (hp : (s.enc e).winPrev = some p) :
    s.accelWindow e =
      if s.fld Reg.MARN_ENC_CHK.accel_limit + 1 < (s.accelCount e - p).natAbs then (s.accelKept e).encFail e 1 else s.accelKept e :=
  (if_neg (by simp [ho, hm])).trans (by simp only [hp]; rfl)

theorem encStall_of_silent {t : Nat} (hr : s.marn.runningAt = some t)
    (hs : (s.enc e).stalledFrom ≠ some (max (max t (s.enc e).edgeAt) (s.enc e).stallFrom)) :
    s.encStall e =
      ((s.reach (max (max t (s.enc e).edgeAt) (s.enc e).stallFrom + s.fld Reg.MARN_ENC_CHK.edge_timeout * Config.usPs)).setEnc e
        { s.enc e with stalledFrom := some (max (max t (s.enc e).edgeAt) (s.enc e).stallFrom) }).encFail e 3 := by
  unfold Dev.encStall
  rw [hr]
  exact if_neg (not_or.2 ⟨by simp [ho], not_or.2 ⟨by simp [hm], hs⟩⟩)

end

/-! ### A restart of the encoders (R115, R135) -/

/-- The device with the failures of its encoders cleared, and shown so. -/
def Dev.encCleared (s : Dev) : Dev :=
  ((List.range 4).foldl (fun d k => d.setEnc k { d.enc k with failed := false, stallFrom := s.now, winPrev := none }) s).encShown

section
variable {s : Dev}

theorem encoderRestart_of_no_hold (hh : s.marn.selfHold = false) : s.encoderRestart = s.encCleared := if_pos (by simp [hh])

/-- In a holdover of its own the root restarts its grid, now or at its stop. -/
theorem encoderRestart_of_hold (hh : s.marn.selfHold = true) :
    s.encoderRestart =
      if s.marn.triggering then s.encCleared.modMarn (fun r => { r with restartWaits := true }) else s.encCleared.restartGrid :=
  if_neg (by simp [hh])

end

theorem encoders : Claim.Encoders := by
  refine fun s e ho => ⟨fun a b held hg => ⟨fun hd => ?_, fun hd => ?_, fun hd => ?_⟩, fun held hg => ⟨fun ha => ?_, fun ha => ?_⟩,
    fun hm => ⟨fun hp => ?_, fun p hp => ⟨fun hl => ?_, fun hl => ?_⟩⟩, fun t hr hm => fun hs => ?_,
    fun hh => ?_, fun hh ht => ?_, fun hh ht => ?_⟩
  · exact yields_of_run (fun d => (d.encoderEdge e.val a b held.toNat).marnSync) rfl
      (congrArg Dev.marnSync (encoderEdge_of_forward ho hg hd))
  · exact yields_of_run (fun d => (d.encoderEdge e.val a b held.toNat).marnSync) rfl
      (congrArg Dev.marnSync (encoderEdge_of_backward ho hg hd))
  · exact yields_of_run (fun d => (d.encoderEdge e.val a b held.toNat).marnSync) rfl
      (congrArg Dev.marnSync (encoderEdge_of_double ho hg hd))
  · exact yields_of_run (·.zEdge e.val held.toNat) rfl (zEdge_of_other ho hg ha)
  · exact yields_of_run (·.zEdge e.val held.toNat) rfl (zEdge_of_active ho hg ha)
  · exact yields_of_run (fun d => (d.accelWindow e.val).marnSync) rfl (congrArg Dev.marnSync (accelWindow_of_first ho hm hp))
  · exact yields_of_run (fun d => (d.accelWindow e.val).marnSync) rfl
      (congrArg Dev.marnSync ((accelWindow_of_prev ho hm hp).trans (if_pos hl)))
  · exact yields_of_run (fun d => (d.accelWindow e.val).marnSync) rfl
      (congrArg Dev.marnSync ((accelWindow_of_prev ho hm hp).trans (if_neg (Nat.not_lt.2 hl))))
  · exact yields_of_run (fun d => (d.encStall e.val).marnSync) rfl (congrArg Dev.marnSync (encStall_of_silent ho hm hr hs))
  · exact yields_of_run (·.encoderRestart) rfl (encoderRestart_of_no_hold hh)
  · exact yields_of_run (·.encoderRestart) rfl ((encoderRestart_of_hold hh).trans (if_pos ht))
  · exact yields_of_run (·.encoderRestart) rfl ((encoderRestart_of_hold hh).trans (if_neg (by simp [ht])))

theorem runningIndication : Claim.RunningIndication := by
  refine ⟨fun s v => ?_, fun s level => ?_, fun s level => ?_⟩
  · exact yields_of_run (fun d => (d.setF Reg.MARN_CTRL.running (if v then 1 else 0)).runningSync) rfl rfl
  · exact yields_of_run (fun d => ({ d with marn := { d.marn with synA := level } } : Dev).runningSync) rfl rfl
  · exact yields_of_run (fun d => ({ d with marn := { d.marn with synB := level } } : Dev).runningSync) rfl rfl

/-! ### The cross-check (R116) -/

section
variable (s : Dev)

/-- The count of the primary in the sense of travel. -/
def Dev.primaryCount : Int := s.sense (s.enc (s.fld Reg.MARN_CTRL.primary)).count

/-- The count of the secondary in the sense of travel. -/
def Dev.secondaryCount : Int := s.sense (s.enc (s.fld Reg.MARN_XCHK.secondary)).count

/-- How far the counts of a span deviate from the ratio, in 2^-32 counts. -/
def Dev.xDeviation : Nat :=
  ((s.primaryCount - s.marn.xRefP) * 2 ^ 32 - s.fld Reg.MARN_XRATIO.ratio * (s.secondaryCount - s.marn.xRefS)).natAbs

end

/-- At the end of a span the references move, and a deviation beyond the tolerance counts. -/
theorem xcheckEnd_of_span {s : Dev} (hr : s.straps.root = true) (he : s.flag Reg.MARN_XCHK.enable = true)
    (hs : s.fld Reg.MARN_XCHK.span ≤ (s.primaryCount - s.marn.xRefP).natAbs) :
    s.xcheckEnd =
      let a := s.modMarn (fun r => { r with xRefP := s.primaryCount, xRefS := s.secondaryCount })
      if s.fld Reg.MARN_XCHK.tol * 2 ^ 32 < s.xDeviation then
        (a.bump Reg.MARN_STAT2.xcheck_mismatch).countAnd Reg.MARN_STAT.enc_faults 0 0 2 2 0 0 4 0
      else a :=
  if_pos ⟨hr, he, hs⟩

theorem crossCheck : Claim.CrossCheck := by
  refine fun s hr he hs => ⟨fun hd => ?_, fun hd => ?_⟩
  · exact yields_of_run (·.xcheckEnd) rfl ((xcheckEnd_of_span hr he hs).trans (if_neg (Nat.not_lt.2 hd)))
  · exact yields_of_run (·.xcheckEnd) rfl ((xcheckEnd_of_span hr he hs).trans (if_pos hd))

/-- Settles O12: an edge by its quadrature step (`encoderEdge_of_passed`), Z edges, windows, stalls, restarts and spans by the cases of their
operations. -/
theorem marionetteInputs : Obligations.MarionetteInputs := ⟨encoders, runningIndication, crossCheck⟩

end Sys2Proof.Machine
end

section
/-! PROOFS. Position samples (chapter 04, R118–R121): how the oldest one is applied, and how a holdover stops the triggers. -/

namespace Sys2Proof.Machine

/-! ### Samples received (R119) -/

section
variable {s : Dev} {p : PosSample} (hr : s.straps.root = false)
include hr

theorem sampleReceive_of_late (hl : s.applyAt p < s.now) : s.sampleReceive p = s.bump Reg.MARN_STAT.late_samples := by
  simp [Dev.sampleReceive, Dev.isRoot, hr, hl]

theorem sampleReceive_of_timely (hl : s.now ≤ s.applyAt p) :
    s.sampleReceive p = { s with marn := { s.marn with waiting := s.marn.waiting ++ [p] } } := by
  simp [Dev.sampleReceive, Dev.isRoot, hr, Int.not_lt.2 hl, Dev.modMarn]

end

/-- A device acts on the first copy of a sample, which is for the whole chain. -/
theorem yields_positionSampleReceive {s : State} {l : Link} {m : RingMsg} {p : PosSample} (hf : FirstCopy s.dev l m)
    (hm : m.body = .sample p) (hb : m.broadcast = true) :
    Yields (.positionSampleReceive l m) s ((heardFirst s.dev l m).sampleReceive p) := by
  have runs : exec (.positionSampleReceive l m) s = execPositionSampleReceive l m s := rfl
  simp [Yields, runs, execPositionSampleReceive, State.run, ringIn_first _ _ _ _ hf, hb, hm]

/-! ### Samples applied (R119, R121, R478) -/

/-- The device at the instant at which a sample applies; the grid of another run has ended. -/
def Dev.sampleDue (s : Dev) (p : PosSample) : Dev :=
  let a := (s.reach (s.applyAt p).toNat).marnSync
  if a.otherRun p then a.gridEnds.stopWithGrid else a

/-- The device with a sample's model in force. -/
def Dev.modelApplied (s : Dev) (p : PosSample) (rest : List PosSample) : Dev :=
  s.modMarn (fun r => { r with
    waiting := rest, model := some (s.modelOf p), appliedAt := s.now
    past := ((r.model.map (fun m => (s.modelFrom, m))).toList ++ r.past).take 131072
    holdAt := if r.selfHold then r.holdAt else none })

/-- A follower that was in holdover, and did not stop, shows that it is not any more. -/
def Dev.holdShownOver (s : Dev) (held : Bool) : Dev :=
  if s.isRoot = false ∧ held = true ∧ s.marn.stopped = none then s.setF Reg.MARN_STATUS.pos_state 1 else s

/-- A follower takes the origin of a sample of a grid, and shows that of every sample. -/
def Dev.originFollowed (s : Dev) (p : PosSample) : Dev :=
  if s.isRoot then s
  else (if p.status.getLsbD 5 then s.setOrigin p.origin.toInt else s).setF Reg.MARN_ORIGIN.origin p.origin.toNat

theorem sampleApply_of_waiting {s : Dev} {p : PosSample} {rest : List PosSample} (hw : s.marn.waiting = p :: rest) :
    s.sampleApply =
      ((((((s.sampleDue p).modelApplied p rest).holdShownOver s.marn.holdAt.isSome).originFollowed p).sampleStatus p).marnSync).anchorAt 0
        (ceilCount (((s.sampleDue p).modelOf p).exact (s.applyTk p))) := by
  have shown (b : Dev) : b.holdShownOver s.marn.holdAt.isSome =
      if !b.isRoot ∧ s.marn.holdAt.isSome ∧ b.marn.stopped.isNone then b.setF Reg.MARN_STATUS.pos_state 1 else b :=
    if_congr (by simp) rfl rfl
  rw [shown, Dev.sampleApply, hw]
  rfl

/-! ### Holdover and its stop (R121, R135) -/

theorem positionHoldover_of_follower {s : Dev} (hm : s.marn.model.isSome = true) (hh : s.marn.holdAt = none)
    (hr : s.straps.root = false) :
    s.positionHoldover = (((s.reach (s.marn.appliedAt + 10 * Config.usPs)).marnSync).enterHold).logAt Reg.MARN_STAT2.holdovers 0 0 2 0 0 :=
  if_pos (by simp [hm, hh, Dev.isRoot, hr])

/-- The device when a holdover has lasted for 100 µs: one of the root's own shows in its samples from here on. -/
def Dev.holdLasted (s : Dev) (t : Nat) : Dev :=
  let b := (s.reach (t + 100 * Config.usPs)).marnSync
  if b.marn.selfHold then b.modMarn (fun r => { r with holdOver := true }) else b

/-- A restart that waited for the stop takes place, or is spent where the active encoder has failed again. -/
def Dev.restartAtStop (s : Dev) : Dev :=
  if !s.marn.restartWaits then s
  else if (s.enc s.activeEnc).failed then s.modMarn (fun r => { r with restartWaits := false })
  else s.restartGrid

section
variable {s : Dev} {t : Nat} (hh : s.marn.holdAt = some t) (hs : s.marn.selfHold = true ∨ s.marn.waiting = [])
include hh hs

theorem triggerStop_of_held :
    s.triggerStop = if s.marn.triggering then ((s.holdLasted t).stopTriggers true).restartAtStop else s.holdLasted t := by
  have held : s.marn.holdAt.filter (fun _ => s.marn.selfHold || s.marn.waiting.isEmpty) = some t := by simp [hh, hs]
  unfold Dev.triggerStop Dev.restartAtStop Dev.holdLasted
  rw [held]
  cases s.marn.triggering
  · rfl
  · simp only [Bool.not_true, Bool.false_eq_true, if_false, if_true]

end

section
variable {s : Dev}

theorem restartAtStop_of_not_waiting (hw : s.marn.restartWaits = false) : s.restartAtStop = s := if_pos (by simp [hw])

theorem restartAtStop_of_failed (hw : s.marn.restartWaits = true) (hf : (s.enc s.activeEnc).failed = true) :
    s.restartAtStop = { s with marn := { s.marn with restartWaits := false } } := by
  simp [Dev.restartAtStop, hw, hf, Dev.modMarn]

theorem restartAtStop_of_sound (hw : s.marn.restartWaits = true) (hf : (s.enc s.activeEnc).failed = false) :
    s.restartAtStop = s.restartGrid := by
  simp [Dev.restartAtStop, hw, hf]

end

/-- Settles O13: a sample applies by `sampleApply_of_waiting`, and a holdover that lasts stops by `triggerStop_of_held`. -/
theorem positionSamples : Obligations.PositionSamples := by
  refine ⟨fun s hr => ?_, fun s l m p hf hm hb => fun hr => ⟨fun hl => ?_, fun hl => ?_⟩, fun s p rest hw => ?_, fun s hm hh hr => ?_,
    fun s t hh hs => ?_⟩
  · exact yields_of_run (·.sampleTake) rfl (if_neg (by simp [Dev.isRoot, hr]))
  · exact sampleReceive_of_late hr hl ▸ yields_positionSampleReceive hf hm hb
  · exact sampleReceive_of_timely hr hl ▸ yields_positionSampleReceive hf hm hb
  · exact yields_of_run (·.sampleApply) rfl (sampleApply_of_waiting hw)
  · exact yields_of_run (·.positionHoldover) rfl (positionHoldover_of_follower hm hh hr)
  · have stops := triggerStop_of_held hh hs
    intro b c a
    have hc : s.dev.holdLasted t = c := rfl
    have ha : c.stopTriggers true = a := rfl
    clear_value a c
    rw [hc, ha] at stops
    refine ⟨fun ht => ?_, fun ht hw => ?_, fun ht hw => ⟨fun hf => ?_, fun hf => ?_⟩⟩
    · exact yields_of_run (·.triggerStop) rfl (stops.trans (if_neg (by simp [ht])))
    · exact yields_of_run (·.triggerStop) rfl ((stops.trans (if_pos ht)).trans (restartAtStop_of_not_waiting hw))
    · exact yields_of_run (·.triggerStop) rfl ((stops.trans (if_pos ht)).trans (restartAtStop_of_failed hw hf))
    · exact yields_of_run (·.triggerStop) rfl ((stops.trans (if_pos ht)).trans (restartAtStop_of_sound hw hf))

end Sys2Proof.Machine
end

section
/-! PROOFS. Triggers and strobes (chapter 04, R126–R130): a head at the pulse time of its next line, midpoints, and strobes. -/

namespace Sys2Proof.Machine

/-- The next line for which a head triggers. -/
def Dev.headNext (s : Dev) (h : Nat) : Nat := s.headLine h (s.head h).next

/-- The device at the pulse time of a head's next line, which the head has then handled. -/
def Dev.headDue (s : Dev) (h : Nat) (t : Int) : Dev :=
  let a := (s.reach t.toNat).marnSync
  a.setHead h { a.head h with next := (s.headNext h + 1) % 2 ^ 48 }

/-- When the last pulse of a head began, as it stands at an instant. -/
def Dev.pulseBefore (s : Dev) (h : Nat) (t : Int) : Option Nat := ((s.reach t.toNat).marnSync.head h).pulseAt

section
variable {s : Dev} {h : Nat} {t : Int} (ht : s.marn.triggering = true)
  (ho : headOn (s.lineCfg (s.headNext h)) h = true)
  (hm : ((s.lineCfg (s.headNext h)).fld Reg.MARN_SEQ.head_mask (seqEntry (s.lineCfg (s.headNext h)) (s.headNext h))).testBit h = true)
  (hf : s.fireAt h (s.headNext h) = some t)
include ht ho hm hf

theorem triggerFire_of_first (hp : s.pulseBefore h t = none) :
    s.triggerFire h = (s.headDue h t).fire h (s.headNext h) := by
  unfold Dev.headNext Dev.pulseBefore at *
  simp [Dev.triggerFire, Dev.headDue, Dev.headNext, ht, ho, hm, hf, hp]

/-- A head that has pulsed keeps its min_period. -/
theorem triggerFire_of_pulsed {p : Nat} (hp : s.pulseBefore h t = some p) :
    s.triggerFire h =
      if (s.reach t.toNat).marnSync.now < p + (s.lineCfg (s.headNext h)).fld Reg.MARN_HEAD.min_period h * Config.nsPs then
        (s.headDue h t).skipFire h (s.headNext h)
      else (s.headDue h t).fire h (s.headNext h) := by
  unfold Dev.headNext Dev.pulseBefore at *
  simp [Dev.triggerFire, Dev.headDue, Dev.headNext, ht, ho, hm, hf, hp]

end

section
variable {s : Dev} {h : Nat}

theorem pulseEnds_of_pulse {t : Nat} (hp : (s.head h).pulseEnd = some t) :
    s.pulseEnds h = (s.reach t).setHead h { s.head h with pulseEnd := none } := by
  simp [Dev.pulseEnds, hp]

theorem midCapture_of_due {n t : Nat} {rest : List (Nat × Nat)} (hd : (s.head h).midDue = (n, t) :: rest) :
    s.midCapture h = (s.reach t).marnSync.setHead h { (s.reach t).marnSync.head h with
      midDue := rest
      mids := ((n, ((s.reach t).marnSync.posAt t % 2 ^ 64).toNat) :: ((s.reach t).marnSync.head h).mids).take 1024 } := by
  simp [Dev.midCapture, hd]

end

section
variable {s : Dev} {b : Nat}

/-- A strobe starts for its next line, and stays active until its end or that of the pulse that it meets. -/
theorem strobeStart_of_due {n : Nat} {x : Int} (ht : s.marn.triggering = true) (hl : s.strobeLine b (s.strobe b).next = some n)
    (he : (s.lineCfg n).flag Reg.MARN_STB.enable b = true) (hx : s.crossing (s.linePos n) = some x) :
    s.strobeStart b =
      let c := s.lineCfg n
      let a := (s.reach (x + c.sfld Reg.MARN_STB.start b * Config.nsPs + c.fld Reg.MARN_STB.trim b * 100).toNat).marnSync
      a.setStrobe b { next := (n + 1) % 2 ^ 48, activeUntil := some (max (a.now + c.fld Reg.MARN_STB.width b * Config.nsPs)
        ((s.strobe b).activeUntil.getD 0)) } := by
  simp [Dev.strobeStart, ht, hl, he, hx]

theorem strobeEnd_of_active {x : Nat} (ha : (s.strobe b).activeUntil = some x) :
    s.strobeEnd b = (s.reach x).setStrobe b { s.strobe b with activeUntil := none } := by
  simp [Dev.strobeEnd, ha]

end

/-- Settles O14: a head that pulsed before fires or skips by `triggerFire_of_pulsed`; the rest by the cases of its operations. -/
theorem triggersAndStrobes : Obligations.TriggersAndStrobes := by
  refine fun s => ⟨fun h t ht ho hm hf => ⟨fun hp => ?_, fun p hp => ⟨fun hl => ?_, fun hl => ?_⟩⟩, fun h t hp => ?_,
    fun h n t rest hd => ?_, fun b n x ht hl he hx => ?_, fun b x ha => ?_, fun h v => ?_⟩
  · exact yields_of_run (·.triggerFire h.val) rfl (triggerFire_of_first ht ho hm hf hp)
  · exact yields_of_run (·.triggerFire h.val) rfl ((triggerFire_of_pulsed ht ho hm hf hp).trans (if_neg (Nat.not_lt.2 hl)))
  · exact yields_of_run (·.triggerFire h.val) rfl ((triggerFire_of_pulsed ht ho hm hf hp).trans (if_pos hl))
  · exact yields_of_run (·.pulseEnds h.val) rfl (pulseEnds_of_pulse hp)
  · exact yields_of_run (·.midCapture h.val) rfl (midCapture_of_due hd)
  · exact yields_of_run (·.strobeStart b.val) rfl (strobeStart_of_due ht hl he hx)
  · exact yields_of_run (·.strobeEnd b.val) rfl (strobeEnd_of_active ha)
  · exact yields_of_run (fun d => (d.setF Reg.MARN_HEAD_MID.mid_offset_next v.toNat h.val).setF Reg.MARN_HEAD_MID.pending 1 h.val)
      rfl rfl

end Sys2Proof.Machine
end

section
/-! PROOFS. The control of the grid (chapter 04, R125, R132–R136, R478): run, SYNC edges and their messages, the rate, and block ends. -/

namespace Sys2Proof.Machine

section
variable {s : Dev} {pa pb : Option Bool} {ha hb : Nat}

/-- SYNA is taken where it accepts an edge, with a LOG event where SYNB has one too. -/
theorem syncEdge_of_synA (h0 : s.marnSync.syncAccepts 0 pa ha = true) :
    s.syncEdge pa pb ha hb = (if s.marnSync.syncAccepts 1 pb hb then s.marnSync.log 2 0 0 else s.marnSync).syncAt 0
      (s.marnSync.exactAt (s.marnSync.now - samplesPs ha)) :=
  if_pos h0

theorem syncEdge_of_synB (h0 : s.marnSync.syncAccepts 0 pa ha = false) (h1 : s.marnSync.syncAccepts 1 pb hb = true) :
    s.syncEdge pa pb ha hb = s.marnSync.syncAt 1 (s.marnSync.exactAt (s.marnSync.now - samplesPs hb)) :=
  (if_neg (by simp [h0])).trans (if_pos h1)

end

/-- A root acts on the first copy of a SYNC message that is for it. -/
theorem yields_syncMessage {s : State} {l : Link} {m : RingMsg} {pin : Fin 2} {x : Int} (hf : FirstCopy s.dev l m)
    (hm : m.body = .sync pin x) (hd : (heardFirst s.dev l m).isDest m = true) (hr : (heardFirst s.dev l m).straps.root = true) :
    Yields (.syncMessage l m) s ((heardFirst s.dev l m).marnSync.syncAt pin.val (x * speedUnit)) := by
  have runs : exec (.syncMessage l m) s = execSyncMessage l m s := rfl
  simp [Yields, runs, execSyncMessage, State.run, ringIn_first _ _ _ _ hf, hd, hm, Dev.isRoot, hr]

/-- Settles O15: run, SYNC and the block end by the branches of their operations, a message by `ringIn_first`. -/
theorem gridControl : Obligations.GridControl := by
  refine fun s => ⟨fun hr hn => ?_, fun hr => ?_, fun pa pb held heldB => ⟨fun h0 h1 => ?_, fun h0 h1 => ?_, fun h0 h1 => ?_⟩,
    fun l m pin x hf hm => fun hd hr => yields_syncMessage hf hm hd hr, fun rate => ?_, fun n hp hr hs => ?_⟩
  · exact yields_of_run (·.runSet) rfl (if_neg (by simp [Dev.isRoot, hr, hn]))
  · exact yields_of_run (·.runClear) rfl (if_neg (by simp [Dev.isRoot, hr]))
  · refine yields_of_run (·.syncEdge pa pb held.toNat (heldB.getD held).toNat) rfl ((syncEdge_of_synA h0).trans ?_)
    rw [if_pos h1]
  · refine yields_of_run (·.syncEdge pa pb held.toNat (heldB.getD held).toNat) rfl ((syncEdge_of_synA h0).trans ?_)
    rw [if_neg (by simp [h1])]
  · exact yields_of_run (·.syncEdge pa pb held.toNat (heldB.getD held).toNat) rfl (syncEdge_of_synB h0 h1)
  · exact yields_of_run (fun d => (d.setF Reg.MARN_RATE.rate rate.toNat).modMarn
      (fun r => { r with rateNext := r.rateNext ++ [(rate.toNat, d.now)] })) rfl rfl
  · exact yields_of_run (·.stopBlockEnd n.val) rfl (if_pos (by simp only [hp, hr, hs, Bool.and_self]))

end Sys2Proof.Machine
end

section
/-! PROOFS. Pixel tiles (chapter 05): the values that LUT and LIN give, a tile's turn with its replays, LUT page loads, and the parameter
commits that tiles share with Kaleidoscope units and resamplers. -/

namespace Sys2Proof.Machine

/-! ### Values of LUT and LIN (R143, R150, R151, R168) -/

theorem clamp18_eq (x : Int) : clamp18 x = max 0 (min x 262143) := by
  rw [min_comm]
  rfl

@[simp] theorem length_xs_mapX (l : ULine) (f : Nat → Int → Int) : (l.mapX f).xs.length = l.xs.length := by simp [ULine.mapX]

theorem getElem_xs_mapX (l : ULine) (f : Nat → Int → Int) (c : Nat) (h : c < (l.mapX f).xs.length) (h' : c < l.xs.length) :
    (l.mapX f).xs[c] = f c l.xs[c] := by simp [ULine.mapX]

theorem x_eq_getElem (l : ULine) (c : Nat) (h : c < l.xs.length) : l.x c = l.xs[c] := List.getD_eq_getElem l.xs 0 h

/-- A grain of a loaded page reads as it was loaded where no error has struck it. -/
theorem pageGrain_of_clean {s : Dev} {t page j : Nat} {gs : List (Grain × Blemish)} (hp : Sparse.find page (s.tile t).pages = some gs)
    (he : (Sparse.find (1024 * page + j) (s.tile t).pageErrs).getD .clean = .clean) :
    s.pageGrain t page j = gs.getD j (0, Blemish.clear) := by
  simp only [Dev.pageGrain, hp, he, Option.getD_some]

/-- Settles O55: a sample by `getElem_xs_mapX`, an entry of a sound page by `pageGrain_of_clean`. -/
theorem lutValues : Obligations.LutValues := by
  refine fun s t n l => ⟨⟨_, rfl, rfl, rfl, rfl, rfl, ?_, fun c h h' => ?_⟩, fun i gs hp he => ?_⟩
  · simp only [length_xs_mapX]
  · simp only [getElem_xs_mapX l _ c _ h', x_eq_getElem l c h', clamp18_eq, Nat.shiftRight_eq_div_pow]
  · rw [Dev.lutEntry, pageGrain_of_clean hp he]

/-- The segment of a clamped input is one of the 32 of LIN, named by its bits from 13 up. -/
theorem linSegment_clamp18 (x : Int) : (clamp18 x).toNat / 8192 < 32 ∧ (clamp18 x / 8192).toNat = (clamp18 x).toNat / 8192 := by
  have hx : 0 ≤ clamp18 x ∧ clamp18 x < 262144 := by
    rw [clamp18_eq]
    omega
  omega

theorem sat24_eq (x : Int) : sat24 x = max (-8388608) (min 8388607 x) := rfl

/-- Settles O56: a sample by `getElem_xs_mapX`, its segment by `linSegment_clamp18`. -/
theorem linValues : Obligations.LinValues := by
  refine fun s t l => ⟨_, rfl, rfl, rfl, rfl, length_xs_mapX l _, fun c h h' => ?_⟩
  rw [← clamp18_eq]
  obtain ⟨hlt, hseg⟩ := linSegment_clamp18 l.xs[c]
  refine ⟨hlt, (getElem_xs_mapX l _ c h h').trans ?_⟩
  simp only [hseg, sat24_eq]

/-! ### A tile's turn (R138, R171, R385) -/

/-- The device as a tile takes an item: a replay stays with the configuration in force, every other item may switch it (R272). -/
def Dev.tileConfigured (s : Dev) (t : Nat) : Bool → Dev
  | true => s
  | false => s.switchAt 3 t (s.tile t).block.isSome (fun c => [c.fld Reg.TILE_CTRL.in_q t])

/-- A tile that may take an item finds one at the front of its input, with or without a replay in hand. -/
structure Dev.TileFinds (a : Dev) (t : Nat) (replay : Bool) (sc : Scan) : Prop where
  ready : a.tileReady t = true
  replay : (a.tile t).replay.isSome = replay
  item : a.peekItem ((a.tileCfg t).fld Reg.TILE_CTRL.in_q t) (some ((a.tileCfg t).fld Reg.TILE_CTRL2.in_width t)) = some sc

/-- What a tile does with an item that it has found (`tileTurn_of_finds`), a mismatch befalling it or not. -/
def Dev.tileMeets (b : Dev) (t q : Nat) (it : Scan) (mm : Option (Fin 4)) : Dev :=
  match mm.filter (fun k => b.slotComputes t q k.val it) with
  | some k => b.tileMismatch t q k.val it (it.item.head?.getD ((b.windowHead t).getD idleCell))
  | none => (b.tileTake t q it).endReplay t ((b.tile t).replay.bind (fun x => x.2))

section
variable {b : Dev} {t q : Nat} {it : Scan} {mm : Option (Fin 4)}

theorem tileMeets_of_match (hm : mm.filter (fun k => b.slotComputes t q k.val it) = none) :
    b.tileMeets t q it mm = (b.tileTake t q it).endReplay t ((b.tile t).replay.bind (fun x => x.2)) := by
  simp only [Dev.tileMeets, hm]

theorem tileMeets_of_mismatch {k : Fin 4} (hm : mm.filter (fun k => b.slotComputes t q k.val it) = some k) :
    b.tileMeets t q it mm = b.tileMismatch t q k.val it (it.item.head?.getD ((b.windowHead t).getD idleCell)) := by
  simp only [Dev.tileMeets, hm]

end

/-- A tile's turn comes down to what it meets: a match or a mismatch. -/
theorem tileTurn_of_finds {s a : Dev} {t : Nat} {replay : Bool} {errs pages : List BufErr} {sc : Scan} (mm : Option (Fin 4))
    (ha : (s.pageStrikes t pages).tileConfigured t replay = a) (h : a.TileFinds t replay sc) :
    s.tileTurn t replay mm errs pages =
      (a.bufferAlarms 3 t (sc.item.lost errs)).tileMeets t ((a.tileCfg t).fld Reg.TILE_CTRL.in_q t)
        { sc with item := sc.item.strike errs } mm := by
  have hcfg : (if replay then s.pageStrikes t pages else (s.pageStrikes t pages).switchAt 3 t ((s.pageStrikes t pages).tile t).block.isSome
      (fun c => [c.fld Reg.TILE_CTRL.in_q t])) = a := by
    rw [← ha]
    cases replay <;> rfl
  unfold Dev.tileTurn
  simp only [hcfg, h.ready, h.replay, h.item, beq_self_eq_true, Bool.and_self, if_true]
  rfl

/-! What a mismatch does, by the replays that have failed before it. -/

section
variable {s : Dev} {t : Nat} (q slot : Nat) (sc : Scan) (h : Cell)

theorem tileMismatch_of_first (hr : (s.tile t).replay = none) :
    s.tileMismatch t q slot sc h = (s.startReplay t 1 none).mismatchOn t (s.serving t) slot (Tag.of h.1).index := by
  simp only [Dev.tileMismatch, hr]

theorem tileMismatch_of_replay {n : Nat} {und : Option Nat} (hr : (s.tile t).replay = some (n, und)) (hn : n < 2) :
    s.tileMismatch t q slot sc h =
      (s.mismatchOn t (und.getD (s.serving t)) slot (Tag.of h.1).index).startReplay t (n + 1) und := by
  simp only [Dev.tileMismatch, hr]
  exact if_neg (by omega)

theorem tileMismatch_of_last {n : Nat} {und : Option Nat} (hr : (s.tile t).replay = some (n, und)) (hn : 2 ≤ n) :
    s.tileMismatch t q slot sc h =
      ((s.mismatchOn t (und.getD (s.serving t)) slot (Tag.of h.1).index).replayFailed t q slot sc h).endReplay t und := by
  simp only [Dev.tileMismatch, hr]
  exact if_pos (by omega)

variable {q slot sc h}

theorem replayFailed_of_nothing (hl : s.lostFlow t q slot sc h = none) : s.replayFailed t q slot sc h = s := by
  simp only [Dev.replayFailed, hl]

theorem replayFailed_of_flow {x : Dev} {items copies : List UItem} {lines : List Cell}
    (hl : s.lostFlow t q slot sc h = some (x, items, copies, lines)) :
    s.replayFailed t q slot sc h =
      ((lines.foldl (fun y c => y.endLine (s.tileOut t) c.1 stFailed caResidue) (x.tileFinish t q sc items copies)).bump
        Reg.TILE_STAT.replay_fail t).alarm 3 0 t (s.tileOwner t) ((Tag.of h.1).index + slot * 2 ^ 48)
        (Reg.TILE_STAT.replay_fail.addr t 0 0) 48 := by
  simp only [Dev.replayFailed, hl]

end

theorem yields_tileLine {s : State} {t : TileId} {mm : Option (Fin 4)} {errs pages : List BufErr} {d : Dev}
    (hf : (s.dev.part (s.dev.tileOwner t.val)).stalled = false) (hd : s.dev.tileTurn t.val false mm errs pages = d) :
    Yields (.tileLine t mm errs pages) s d :=
  yields_of_run (fun e => e.unlessStalled (e.tileOwner t.val) (fun x => x.tileTurn t.val false mm errs pages)) rfl
    ((unlessStalled_of_free _ hf).trans hd)

theorem yields_understudyReplay {s : State} {t : TileId} {mm : Option (Fin 4)} {errs pages : List BufErr} {d : Dev}
    (hf : (s.dev.part (s.dev.tileOwner t.val)).stalled = false) (hd : s.dev.tileTurn t.val true mm errs pages = d) :
    Yields (.understudyReplay t mm errs pages) s d :=
  yields_of_run (fun e => e.unlessStalled (e.tileOwner t.val) (fun x => x.tileTurn t.val true mm errs pages)) rfl
    ((unlessStalled_of_free _ hf).trans hd)

theorem tileLines : Claim.TileLines := by
  refine fun s t errs pages sc mm hf => ⟨fun hr ha hb hi => ?_, fun n und hr ha hb hi => ?_⟩
  · have turn := tileTurn_of_finds (s := s.dev) (replay := false) (errs := errs) (pages := pages) mm rfl ⟨hr, congrArg Option.isSome ha, hi⟩
    refine ⟨fun hm => yields_tileLine hf (turn.trans ?_), fun k hm => yields_tileLine hf (turn.trans ?_)⟩
    · refine (tileMeets_of_match hm).trans ?_
      rw [hb]
      rfl
    · exact (tileMeets_of_mismatch hm).trans (tileMismatch_of_first _ _ _ _ hb)
  · have turn := tileTurn_of_finds (s := s.dev) (replay := true) (errs := errs) (pages := pages) mm rfl ⟨hr, congrArg Option.isSome ha, hi⟩
    refine ⟨fun hm => yields_understudyReplay hf (turn.trans ?_), fun k hm => ?_⟩
    · refine (tileMeets_of_match hm).trans ?_
      rw [hb]
      rfl
    · have met := turn.trans (tileMeets_of_mismatch hm)
      have last := fun hn => met.trans (tileMismatch_of_last _ _ _ _ hb hn)
      refine ⟨fun hn => ?_, fun hn hl => ?_, fun x items copies lines hn hl => ?_⟩
      · exact yields_understudyReplay hf (met.trans (tileMismatch_of_replay _ _ _ _ hb hn))
      · exact yields_understudyReplay hf ((last hn).trans (congrArg (·.endReplay t.val und) (replayFailed_of_nothing hl)))
      · exact yields_understudyReplay hf ((last hn).trans (congrArg (·.endReplay t.val und) (replayFailed_of_flow hl)))

/-! ### LUT page loads (R168) -/

section
variable {s : Dev} {t : Nat}

theorem lutLoad_of_free (hl : (s.tile t).loading = none) (hp : s.pageInUse t (s.fld Reg.TILE_LUT_LOAD.page t) = false) :
    s.lutLoad t = (s.setF Reg.TILE_LUT_LOAD.status 1 t).modTile t (fun r => { r with
      loading := some (s.fld Reg.TILE_LUT_LOAD.src t, s.fld Reg.TILE_LUT_LOAD.page t) }) := by
  simp [Dev.lutLoad, hl, hp]

theorem lutLoad_of_used (hl : (s.tile t).loading = none) (hp : s.pageInUse t (s.fld Reg.TILE_LUT_LOAD.page t) = true) :
    s.lutLoad t = (s.setF Reg.TILE_LUT_LOAD.status 3 t).log 3 t (s.tileOwner t) (Reg.TILE_LUT_LOAD.go.addr t 0 0) := by
  simp [Dev.lutLoad, hl, hp]

theorem lutDone_of_loading {src page : Nat} (hl : (s.tile t).loading = some (src, page)) :
    s.lutDone t = ((s.tableSpan (s.regionOf src) src 1024).2.setF Reg.TILE_LUT_LOAD.status 2 t).modTile t (fun r => { r with
      loading := none, pages := Sparse.insert page (s.tableSpan (s.regionOf src) src 1024).1 r.pages
      pageErrs := r.pageErrs.filter (fun e => e.1 / 1024 != page) }) := by
  simp only [Dev.lutDone, hl]

end

theorem lutLoads : Claim.LutLoads := fun _ t =>
  ⟨fun hl => ⟨fun hp => yields_of_run (·.lutLoad t.val) rfl (lutLoad_of_free hl hp),
    fun hp => yields_of_run (·.lutLoad t.val) rfl (lutLoad_of_used hl hp)⟩,
   fun _ _ hl => yields_of_run (·.lutDone t.val) rfl (lutDone_of_loading hl)⟩

/-- Settles O16: a turn by `tileTurn_of_finds` and the cases of `tileMismatch`, page loads by those of `lutLoad` and `lutDone`. -/
theorem tilesAndPages : Obligations.TilesAndPages := ⟨tileLines, lutLoads⟩

/-! ### Parameter commits (R167, R189, R211) -/

/-- An armed commit as it is shown: its index kept, ARMED, its contexts pending and none late. -/
def Dev.armShown (s : Dev) (w : BankWin) (u : Nat) : Dev :=
  ((({ s with arms := Sparse.insert (unitKey w.kind (w.per * u)) (s.fld w.index u) s.arms } : Dev).setF w.status 1 u).setF w.late 0 u).setF
    w.pending (s.fld w.mask u) u

section
variable {s : Dev} {w : BankWin} {u : Nat} (owner : Nat)

theorem armBank_of_contexts (hs : s.fld w.status u ≠ 1) (hm : s.fld w.mask u ≠ 0) :
    s.armBank w u owner true = (s.armShown w u).setF w.arm 1 u :=
  (if_neg (by simpa using hs)).trans (if_neg hm)

theorem armBank_of_no_context (hs : s.fld w.status u ≠ 1) (hm : s.fld w.mask u = 0) :
    s.armBank w u owner true = (s.armShown w u).disarm w u 2 :=
  (if_neg (by simpa using hs)).trans (if_pos hm)

theorem armBank_refused {valid : Bool} (h : s.fld w.status u = 1 ∨ valid = false) :
    s.armBank w u owner valid = s.log w.kind (w.per * u) owner (w.arm.addr u 0 0) :=
  if_pos (by simpa using h)

theorem cancelBank_of_armed (hs : s.fld w.status u = 1) : s.cancelBank w u = s.disarm w u 3 := if_pos hs

theorem shadowFrom_of_free (hs : s.fld w.status u ≠ 1) : s.shadowFrom w u owner = s.copyBank w u (s.fld w.src u) 16 := if_neg hs

theorem shadowFrom_of_armed (hs : s.fld w.status u = 1) :
    s.shadowFrom w u owner = s.log w.kind (w.per * u) owner (w.src.addr u 0 0) := if_pos hs

end

/-- The commands of a unit that run the operations of a bank window do what those operations do, case by case. -/
theorem yields_bankCommands {s : State} {w : BankWin} {u owner : Nat} {valid : Bool} {arm cancel copy : Instr}
    (ha : Yields arm s (s.dev.armBank w u owner valid)) (hc : Yields cancel s (s.dev.cancelBank w u))
    (hb : Yields copy s (s.dev.shadowFrom w u owner)) :
    (s.dev.fld w.status u ≠ 1 → valid = true → s.dev.fld w.mask u ≠ 0 → Yields arm s ((s.dev.armShown w u).setF w.arm 1 u)) ∧
    (s.dev.fld w.status u ≠ 1 → valid = true → s.dev.fld w.mask u = 0 → Yields arm s ((s.dev.armShown w u).disarm w u 2)) ∧
    (s.dev.fld w.status u = 1 ∨ valid = false → Yields arm s (s.dev.log w.kind (w.per * u) owner (w.arm.addr u 0 0))) ∧
    (s.dev.fld w.status u = 1 → Yields cancel s (s.dev.disarm w u 3)) ∧
    (s.dev.fld w.status u ≠ 1 → Yields copy s (s.dev.copyBank w u (s.dev.fld w.src u) 16)) ∧
    (s.dev.fld w.status u = 1 → Yields copy s (s.dev.log w.kind (w.per * u) owner (w.src.addr u 0 0))) := by
  refine ⟨fun hs hv hm => ?_, fun hs hv hm => ?_, fun h => ?_, fun hs => ?_, fun hs => ?_, fun hs => ?_⟩
  · subst hv
    exact armBank_of_contexts owner hs hm ▸ ha
  · subst hv
    exact armBank_of_no_context owner hs hm ▸ ha
  · exact armBank_refused owner h ▸ ha
  · exact cancelBank_of_armed hs ▸ hc
  · exact shadowFrom_of_free owner hs ▸ hb
  · exact shadowFrom_of_armed owner hs ▸ hb

/-- Settles O17: every kind of unit runs the operations of its bank window (`yields_bankCommands`). -/
theorem parameterCommits : Obligations.ParameterCommits := by
  rintro s _ rfl
  exact ⟨fun t => yields_bankCommands rfl rfl rfl, fun u => yields_bankCommands rfl rfl rfl, fun u => yields_bankCommands rfl rfl rfl⟩

end Sys2Proof.Machine
end

section
/-! PROOFS. Kaleidoscope units and resampler streams (chapters 06 and 07): the items that they copy from their inputs (R188, R209), and the
sets and groups that they emit (R186, R208). -/

namespace Sys2Proof.Machine

/-! ### Items copied and sets emitted by a Kaleidoscope unit (R174, R186, R188, R272) -/

/-- The device as a Kaleidoscope unit looks at its input: the item there may have switched its configuration (R272). -/
def Dev.kalSwitched (s : Dev) (u : Nat) : Dev :=
  s.switchAt 4 u (s.kal u).block.isSome (fun c => [c.fld Reg.KAL_CTRL.in_q u])

/-- A unit that may work, and owes no end of block, finds an item at the front of its input. -/
structure Dev.KalFinds (a : Dev) (u : Nat) (sc : Scan) : Prop where
  ready : a.kalReady u = true
  settled : (a.kal u).ending = none
  item : a.peekItem (a.kalIn u) (some (a.kalWidth u)) = some sc

section
variable {s a : Dev} {u : Nat} {sc : Scan}

/-- Of a block that is not skipped, an item with a tag goes to the ring of its context. -/
theorem kalCopy_of_head {h : Cell} (ha : s.kalSwitched u = a) (hf : a.KalFinds u sc) (hs : (a.kal u).skipping = false)
    (hh : sc.item.head? = some h) : s.kalCopy u = a.kalStore u (a.kalIn u) sc h := by
  obtain ⟨hr, he, hi⟩ := hf
  subst ha
  unfold Dev.kalSwitched at *
  cases hk : sc.item with
  | line _ _ _ | ell _ | bad _ =>
    obtain rfl := Option.some.inj ((congrArg Item.head? hk).symm.trans hh)
    simp [Dev.kalCopy, Item.head?, hr, he, hi, hk, hs]
  | pil _ _ | stop | noise => simp [hk, Item.head?] at hh

theorem kalCopy_of_pilcrow {c : Cell} (ha : s.kalSwitched u = a) (hf : a.KalFinds u sc) (hp : sc.item = .pil c false) :
    s.kalCopy u = ((a.takeScan (a.kalIn u) sc).kalPil u c).releaseItem (a.kalIn u) sc.item := by
  obtain ⟨hr, he, hi⟩ := hf
  subst ha
  unfold Dev.kalSwitched at *
  simp [Dev.kalCopy, hr, he, hi, hp]

theorem kalEmit_of_due {c mismatches j : Nat} {g : KalGroup} (errs : List BufErr) (hr : s.kalReady u = true)
    (ho : (List.range (s.kalOuts u)).all (fun o => !s.qStalled (s.kalOutQ u o)) = true)
    (hg : (s.kalGroups u c).zipIdx.find? (fun gi => !gi.1.emitted) = some (g, j))
    (hw : (s.kal u).ending.isSome = true ∨ s.groupWhole u c (j + s.kalDelta u (s.bankOf kalWin u c g.index)) = true) :
    s.kalEmit u c mismatches errs = s.kalSet u c j mismatches g errs := by
  simp only [Dev.kalEmit, hr, ho, hg, Bool.and_self, if_true, if_pos hw]

end

theorem yields_kalInputCopy {s : State} {u : Fin 32} {d : Dev} (hf : (s.dev.part (s.dev.kalOwner u.val)).stalled = false)
    (hd : s.dev.kalCopy u.val = d) : Yields (.kalInputCopy u) s d :=
  yields_of_run (fun d => d.unlessStalled (d.kalOwner u.val) (fun e => e.kalCopy u.val)) rfl ((unlessStalled_of_free _ hf).trans hd)

theorem yields_kalSetEmit {s : State} {u : Fin 32} {c : Ctx} {m : Fin 3} {errs : List BufErr} {d : Dev}
    (hf : (s.dev.part (s.dev.kalOwner u.val)).stalled = false) (hd : s.dev.kalEmit u.val c.val m.val errs = d) :
    Yields (.kalSetEmit u c m errs) s d :=
  yields_of_run (fun d => d.unlessStalled (d.kalOwner u.val) (fun e => e.kalEmit u.val c.val m.val errs)) rfl
    ((unlessStalled_of_free _ hf).trans hd)

theorem kaleidoscopeLines : Claim.KaleidoscopeLines := by
  refine ⟨fun s u sc hf hr he hi => ?_, fun s u c m errs g j hf hr ho hg hw => ?_⟩
  · have found : (s.dev.kalSwitched u.val).KalFinds u.val sc := ⟨hr, he, hi⟩
    refine ⟨fun h b data hs hk => ?_, fun h hs hk => ?_, fun c hk => ?_⟩
    · exact yields_kalInputCopy hf (kalCopy_of_head rfl found hs (congrArg Item.head? hk))
    · exact yields_kalInputCopy hf (kalCopy_of_head rfl found hs (congrArg Item.head? hk))
    · exact yields_kalInputCopy hf (kalCopy_of_pilcrow rfl found hk)
  · exact yields_kalSetEmit hf (kalEmit_of_due errs hr ho hg hw)

/-! ### Items copied and groups emitted by a resampler stream (R195, R208, R209, R272) -/

/-- The device as a resampler stream looks at its input: the item there may have switched the configuration of its unit (R272). -/
def Dev.pgrSwitched (s : Dev) (u st : Nat) : Dev :=
  s.switchAt 5 (pgrInst u 0) (s.pgr (pgrInst u st)).block.isSome (fun c => [c.fld Reg.PGR_STREAM_A.in_q u st])

/-- A stream that may work, and owes no end of block, finds an item at the front of its input. -/
structure Dev.PgrFinds (a : Dev) (u st : Nat) (sc : Scan) : Prop where
  ready : a.pgrReady u st = true
  settled : (a.pgr (pgrInst u st)).ending = none
  item : a.peekItem (a.pgrIn u st) (some (a.pgrWidth u st)) = some sc

section
variable {s a : Dev} {u st : Nat} {sc : Scan}

/-- Of a block that is not skipped, an item with a tag goes to the ring of its context. -/
theorem pgrCopy_of_head {h : Cell} (ha : s.pgrSwitched u st = a) (hf : a.PgrFinds u st sc)
    (hs : (a.pgr (pgrInst u st)).skipping = false) (hh : sc.item.head? = some h) :
    s.pgrCopy u st = a.pgrStore u st (a.pgrIn u st) sc h := by
  obtain ⟨hr, he, hi⟩ := hf
  subst ha
  unfold Dev.pgrSwitched at *
  cases hk : sc.item with
  | line _ _ _ | ell _ | bad _ =>
    obtain rfl := Option.some.inj ((congrArg Item.head? hk).symm.trans hh)
    simp [Dev.pgrCopy, Item.head?, hr, he, hi, hk, hs]
  | pil _ _ | stop | noise => simp [hk, Item.head?] at hh

theorem pgrCopy_of_pilcrow {c : Cell} (ha : s.pgrSwitched u st = a) (hf : a.PgrFinds u st sc) (hp : sc.item = .pil c false) :
    s.pgrCopy u st = ((a.takeScan (a.pgrIn u st) sc).pgrPil u st c).releaseItem (a.pgrIn u st) sc.item := by
  obtain ⟨hr, he, hi⟩ := hf
  subst ha
  unfold Dev.pgrSwitched at *
  simp [Dev.pgrCopy, hr, he, hi, hp]

theorem pgrEmit_of_turn {mismatches : Nat} {g : PgrGroup} (errs : List BufErr) (hr : s.pgrReady u st = true)
    (ho : s.qStalled (s.pgrOut u st) = false) (hg : s.pgrNext u st = some g) (ht : s.pgrTurn u st g = true) :
    s.pgrEmit u st mismatches errs = s.pgrOutput u st mismatches g errs := by
  have next : (s.pgrNext u st).filter (s.pgrTurn u st) = some g := Option.filter_eq_some_iff.mpr ⟨hg, ht⟩
  simp only [Dev.pgrEmit, hr, ho, next, Bool.not_false, Bool.and_self, if_true]

end

theorem yields_pgrInputCopy {s : State} {u : Fin 32} {st : Strm} {d : Dev} (hf : (s.dev.part (s.dev.pgrOwner u.val)).stalled = false)
    (hd : s.dev.pgrCopy u.val st.val = d) : Yields (.pgrInputCopy u st) s d :=
  yields_of_run (fun d => d.unlessStalled (d.pgrOwner u.val) (fun e => e.pgrCopy u.val st.val)) rfl ((unlessStalled_of_free _ hf).trans hd)

theorem yields_pgrOutputEmit {s : State} {u : Fin 32} {st : Strm} {m : Fin 3} {errs : List BufErr} {d : Dev}
    (hf : (s.dev.part (s.dev.pgrOwner u.val)).stalled = false) (hd : s.dev.pgrEmit u.val st.val m.val errs = d) :
    Yields (.pgrOutputEmit u st m errs) s d :=
  yields_of_run (fun d => d.unlessStalled (d.pgrOwner u.val) (fun e => e.pgrEmit u.val st.val m.val errs)) rfl
    ((unlessStalled_of_free _ hf).trans hd)

theorem resamplerLines : Claim.ResamplerLines := by
  refine ⟨fun s u st sc hf hr he hi => ?_, fun s u st m errs g hf hr ho hg ht => ?_⟩
  · have found : (s.dev.pgrSwitched u.val st.val).PgrFinds u.val st.val sc := ⟨hr, he, hi⟩
    refine ⟨fun h b data hs hk => ?_, fun h hs hk => ?_, fun c hk => ?_⟩
    · exact yields_pgrInputCopy hf (pgrCopy_of_head rfl found hs (congrArg Item.head? hk))
    · exact yields_pgrInputCopy hf (pgrCopy_of_head rfl found hs (congrArg Item.head? hk))
    · exact yields_pgrInputCopy hf (pgrCopy_of_pilcrow rfl found hk)
  · exact yields_pgrOutputEmit hf (pgrEmit_of_turn errs hr ho hg ht)

/-- Settles O18: items copied by `kalCopy_of_head` and `pgrCopy_of_head`, what is emitted by `kalEmit_of_due` and `pgrEmit_of_turn`. -/
theorem mosaicAndGrid : Obligations.MosaicAndGrid := ⟨kaleidoscopeLines, resamplerLines⟩

end Sys2Proof.Machine
end

section
/-! PROOFS. Jigsaw units and their collectors (chapter 08): the rounds of a unit as they open, are written and reach their deadline (R217,
R218, R227), and the turns and deadlines of a collector (R230–R233). -/

namespace Sys2Proof.Machine

/-! ### The rounds of a Jigsaw unit (R217, R218, R226, R227) -/

/-- The instant of the earliest commit of a grid index at a side of a unit, by which its round is stamped. -/
def Dev.roundStamp (a : Dev) (j n : Nat) : Nat :=
  let stamps := ((a.jigSides j).filter (fun x => a.sideIndex x == some n)).map (fun x => a.frontStamp x.queue)
  stamps.foldl min ((stamps.head?).getD a.now)

/-- The unit with its round of a grid index open, and every side marked. -/
def Dev.roundOpened (a : Dev) (j n : Nat) : Dev :=
  ((a.jigSides j).foldl (fun d x => d.qMark x.queue) a).modJig j (fun r => { r with round := some (n, a.roundStamp j n) })

/-- May the round of a unit be written: no write waits, no lower round is due, and no expected side is waited for? -/
structure Dev.RoundWhole (a : Dev) (j n : Nat) : Prop where
  writes : a.qStalled (a.jigOut j) = false
  inBlock : (a.jig j).pil.isSome = true
  lowest : (a.lowerDue j n).isEmpty = true
  sides : (a.expectedSides j n).all (fun x => a.behind j x.num || a.delivered j n x) = true

/-- The unit with its round written, the inputs that the round took released, and what then stands at its sides absorbed. -/
def Dev.roundWritten (a : Dev) (j n mismatches : Nat) (errs : List BufErr) : Dev :=
  let gen := ((a.presents j n).find? (fun p => p.side.num < 16)).map (fun p => p.line.tag.gen)
  let taken := (a.expectedSides j n).filterMap (fun x => (a.sideRound n x).map (fun sc => (x.queue, sc.item.closes)))
  let b := (a.jigConsume j n).roundDone j n (gen.getD (a.jig j).lastGen)
  ((a.jigWrite b j n mismatches (a.endsWith j n) errs).jigRelease j taken).jigAbsorbAll j

/-- Is a side missing at the deadline of a round: due for a lower round, or expected in this one and neither delivered nor behind? -/
def Dev.missesRound (b : Dev) (j n : Nat) (x : Side) : Bool :=
  (b.lowerDue j n).contains x || (b.expects n x && !b.behind j x.num && !b.delivered j n x)

/-- A side falls behind at the deadline of a round, with its LOG event. -/
def Dev.fallsBehind (d : Dev) (j n : Nat) (x : Side) : Dev :=
  (d.setBehind j x.num true).logAt (if x.num < 16 then Reg.JIG_STATE.behind else Reg.JIG_STATE.rem_behind) j 0 6 j (d.jigOwner j) n

section
variable {s a : Dev} {j n : Nat} (ha : s.jigPrepare j = a) (hr : a.jigReady j = true)
include ha hr

theorem roundOpen_of_due (hp : (a.jig j).pil.isSome = true) (ho : a.openIndex j = some n) (hb : a.opensBefore j n = true) :
    s.roundOpen j = a.roundOpened j n := by
  have due : (a.openIndex j).filter (a.opensBefore j) = some n := Option.filter_eq_some_iff.mpr ⟨ho, hb⟩
  subst ha
  simp only [Dev.roundOpen, due, hr, hp, Bool.and_self, if_true, Dev.roundOpened, Dev.roundStamp]

theorem roundReady_of_whole {t : Nat} (m : Nat) (errs : List BufErr) (hn : (a.jig j).round = some (n, t)) (hw : a.RoundWhole j n) :
    s.roundReady j m errs =
      if a.endsWith j n then (a.roundWritten j n m errs).jigShut j else (a.roundWritten j n m errs).jigClose j := by
  obtain ⟨hq, hp, hl, hs⟩ := hw
  subst ha
  simp only [Dev.roundReady, hn, hr, hq, hp, hl, hs, Bool.not_false, Bool.and_self, if_true, Dev.roundWritten]

theorem seamDeadline_of_round {b : Dev} {t : Nat} (hn : (a.jig j).round = some (n, t))
    (hb : a.reach (t + (a.jigCfg j).fld Reg.JIG_CTRL.seam_deadline j * Config.xcPs) = b) :
    s.seamDeadline j = ((b.jigSides j).filter (fun x => b.missesRound j n x)).foldl (fun d x => d.fallsBehind j n x) b := by
  subst ha hb
  simp only [Dev.seamDeadline, hn, hr, if_true, Dev.missesRound, Dev.fallsBehind]

end

theorem yields_roundOpen {s : State} {j : Fin 16} {d : Dev} (hf : (s.dev.part (s.dev.jigOwner j.val)).stalled = false)
    (hd : s.dev.roundOpen j.val = d) : Yields (.roundOpen j) s d :=
  yields_of_run (fun d => d.unlessStalled (d.jigOwner j.val) (fun e => e.roundOpen j.val)) rfl ((unlessStalled_of_free _ hf).trans hd)

theorem yields_roundReady {s : State} {j : Fin 16} {m : Fin 3} {errs : List BufErr} {d : Dev}
    (hf : (s.dev.part (s.dev.jigOwner j.val)).stalled = false) (hd : s.dev.roundReady j.val m.val errs = d) :
    Yields (.roundReady j m errs) s d :=
  yields_of_run (fun d => d.unlessStalled (d.jigOwner j.val) (fun e => e.roundReady j.val m.val errs)) rfl
    ((unlessStalled_of_free _ hf).trans hd)

theorem yields_seamDeadline {s : State} {j : Fin 16} {d : Dev} (hf : (s.dev.part (s.dev.jigOwner j.val)).stalled = false)
    (hd : s.dev.seamDeadline j.val = d) : Yields (.seamDeadline j) s d :=
  yields_of_run (fun d => d.unlessStalled (d.jigOwner j.val) (fun e => e.seamDeadline j.val)) rfl ((unlessStalled_of_free _ hf).trans hd)

theorem jigsawRounds : Claim.JigsawRounds := by
  intro s j hf a hr
  refine ⟨fun n hp ho hb => ?_, fun n t m errs hn hq hp hl hs => ?_, fun n t hn => ?_⟩
  · exact yields_roundOpen hf (roundOpen_of_due rfl hr hp ho hb)
  · have written := roundReady_of_whole rfl hr m.val errs hn ⟨hq, hp, hl, hs⟩
    exact ⟨fun he => yields_roundReady hf (written.trans (if_pos he)),
      fun he => yields_roundReady hf (written.trans (if_neg (Bool.eq_false_iff.mp he)))⟩
  · exact yields_seamDeadline hf (seamDeadline_of_round rfl hr hn rfl)

/-! ### The turns and deadlines of a collector (R230–R233, R272) -/

/-- The device at the block deadline of a collector, with the rounds that are due written. -/
def Dev.roundsExpired (a : Dev) (m : MergeCfg) (deadline : Nat) : Dev :=
  (((a.reach deadline).mAbsorbAll m).expireRounds m 100000).mAbsorbAll m

/-- The inputs of a merge node that have not ended its open block. -/
def Dev.inputsLeft (b : Dev) (m : MergeCfg) : List Nat :=
  (List.range m.inputs.length).filter (fun i => !(b.merge m.key).ended.contains i)

/-- The inputs left count as ended, those among them that had opened the block as lagging, and the forced closure is counted. -/
def Dev.endsForced (b : Dev) (m : MergeCfg) (j : Nat) : Dev :=
  (b.setMerge m.key { b.merge m.key with
    ended := List.range m.inputs.length, forced := true
    lagging := (b.merge m.key).lagging ++ (b.inputsLeft m).filter (fun i => (b.merge m.key).opened.contains i) }).bump
      Reg.JIG_COL_STAT2.forced_closures j

section
variable {s a : Dev} {j : Nat} (ha : s.colPrepare j = a) (hr : a.colReady j = true)
include ha hr

theorem colTurn_of_ready : s.colTurn j = a.mTurn (a.colMerge j) := by
  subst ha
  exact if_pos hr

variable {m : MergeCfg} {c : Grain} {t : Nat} (hm : a.colMerge j = m) (hq : a.qStalled m.out = false)
include hm hq

theorem colDeadline_of_round {b : Dev} {n : Nat} (hb : a.mAbsorbAll m = b) (hn : (b.merge m.key).round = some n)
    (hp : (b.merge m.key).pil = some c) (ht : b.colBase (pilBlockOf c) (b.linePos ((n + 1) % 2 ^ 48)) = some t) :
    s.colDeadline j = ((((b.reach (t + b.colWait j)).mExpire 300 m n).mAbsorbAll m).mCloseBlock m).mAbsorbAll m := by
  subst ha hm hb
  simp only [Dev.colDeadline, hr, hq, Bool.not_false, Bool.and_self, if_true, hn, hp, ht]

theorem blockDeadline_of_inputs_left {b : Dev} {e : Nat} (hp : (a.merge m.key).pil = some c) (he : a.blockEnd (pilBlockOf c) = some e)
    (ht : a.colBase (pilBlockOf c) (a.linePos e) = some t) (hb : a.roundsExpired m (t + a.colWait j) = b)
    (hw : b.qStalled m.out = false) (ho : (b.merge m.key).pil = some c) (hl : b.inputsLeft m ≠ []) :
    s.blockDeadline j = ((b.endsForced m j).mCloseBlock m).mAbsorbAll m := by
  have left : (b.merge m.key).pil = some c ∧ (!(b.inputsLeft m).isEmpty) = true := ⟨ho, by simp [hl]⟩
  subst ha hm hb
  unfold Dev.roundsExpired Dev.inputsLeft at *
  simp only [Dev.blockDeadline, hp, he, ht, hr, hq, hw, Bool.not_false, Bool.and_self, if_true, Bool.false_eq_true, if_false]
  exact if_pos left

end

theorem yields_collectorRound {s : State} {j : Fin 16} {d : Dev}
    (hf : (s.dev.part ((s.dev.colCfg j.val).fld Reg.JIG_CTRL.owner j.val)).stalled = false) (hd : s.dev.colTurn j.val = d) :
    Yields (.collectorRound j) s d :=
  yields_of_run (fun d => d.unlessStalled ((d.colCfg j.val).fld Reg.JIG_CTRL.owner j.val) (fun e => e.colTurn j.val)) rfl
    ((unlessStalled_of_free _ hf).trans hd)

theorem yields_collectorDeadline {s : State} {j : Fin 16} {d : Dev}
    (hf : (s.dev.part ((s.dev.colCfg j.val).fld Reg.JIG_CTRL.owner j.val)).stalled = false) (hd : s.dev.colDeadline j.val = d) :
    Yields (.collectorDeadline j) s d :=
  yields_of_run (fun d => d.unlessStalled ((d.colCfg j.val).fld Reg.JIG_CTRL.owner j.val) (fun e => e.colDeadline j.val)) rfl
    ((unlessStalled_of_free _ hf).trans hd)

theorem yields_blockDeadline {s : State} {j : Fin 16} {d : Dev}
    (hf : (s.dev.part ((s.dev.colCfg j.val).fld Reg.JIG_CTRL.owner j.val)).stalled = false) (hd : s.dev.blockDeadline j.val = d) :
    Yields (.blockDeadline j) s d :=
  yields_of_run (fun d => d.unlessStalled ((d.colCfg j.val).fld Reg.JIG_CTRL.owner j.val) (fun e => e.blockDeadline j.val)) rfl
    ((unlessStalled_of_free _ hf).trans hd)

theorem collectors : Claim.Collectors := by
  intro s j hf a m hr
  refine ⟨?_, fun n t c hq hn hp ht => ?_, fun c e t hq hp he ht hw ho hl => ?_⟩
  · exact yields_collectorRound hf (colTurn_of_ready rfl hr)
  · exact yields_collectorDeadline hf (colDeadline_of_round rfl hr rfl hq rfl hn hp ht)
  · exact yields_blockDeadline hf (blockDeadline_of_inputs_left rfl hr rfl hq hp he ht rfl hw ho hl)

/-- Settles O19: rounds by the cases of `roundOpen`, `roundReady` and `seamDeadline`, collectors by those of `colTurn`, `colDeadline` and
`blockDeadline`. -/
theorem jigsawAndCollectors : Obligations.JigsawAndCollectors := ⟨jigsawRounds, collectors⟩

end Sys2Proof.Machine
end

section
/-! PROOFS. Abacus units (chapter 09): the items that a unit reads from its input (R239, R251, R253), and the contexts that a reseed marks
(R248). -/

namespace Sys2Proof.Machine

/-! ### What a unit does with an item (R239, R244, R253) -/

/-- The item at the front of a queue is taken, and nothing else happens. -/
def Dev.abaAway (b : Dev) (q : Nat) (sc : Scan) : Dev := (b.takeScan q sc).releaseItem q sc.item

/-- An ellipsis is counted for its context, with its blemishes (R244). -/
def Dev.abaEllipsis (d : Dev) (u : Nat) (c : Cell) : Dev :=
  d.setAcc u (Tag.of c.1).ctx { d.abaAcc u (Tag.of c.1).ctx with
    ellipses := (d.abaAcc u (Tag.of c.1).ctx).ellipses + 1, head := (d.abaAcc u (Tag.of c.1).ctx).head.or (Blemish.of c.2) }

/-- A pilcrow is taken and opens its block. -/
def Dev.abaOpens (d : Dev) (u q : Nat) (sc : Scan) (c : Cell) : Dev := ((d.takeScan q sc).abaPil u c).releaseItem q sc.item

/-- What a unit does with the item that it reads from its input `q`: the turn of `Dev.abaTurn` once it finds one (`abaTurn_of_finds`). -/
def Dev.abaReads (b : Dev) (u m q : Nat) (sc : Scan) : Dev :=
  match sc.item with
  | .pil c cut => (if cut ∧ (b.aba u).pil.isSome then b.abaClose u [] false else b).abaOpens u q sc c
  | .line h br data => if (b.aba u).pil.isNone then b.abaPast u q sc h else b.abaLine u m q sc h br data
  | .ell c =>
    if (b.aba u).pil.isSome ∧ b.abaCtx u (Tag.of c.1).ctx then (b.abaAway q sc).abaEllipsis u c
    else if b.abaCtx u (Tag.of c.1).ctx then b.abaAway q sc else (b.abaAway q sc).bump Reg.ABA_STAT.lines_skipped u
  | .stop => if (b.aba u).pil.isSome then ((b.takeScan q sc).abaClose u [] false).releaseItem q sc.item else b.abaAway q sc
  | .bad _ | .noise => b.abaAway q sc

section
variable {b : Dev} {u q : Nat} {sc : Scan} (m : Nat)

theorem abaReads_of_line_in_block {h br : Cell} {data : List Cell} (hk : sc.item = .line h br data) (hp : (b.aba u).pil.isSome = true) :
    b.abaReads u m q sc = b.abaLine u m q sc h br data := by
  simp [Dev.abaReads, hk, Option.ne_none_iff_isSome.mpr hp]

theorem abaReads_of_line_outside {h br : Cell} {data : List Cell} (hk : sc.item = .line h br data) (hp : (b.aba u).pil = none) :
    b.abaReads u m q sc = b.abaPast u q sc h := by
  simp [Dev.abaReads, hk, hp]

theorem abaReads_of_ellipsis_in_block {c : Cell} (hk : sc.item = .ell c) (hc : b.abaCtx u (Tag.of c.1).ctx = true)
    (hp : (b.aba u).pil.isSome = true) : b.abaReads u m q sc = (b.abaAway q sc).abaEllipsis u c := by
  simp [Dev.abaReads, hk, hc, hp]

theorem abaReads_of_ellipsis_outside {c : Cell} (hk : sc.item = .ell c) (hc : b.abaCtx u (Tag.of c.1).ctx = true)
    (hp : (b.aba u).pil = none) : b.abaReads u m q sc = b.abaAway q sc := by
  simp [Dev.abaReads, hk, hc, hp]

theorem abaReads_of_ellipsis_skipped {c : Cell} (hk : sc.item = .ell c) (hc : b.abaCtx u (Tag.of c.1).ctx = false) :
    b.abaReads u m q sc = (b.abaAway q sc).bump Reg.ABA_STAT.lines_skipped u := by
  simp [Dev.abaReads, hk, hc]

theorem abaReads_of_pilcrow {c : Cell} {cut : Bool} (hk : sc.item = .pil c cut) (ho : cut = false ∨ (b.aba u).pil = none) :
    b.abaReads u m q sc = b.abaOpens u q sc c := by
  have whole : ¬(cut = true ∧ (b.aba u).pil.isSome = true) := by rcases ho with ho | ho <;> simp [ho]
  simp only [Dev.abaReads, hk, if_neg whole]

theorem abaReads_of_cutting_pilcrow {c : Cell} {cut : Bool} (hk : sc.item = .pil c cut) (hc : cut = true)
    (hp : (b.aba u).pil.isSome = true) : b.abaReads u m q sc = (b.abaClose u [] false).abaOpens u q sc c := by
  simp [Dev.abaReads, hk, hc, hp]

theorem abaReads_of_stop_in_block (hk : sc.item = .stop) (hp : (b.aba u).pil.isSome = true) :
    b.abaReads u m q sc = ((b.takeScan q sc).abaClose u [] false).releaseItem q sc.item := by
  simp [Dev.abaReads, hk, hp]

theorem abaReads_of_stop_outside (hk : sc.item = .stop) (hp : (b.aba u).pil = none) : b.abaReads u m q sc = b.abaAway q sc := by
  simp [Dev.abaReads, hk, hp]

theorem abaReads_of_bad {h : Cell} (hk : sc.item = .bad h) : b.abaReads u m q sc = b.abaAway q sc := by
  simp only [Dev.abaReads, hk]

theorem abaReads_of_noise (hk : sc.item = .noise) : b.abaReads u m q sc = b.abaAway q sc := by
  simp only [Dev.abaReads, hk]

end

/-! ### The turn of a unit (R251, R272, R376) -/

/-- The device as an Abacus unit looks at its input: the item there may have switched its configuration (R272). -/
def Dev.abaSwitched (s : Dev) (u : Nat) : Dev :=
  s.switchAt 7 u (s.aba u).pil.isSome (fun c => [c.fld Reg.ABA_CTRL.in_q u])

/-- A unit that may work finds an item at the front of its input. -/
structure Dev.AbaFinds (a : Dev) (u : Nat) (sc : Scan) : Prop where
  ready : a.abaReady u = true
  item : a.peekItem (a.abaIn u) (some (a.abaWidth u)) = some sc

/-- A unit's turn comes down to the item that it reads, with the grains that the buffer errors strike spoiled, and their ALARM. -/
theorem abaTurn_of_finds {s a : Dev} {u : Nat} {sc : Scan} (m : Nat) (errs : List BufErr) (ha : s.abaSwitched u = a) (hf : a.AbaFinds u sc) :
    s.abaTurn u m errs =
      (a.bufferAlarms 7 u (sc.item.lost errs)).abaReads u m (a.abaIn u) { sc with item := sc.item.strike errs } := by
  obtain ⟨hr, hi⟩ := hf
  subst ha
  unfold Dev.abaSwitched at *
  simp only [Dev.abaTurn, hr, hi, if_true] <;> rfl

theorem yields_abacusLine {s : State} {u : Fin 64} {m : Fin 3} {errs : List BufErr} {d : Dev}
    (hf : (s.dev.part (s.dev.abaOwner u.val)).stalled = false) (hd : s.dev.abaTurn u.val m.val errs = d) :
    Yields (.abacusLine u m errs) s d :=
  yields_of_run (fun d => d.unlessStalled (d.abaOwner u.val) (fun e => e.abaTurn u.val m.val errs)) rfl
    ((unlessStalled_of_free _ hf).trans hd)

theorem yields_abacusReseed (s : State) (u : Fin 64) (mask : BitVec 16) :
    Yields (.abacusReseed u mask) s (s.dev.setF Reg.ABA_SCREEN.reseed (s.dev.fld Reg.ABA_SCREEN.reseed u.val ||| mask.toNat) u.val) :=
  yields_of_run (fun d => d.setF Reg.ABA_SCREEN.reseed (d.fld Reg.ABA_SCREEN.reseed u.val ||| mask.toNat) u.val) rfl rfl

/-- Settles O20: a turn by `abaTurn_of_finds` and the cases of `abaReads`. -/
theorem abacusLines : Obligations.AbacusLines := by
  refine ⟨fun s u m errs sc0 hf => ?_, yields_abacusReseed⟩
  intro a q sc b away hr hi
  have reads {d : Dev} (hd : b.abaReads u.val m.val q sc = d) : Yields (.abacusLine u m errs) s d :=
    yields_abacusLine hf ((abaTurn_of_finds m.val errs rfl ⟨hr, hi⟩).trans hd)
  refine ⟨fun h br data hk => ⟨fun hp => ?_, fun hp => ?_⟩, fun c hk => ⟨fun hc hp => ?_, fun hc hp => ?_, fun hc => ?_⟩,
    fun c cut hk => ⟨fun ho => ?_, fun hc hp => ?_⟩, fun hk => ⟨fun hp => ?_, fun hp => ?_⟩, fun h hk => ?_, fun hk => ?_⟩
  · exact reads (abaReads_of_line_in_block _ hk hp)
  · exact reads (abaReads_of_line_outside _ hk hp)
  · exact reads (abaReads_of_ellipsis_in_block _ hk hc hp)
  · exact reads (abaReads_of_ellipsis_outside _ hk hc hp)
  · exact reads (abaReads_of_ellipsis_skipped _ hk hc)
  · exact reads (abaReads_of_pilcrow _ hk ho)
  · exact reads (abaReads_of_cutting_pilcrow _ hk hc hp)
  · exact reads (abaReads_of_stop_in_block _ hk hp)
  · exact reads (abaReads_of_stop_outside _ hk hp)
  · exact reads (abaReads_of_bad _ hk)
  · exact reads (abaReads_of_noise _ hk)

end Sys2Proof.Machine
end

section
/-! PROOFS. What a command does outside the device: it burns fuses at most (R258, R261, R262), and leaves the commands that wait. -/

namespace Sys2Proof.Machine

namespace Fuses

theorem covers_refl (f : Fuses) : f.covers f := ⟨le_rfl, BitVec.and_self, rfl, rfl, rfl⟩

theorem covers_trans {f g h : Fuses} (hg : g.covers f) (hh : h.covers g) : h.covers f := by
  obtain ⟨count, slots, prog, uid, dbg⟩ := hg
  obtain ⟨count', slots', prog', uid', dbg'⟩ := hh
  refine ⟨count.trans count', ?_, prog'.trans prog, uid'.trans uid, dbg'.trans dbg⟩
  calc f.revoked &&& h.revoked
      = f.revoked &&& (g.revoked &&& h.revoked) := by rw [← BitVec.and_assoc, slots]
    _ = f.revoked := by rw [slots', slots]

theorem covers_raised (f : Fuses) (n : Nat) : Fuses.covers { f with rollback := max f.rollback n } f :=
  ⟨le_max_left _ _, BitVec.and_self, rfl, rfl, rfl⟩

theorem covers_revoked (f : Fuses) (slots : BitVec 4) : Fuses.covers { f with revoked := f.revoked ||| slots } f := by
  refine ⟨le_rfl, ?_, rfl, rfl, rfl⟩
  ext i
  simp +contextual

end Fuses

/-- The state `t` differs from `s` outside the device at most by fuses that were burnt since: the same commands wait. -/
structure Burns (s t : State) : Prop where
  fuses : t.fuses.covers s.fuses
  pending : t.pending = s.pending

namespace Burns

variable {s t u : State}

theorem refl (s : State) : Burns s s := ⟨s.fuses.covers_refl, rfl⟩

theorem trans (h : Burns s t) (g : Burns t u) : Burns s u := ⟨Fuses.covers_trans h.fuses g.fuses, g.pending.trans h.pending⟩

/-- What the device becomes is nothing outside it. -/
theorem withDev (h : Burns s t) (d : Dev) : Burns s { t with dev := d } := ⟨h.fuses, h.pending⟩

theorem ofDev (s : State) (d : Dev) : Burns s { s with dev := d } := (refl s).withDev d

end Burns

/-- The command completes, and outside the device its outcome differs at most by fuses burnt. -/
def BurnsAtMost (s : State) (o : Out) : Prop := ∃ t, o = .next t ∧ Burns s t

/-- A command that touches the device alone. -/
theorem BurnsAtMost.ofDev {s : State} {o : Out} {d : Dev} (h : o = .next { s with dev := d }) : BurnsAtMost s o := ⟨_, h, .ofDev s d⟩

theorem burns_coldReset (s : State) : Burns s s.coldReset := .ofDev s _

theorem burns_debugLock (s : State) : Burns s s.debugLock := by
  unfold State.debugLock
  split
  · exact .refl s
  · exact .ofDev s _

theorem burnsAtMost_rollbackBurnDone (s : State) : BurnsAtMost s (execRollbackBurnDone s) := by
  unfold execRollbackBurnDone
  split
  · exact ⟨s, rfl, .refl s⟩
  · exact ⟨_, rfl, s.fuses.covers_raised _, rfl⟩

theorem burnsAtMost_keyRevoke (slots : BitVec 4) (s : State) : BurnsAtMost s (execKeyRevoke slots s) :=
  ⟨_, rfl, s.fuses.covers_revoked slots, rfl⟩

theorem burnsAtMost_coldResetRequest (confirm : Byte) (s : State) : BurnsAtMost s (execColdResetRequest confirm s) := by
  unfold execColdResetRequest
  split
  · exact ⟨_, rfl, burns_coldReset s⟩
  · exact .ofDev rfl

/-! ### Register accesses -/

theorem Burns.after {s : State} {o : Out} (h : BurnsAtMost s o) : Burns s (s.after o) := by
  obtain ⟨t, rfl, ht⟩ := h
  exact ht

/-- A field whose write, of whatever value and by whomever, burns fuses at most. -/
def ActBurns (a : FieldAct) : Prop := ∀ h who v s, Burns s (a h who v s)

/-- A field whose write runs a command. -/
theorem actBurns_after {cmd : Reg.Hit → Requester → Nat → State → Out} (h : ∀ hit who v s, BurnsAtMost s (cmd hit who v s)) :
    ActBurns (fun hit who v s => s.after (cmd hit who v s)) := fun hit who v s => .after (h hit who v s)

theorem actBurns_devAct (f : Reg.Hit → Requester → Nat → Dev → Dev) : ActBurns (devAct f) := fun _ _ _ s => .ofDev s _

theorem actBurns_run : ActBurns (fun _ _ v s => s.after (if v = 1 then execRunSet s else execRunClear s)) := by
  intro _ _ v s
  dsimp only
  split
  · exact .after (.ofDev rfl)
  · exact .after (.ofDev rfl)

theorem actBurns_revoke : ActBurns (fun _ _ v s => s.after (execKeyRevoke (BitVec.ofNat 4 v) s)) :=
  fun _ _ _ s => .after (burnsAtMost_keyRevoke _ s)

theorem actBurns_relock : ActBurns (fun _ _ _ s => s.debugLock) := fun _ _ _ s => burns_debugLock s

theorem rwActs_burn : ∀ x ∈ rwActs, ActBurns x.2 := by
  simp only [rwActs, List.forall_mem_cons, List.not_mem_nil, false_implies, implies_true, and_true, actBurns_devAct, actBurns_run, true_and]
  exact ⟨actBurns_after fun _ _ _ _ => .ofDev rfl, actBurns_after fun _ _ _ _ => .ofDev rfl, actBurns_after fun _ _ _ _ => .ofDev rfl⟩

theorem startActs_burn : ∀ x ∈ startActs, ActBurns x.2 := by
  simp only [startActs, List.forall_mem_cons, List.not_mem_nil, false_implies, implies_true, and_true, actBurns_devAct, actBurns_revoke,
    actBurns_relock, true_and]
  and_intros <;> exact actBurns_after fun _ _ _ _ => .ofDev rfl

namespace Burns

variable {s t : State}

theorem runActs (h : Burns s t) {acts : List (Reg.Fld × FieldAct)} (ha : ∀ x ∈ acts, ActBurns x.2) (hit : Reg.Hit) (who : Requester)
    (v : Word) (m : Nat) (which : Reg.Fld → Bool) : Burns s (t.runActs acts hit who v m which) := by
  refine List.foldlRecOn acts _ h fun u hu x hx => ?_
  split
  · exact hu.trans (ha x hx hit who _ u)
  · exact hu

theorem tmbReset (h : Burns s t) (w : Word) : Burns s (t.tmbReset w) := by
  have aborted : Burns s (t.after (execTmbPartitionAbort (BitVec.ofNat 16 (fieldOf Reg.TMB_RESET.abort w)) t)) :=
    h.trans (.after (.ofDev rfl))
  unfold State.tmbReset
  dsimp only
  split
  · exact aborted.trans (.after (burnsAtMost_coldResetRequest _ _))
  · split
    · exact aborted.trans (.after (.ofDev rfl))
    · exact aborted

end Burns

theorem burns_writeWord (s : State) (who : Requester) (key : Nat) (hit : Reg.Hit) (m : Nat) (v : Word) :
    Burns s (s.writeWord who key hit m v) := by
  unfold State.writeWord
  split
  · exact .ofDev s _
  · have acted := fun d new ok set starts =>
      (((Burns.ofDev s d).runActs rwActs_burn hit who new m ok).runActs startActs_burn hit who set m starts)
    dsimp only
    split
    · exact (acted _ _ _ _ _).tmbReset _
    · exact acted _ _ _ _ _

theorem burns_regWrite (s : State) (who : Requester) (a : Nat) (wide : Bool) (v : Word) : Burns s (s.regWrite who a wide v).1 := by
  unfold State.regWrite
  split
  · exact .refl s
  · split
    · exact .refl s
    · dsimp only
      split
      · exact .ofDev s _
      · split
        · exact .ofDev s _
        · split
          · exact .refl s
          · exact ((Burns.ofDev s _).trans (burns_writeWord _ _ _ _ _ _)).withDev _

theorem burns_readWord (s : State) (who : Requester) (a : Nat) (wide : Bool) (key : Nat) (hit : Reg.Hit) :
    Burns s (s.readWord who a wide key hit).2 := by
  unfold State.readWord
  dsimp only
  split_ifs
  · exact .ofDev s _
  · exact .ofDev s _
  · exact .refl s
  · exact .refl s
  · exact .ofDev s _

theorem burns_regRead (s : State) (who : Requester) (a : Nat) (wide : Bool) : Burns s (s.regRead who a wide).2.1 := by
  unfold State.regRead
  split
  · exact .refl s
  · split
    · exact .refl s
    · split
      · exact .ofDev s _
      · split
        · exact .ofDev s _
        · exact burns_readWord s _ _ _ _ _

theorem burns_hostWrite (s : State) (who : Requester) (a : Nat) (wide : Bool) (v : Word) : Burns s (s.hostWrite who a wide v).1 := by
  unfold State.hostWrite
  split
  · exact .ofDev s _
  · exact burns_regWrite s who a wide v

theorem burns_hostRead (s : State) (who : Requester) (a : Nat) (wide : Bool) : Burns s (s.hostRead who a wide).2.1 := by
  unfold State.hostRead
  split
  · exact .ofDev s _
  · exact burns_regRead s who a wide

theorem burnsAtMost_registerWrite (who : Requester) (a : Addr) (wide : Bool) (v : Word) (s : State) :
    BurnsAtMost s (execRegisterWrite who a wide v s) := ⟨_, rfl, (burns_hostWrite s _ _ _ _).withDev _⟩

theorem burnsAtMost_rcRead (who : Requester) (a : Addr) (wide : Bool) (incs : List (Nat × Nat)) (s : State) :
    BurnsAtMost s (execRcRead who a wide incs s) := by
  have read := burns_hostRead s who a.toNat wide
  refine ⟨_, rfl, .withDev ?_ _⟩
  split
  · split
    · exact read.withDev _
    · exact read
  · exact read

/-! ### The debug port -/

theorem burns_debugResponse (s : State) (r : BitVec 256) : Burns s (s.debugResponse r) := by
  unfold State.debugResponse
  dsimp only
  split_ifs
  · exact .ofDev s _
  · exact (Burns.ofDev s _).trans (burns_debugLock _)
  · exact .ofDev s _
  · exact .ofDev s _

theorem burns_hostOp (s : State) (o : DbgOp) : Burns s (s.hostOp o).2.1 := by
  unfold State.hostOp
  extract_lets a
  split
  · exact .refl s
  · split
    · exact burns_hostWrite s _ _ _ _
    · exact burns_hostRead s _ _ _

theorem burns_debugOp (s : State) (o : DbgOp) : Burns s (s.debugOp o).2.1 := by
  unfold State.debugOp
  split
  · exact .ofDev s _
  · exact burns_hostOp s o

theorem burns_accessDone (s : State) : Burns s s.accessDone := by
  unfold State.accessDone
  split
  · exact .refl s
  · exact (burns_debugOp s _).withDev _

theorem burnsAtMost_debugRelock (s : State) : BurnsAtMost s (execDebugRelock s) := by
  refine ⟨_, rfl, ?_⟩
  split
  · exact burns_debugLock s
  · exact .refl s

/-! ### Requests over KMP -/

/-- A request whose service burns fuses at most. -/
def ServiceBurns (v : Service) : Prop := ∀ s m, Burns s (v s m).1

theorem serviceBurns_devService (f : Dev → KmpMsg → Dev × Answer) : ServiceBurns (devService f) := fun s _ => .ofDev s _

theorem burns_readBurst (s : State) (who : Requester) (wide : Bool) (size a n : Nat) : Burns s (s.readBurst who wide size a n).1 := by
  induction n generalizing s a with
  | zero => exact .refl s
  | succ n ih =>
    unfold State.readBurst
    dsimp only
    split
    · exact (burns_hostRead s who a wide).trans (ih _ _)
    · exact burns_hostRead s who a wide

theorem burns_writeBurst (s : State) (who : Requester) (wide : Bool) (size a : Nat) (ws : List Nat) :
    Burns s (s.writeBurst who wide size a ws).1 := by
  induction ws generalizing s a with
  | nil => exact .refl s
  | cons w rest ih =>
    unfold State.writeBurst
    dsimp only
    split
    · exact (burns_hostWrite s who a wide _).trans (ih _ _)
    · exact burns_hostWrite s who a wide _

theorem serviceBurns_serveRead (wide : Bool) : ServiceBurns (serveRead wide) := by
  intro s m
  unfold serveRead
  split
  · exact burns_readBurst s _ _ _ _ _
  · exact .refl s

theorem serviceBurns_serveWrite (wide : Bool) : ServiceBurns (serveWrite wide) := by
  intro s m
  unfold serveWrite
  split
  · exact burns_writeBurst s _ _ _ _ _
  · exact .refl s

theorem serviceBurns_serviceOf (op : Nat) : ServiceBurns (serviceOf op) := by
  unfold serviceOf
  split_ifs
  · exact serviceBurns_devService _
  · exact serviceBurns_serveRead _
  · exact serviceBurns_serveRead _
  · exact serviceBurns_serveWrite _
  · exact serviceBurns_serveWrite _
  · exact serviceBurns_devService _
  · exact serviceBurns_devService _
  · exact serviceBurns_devService _
  · exact fun s _ => .refl s

theorem burns_accept (s : State) (u : Nat) (m : KmpMsg) : Burns s (s.accept u m).1 := by
  unfold State.accept
  dsimp only
  split_ifs
  · exact serviceBurns_serviceOf _ s m
  · exact .ofDev s _
  · exact .ofDev s _
  · exact (Burns.ofDev s _).trans (serviceBurns_serviceOf _ _ m)

theorem burns_kmpArrive (s : State) (u : Nat) (m : KmpMsg) : Burns s (s.kmpArrive u m) := by
  unfold State.kmpArrive
  split
  · exact .refl s
  · split
    · exact .ofDev s _
    · dsimp only
      split
      · exact burns_accept s u m
      · exact (burns_accept s u m).withDev _

theorem burns_kmpRequest (s : State) (op u : Nat) (m : KmpMsg) : Burns s (s.kmpRequest op u m) := by
  unfold State.kmpRequest
  split
  · exact burns_kmpArrive s u m
  · exact .refl s

theorem burnsAtMost_kmpUnknownOpcode (u : Uplink) (m : KmpMsg) (s : State) : BurnsAtMost s (execKmpUnknownOpcode u m s) := by
  refine ⟨_, rfl, ?_⟩
  split
  · exact .refl s
  · exact burns_kmpArrive s u.val m

theorem burns_relayRequest (s : State) (origin : Nat) (m : KmpMsg) : Burns s (s.relayRequest origin m) := by
  have accepted : Burns s (s.relayAccept m).1 := (Burns.ofDev s _).trans (burns_accept _ _ m)
  unfold State.relayRequest
  split
  · exact .refl s
  · dsimp only
    split
    · exact accepted
    · exact accepted.withDev _

theorem burns_relayed (s : State) (origin : Nat) (m : KmpMsg) : Burns s (s.relayed origin m) := by
  unfold State.relayed
  split
  · exact .ofDev s _
  · exact burns_relayRequest s origin m

theorem burnsAtMost_kmpRelayMessage (l : Link) (m : RingMsg) (s : State) : BurnsAtMost s (execKmpRelayMessage l m s) := by
  unfold execKmpRelayMessage
  split
  · split
    · exact ⟨s, rfl, .refl s⟩
    · refine ⟨_, rfl, ?_⟩
      split
      · exact (Burns.ofDev s _).trans (burns_relayed _ _ _)
      · exact .ofDev s _
  · exact ⟨s, rfl, .refl s⟩

/-! ### Every command -/

/-- Every command completes, burns fuses at most, and leaves the commands that wait: beside burns and revocations, accesses and resets,
all commands are operations of the device alone. -/
theorem exec_burnsAtMost (c : Instr) (s : State) : BurnsAtMost s (exec c s) := by
  cases c with
  | rollbackBurnDone => exact burnsAtMost_rollbackBurnDone s
  | keyRevoke slots => exact burnsAtMost_keyRevoke slots s
  | registerWrite who a wide v => exact burnsAtMost_registerWrite who a wide v s
  | rcRead who a wide incs => exact burnsAtMost_rcRead who a wide incs s
  | powerUp straps => exact ⟨_, rfl, (Burns.ofDev s _).trans (burns_coldReset _)⟩
  | resetPin => exact ⟨_, rfl, burns_coldReset s⟩
  | vio18Loss => exact ⟨_, rfl, burns_coldReset s⟩
  | coldResetRequest confirm => exact burnsAtMost_coldResetRequest confirm s
  | dbgResponse r => exact ⟨_, rfl, burns_debugResponse s r⟩
  | debugRelock => exact burnsAtMost_debugRelock s
  | accessComplete => exact ⟨_, rfl, burns_accessDone s⟩
  | kmpHello u m => exact ⟨_, rfl, burns_kmpRequest s _ u.val m⟩
  | kmpRead32 u m => exact ⟨_, rfl, burns_kmpRequest s _ u.val m⟩
  | kmpRead64 u m => exact ⟨_, rfl, burns_kmpRequest s _ u.val m⟩
  | kmpWrite32 u m => exact ⟨_, rfl, burns_kmpRequest s _ u.val m⟩
  | kmpWrite64 u m => exact ⟨_, rfl, burns_kmpRequest s _ u.val m⟩
  | imageChunk u m => exact ⟨_, rfl, burns_kmpRequest s _ u.val m⟩
  | kmpSync u m => exact ⟨_, rfl, burns_kmpRequest s _ u.val m⟩
  | noticeAck u m => exact ⟨_, rfl, burns_kmpRequest s _ u.val m⟩
  | kmpUnknownOpcode u m => exact burnsAtMost_kmpUnknownOpcode u m s
  | kmpRelayMessage l m => exact burnsAtMost_kmpRelayMessage l m s
  | _ => exact .ofDev rfl

/-- A step burns fuses at most: the tick of an empty queue touches the device alone. -/
theorem step_burns {s t : State} (h : step s = .next t) : t.fuses.covers s.fuses := by
  cases hp : s.pending with
  | nil =>
    obtain rfl : s.tick = t := Host.Outcome.next.inj ((step_of_idle s hp).symm.trans h)
    exact s.fuses.covers_refl
  | cons c rest =>
    obtain ⟨u, hu, burnt⟩ := exec_burnsAtMost c { s with pending := rest }
    have hs : step s = exec c { s with pending := rest } := by simp only [step, hp]
    obtain rfl : u = t := Host.Outcome.next.inj ((hu.symm.trans hs.symm).trans h)
    exact burnt.fuses

/-- Settles O52: a step covers the fuses before it (`step_burns`), and so what these cover. -/
theorem fusesOnlyBurn : Obligations.FusesOnlyBurn := fun _ _ _ since h => Fuses.covers_trans since (step_burns h)

/-- Settles O53: the fuses of the reset state are those that it is held against. -/
theorem fusesAtReset : Obligations.FusesAtReset := Fuses.covers_refl _

end Sys2Proof.Machine
end


section
/-! PROOFS. Images, their fuses, chain commits, retired queues and the configuration checker (chapter 10, R262–R276). -/

namespace Sys2Proof.Machine

/-! ### Loads, checks and discards (R263–R265, R276) -/

section
variable {s : Dev} {p : Nat}

theorem startLoad_of_busy (own : Bool) (h : s.img.loader.isSome = true ∨ s.readySent = true) : s.startLoad p own = s.refuseLoad irBusy :=
  if_pos h

theorem startLoad_of_frozen {own : Bool} (hl : s.img.loader = none) (hr : s.readySent = false) (ho : own = true ∨ p ≠ 0)
    (hf : s.flag Reg.IMG_STATUS.frozen = true) : s.startLoad p own = s.refuseLoad irFrozen := by
  simp [Dev.startLoad, hl, hr, ho, hf]

/-- A load starts: P0's of a full image always, any other while the configuration is not frozen. -/
theorem startLoad_of_free {own : Bool} (hl : s.img.loader = none) (hr : s.readySent = false)
    (hf : (own = false ∧ p = 0) ∨ s.flag Reg.IMG_STATUS.frozen = false) :
    s.startLoad p own = { (s.unstage.dropBuffer).imgShow 1 0 noSect with
      img := { ((s.unstage.dropBuffer).imgShow 1 0 noSect).img with loader := some (p, own || p != 0) } } := by
  have allowed : ¬((own = true ∨ p ≠ 0) ∧ s.flag Reg.IMG_STATUS.frozen = true) := by
    rintro ⟨ho, hz⟩
    rcases hf with ⟨rfl, rfl⟩ | hf
    · simp at ho
    · simp [hf] at hz
  unfold Dev.startLoad
  rw [if_neg (by simp [hl, hr]), if_neg allowed]

theorem endLoad_of_loading {l : Nat × Bool} (hs : s.fld Reg.IMG_STATUS.state = 1) (hl : s.img.loader = some l) (hp : l.1 = p ∨ p = 0) :
    s.endLoad p = s.setF Reg.IMG_STATUS.state 2 :=
  if_pos ⟨hs, by simpa [hl] using hp⟩

theorem endChecks_of_checking (f : Fuses) (e : Option Nat) (hs : s.fld Reg.IMG_STATUS.state = 2) :
    s.endChecks f e = match s.checkImage f s.loadedBy s.img.buffer e with
      | .ok c => s.stage c
      | .error r => s.refuseImage r.1 r.2 :=
  if_neg (not_not.2 hs)

theorem discardImage_of_staged {c : Staged} (hc : s.img.staged = some c) (hp : p = 0 ∨ c.part = some p) (hr : s.readySent = false) :
    s.discardImage p = (s.unstage.dropBuffer).setF Reg.IMG_STATUS.state 0 := by
  simp only [Dev.discardImage, hc, if_neg (not_and_not_right.2 hp.resolve_left), hr]
  rfl

theorem discardImage_of_readySent {c : Staged} (hc : s.img.staged = some c) (hp : p = 0 ∨ c.part = some p) (hr : s.readySent = true) :
    s.discardImage p = s.log 8 0 0 (Reg.IMG_CTRL.discard.addr 0 0 0) := by
  simp only [Dev.discardImage, hc, if_neg (not_and_not_right.2 hp.resolve_left), hr, if_true]

end

/-- Settles O21: a load by the cases of `startLoad`, its end, its checks and a discard each by the case of its operation. -/
theorem imageLoading : Obligations.ImageLoading := by
  intro s
  refine ⟨fun p own hl hr => ⟨fun hf => ?_, fun ho hf => ?_⟩, fun p own hb => ?_, fun p l hs hl hp => ?_, fun bad hs => ?_,
    fun p c hc hp => ⟨fun hr => ?_, fun hr => ?_⟩⟩
  · exact yields_of_run (·.startLoad p.val own) rfl (startLoad_of_free hl hr hf)
  · exact yields_of_run (·.startLoad p.val own) rfl (startLoad_of_frozen hl hr ho hf)
  · exact yields_of_run (·.startLoad p.val own) rfl (startLoad_of_busy own hb)
  · exact yields_of_run (·.endLoad p.val) rfl (endLoad_of_loading hs hl hp)
  · exact yields_of_run (fun d => (d.endChecks s.fuses (bad.map BitVec.toNat)).bootCheck s.fuses.uid) rfl
      (congrArg (·.bootCheck s.fuses.uid) (endChecks_of_checking s.fuses _ hs))
  · exact yields_of_run (·.discardImage p.val) rfl (discardImage_of_staged hc hp hr)
  · exact yields_of_run (·.discardImage p.val) rfl (discardImage_of_readySent hc hp hr)

/-! ### Fuses (R262) -/

section
variable {s : Dev} {f : Fuses}

theorem burn_of_target {r : Nat} (hb : s.img.burning = none) (hr : s.img.rollback = some r)
    (hc : f.rollback ≤ s.fld Reg.IMG_ROLLBACK.target) (ht : s.fld Reg.IMG_ROLLBACK.target ≤ r) (hm : s.fld Reg.IMG_ROLLBACK.target ≤ 64) :
    s.burn f = { s.setF Reg.IMG_ROLLBACK.burn_status 1 with img := { s.img with burning := some (s.fld Reg.IMG_ROLLBACK.target) } } := by
  simp [Dev.burn, hb, hr, hc, ht, hm]

/-- A target below the count, above that of the image loaded last, of which there may be none, or above 64 is refused. -/
theorem burn_of_bad_target (hb : s.img.burning = none) (hr : ¬(f.rollback ≤ s.fld Reg.IMG_ROLLBACK.target ∧
      s.img.rollback.any (fun r => decide (s.fld Reg.IMG_ROLLBACK.target ≤ r)) = true ∧ s.fld Reg.IMG_ROLLBACK.target ≤ 64)) :
    s.burn f = s.setF Reg.IMG_ROLLBACK.burn_status 3 := by
  unfold Dev.burn
  rw [if_neg (by simp [hb]), if_neg hr]

end

/-- Settles O22: a burn starts or is refused by the cases of `burn`. -/
theorem fuseBurning : Obligations.FuseBurning := by
  intro s
  refine ⟨fun hb => ⟨fun r hr => ⟨fun hc ht hm => ?_, fun ht => ?_⟩, fun hr => ?_⟩, fun t ht => ?_, fun _ => rfl⟩
  · exact yields_of_run (·.burn s.fuses) rfl (burn_of_target hb hr hc ht hm)
  · refine yields_of_run (·.burn s.fuses) rfl (burn_of_bad_target hb fun ⟨hc, hle, hm⟩ => ?_)
    simp only [hr, Option.any_some, decide_eq_true_eq] at hle
    omega
  · exact yields_of_run (·.burn s.fuses) rfl (burn_of_bad_target hb (by simp [hr]))
  · change execRollbackBurnDone s = _
    simp only [execRollbackBurnDone, ht]

/-! ### Chain commits (R270–R273) -/

section
variable {s : Dev}

theorem requestCommit_of_root (hr : s.straps.root = true) (hn : s.img.request = none) :
    s.requestCommit = ({ s.setF Reg.IMG_CHAIN_CFG.chain_status 1 with img := { s.img with
      request := some ⟨s.now, s.fld Reg.IMG_COMMIT_TAG.commit_tag, s.fld Reg.IMG_CHAIN_MASK.mask,
        s.fld Reg.IMG_CHAIN_CFG.min_index⟩ } } : Dev).rootReady :=
  if_neg (by simp [Dev.isRoot, hr, hn])

theorem requestCommit_of_ignored (h : s.straps.root = false ∨ s.img.request.isSome = true) :
    s.requestCommit = s.log 8 0 0 (Reg.IMG_CTRL.commit.addr 0 0 0) :=
  if_pos (by simpa [Dev.isRoot] using h)

theorem readyTimeout_of_waiting {r : CommitReq} (hr : s.img.request = some r) (hs : s.fld Reg.IMG_CHAIN_CFG.chain_status = 1)
    (hc : s.marn.claimCommit = false) :
    s.readyTimeout = (((s.reach (r.since + s.fld Reg.IMG_CHAIN_CFG.ready_timeout * Config.msPs)).endRequest 3).setF
      Reg.IMG_STATUS.result irNotReady).alarmAt Reg.IMG_STATUS.result 0 0 8 1 0 0 := by
  simp [Dev.readyTimeout, hr, hs, hc]

theorem switchCommit_of_crossing {n : Nat} {t : Int}
    (hn : s.commitIndex.or ((s.nextBound.filter (fun b => 3 ≤ b.cause)).map (fun b => b.index)) = some n)
    (ht : s.crossing (s.linePos n) = some t) : s.switchCommit = (s.reach t.toNat).marnSync := by
  simp only [Dev.switchCommit, hn, Option.bind_some, ht]

end

/-- A root collects the first copy of a ready message that is for it. -/
theorem yields_commitReadyMessage {s : State} {l : Link} {m : RingMsg} {tag : BitVec 32} (hf : FirstCopy s.dev l m)
    (hm : m.body = .commitReady tag) (hd : (heardFirst s.dev l m).isDest m = true) (hr : (heardFirst s.dev l m).straps.root = true) :
    Yields (.commitReadyMessage l m) s ({ heardFirst s.dev l m with img := { (heardFirst s.dev l m).img with
      readies := (heardFirst s.dev l m).img.readies ++ [(m.origin.toNat % 64, tag.toNat)] } } : Dev).rootReady := by
  have runs : exec (.commitReadyMessage l m) s = execCommitReadyMessage l m s := rfl
  simp [Yields, runs, execCommitReadyMessage, State.run, ringIn_first _ _ _ _ hf, hd, hm, Dev.isRoot, hr]

/-- A device hears the first copy of an announcement. -/
theorem yields_commitAnnouncement {s : State} {l : Link} {m : RingMsg} {idle : Bool} {bd : BitVec 48} {blk tag : BitVec 32}
    {mask : BitVec 64} {d : Dev} (hf : FirstCopy s.dev l m) (hm : m.body = .commitAnnounce idle bd blk tag mask) (hb : m.broadcast = true)
    (hd : (heardFirst s.dev l m).announced idle bd.toNat blk.toNat tag.toNat mask.toNat = d) :
    Yields (.commitAnnouncement l m) s (d.bootCheck s.fuses.uid) := by
  have runs : exec (.commitAnnouncement l m) s = execCommitAnnouncement l m s := rfl
  simp [Yields, runs, execCommitAnnouncement, State.runBoot, State.run, ringIn_first _ _ _ _ hf, hm, hb, hd]

section
variable {a : Dev} {mask tag : Nat} (bd blk : Nat)

theorem announced_of_ready (hp : mask.testBit (a.fld Reg.FLK_CHAIN.position) = true) (ht : a.img.awaiting = some tag)
    (hs : a.img.staged.isSome = true) (idle : Bool) :
    a.announced idle bd blk tag mask = if idle then a.commitNow none else a.nameBound bd blk := by
  simp only [Dev.announced, hp, ht, hs, and_self, if_true]

theorem announced_of_unready (hp : mask.testBit (a.fld Reg.FLK_CHAIN.position) = true)
    (hr : a.img.awaiting ≠ some tag ∨ a.img.staged = none) (idle : Bool) :
    a.announced idle bd blk tag mask = if idle then a.missCommit else a.calledTo blk true := by
  have unready : ¬(a.img.awaiting = some tag ∧ a.img.staged.isSome = true) := by
    rintro ⟨ht, hs⟩
    rcases hr with hr | hr
    · exact hr ht
    · simp [hr] at hs
  simp only [Dev.announced, hp, if_true, if_neg unready]

theorem announced_of_unmasked (hp : mask.testBit (a.fld Reg.FLK_CHAIN.position) = false) (idle : Bool) :
    a.announced idle bd blk tag mask =
      let e := if a.img.awaiting = some tag then a.leaveCommit else a
      if idle then e else e.calledTo blk false := by
  simp only [Dev.announced, hp, Bool.false_eq_true, if_false]

end

/-! ### Retired queues (R272) -/

/-- The slots in use are counted in registers alone. -/
theorem countSlots_frame (s : Dev) : s.countSlots = { s with regs := s.countSlots.regs } := by
  unfold Dev.countSlots
  refine List.foldlRecOn (motive := fun d : Dev => d = { s with regs := d.regs }) _ _ rfl fun d hd p _ => ?_
  rw [hd]
  rfl

theorem countSlots_img (s : Dev) : s.countSlots.img = s.img := (congrArg Dev.img (countSlots_frame s) :)

theorem countSlots_mem (s : Dev) : s.countSlots.mem = s.mem := (congrArg Dev.mem (countSlots_frame s) :)

theorem countSlots_queues (s : Dev) : s.countSlots.queues = s.queues := (congrArg Dev.queues (countSlots_frame s) :)

theorem countSlots_queue (s : Dev) (q : Nat) : s.countSlots.queue q = s.queue q := by
  simp only [Dev.queue, countSlots_queues]

/-- A retired queue that nothing uses, and that holds no end of a block, starts afresh on a device `a` that has its words anew. -/
theorem retireQueue_of_unused {s : Dev} {q : Nat} (hr : s.img.retiring.contains q = true) (hu : s.stillUsed q = false)
    (hb : s.blockEndHeld q = false) : ∃ a : Dev, a = { s with regs := a.regs } ∧ s.retireQueue q =
      (({ a with img := { a.img with retiring := a.img.retiring.filter (fun x => x != q) } } : Dev).setQueue q QRec.init).countSlots := by
  unfold Dev.retireQueue
  rw [if_neg (by simp only [hr, hu, hb]; decide)]
  extract_lets cfg put a
  exact ⟨a, rfl, rfl⟩

theorem queue_setQueue_same (s : Dev) (q : Nat) (r : QRec) : (s.setQueue q r).queue q = r := Sparse.get_set_same ..

theorem queue_setQueue_other (s : Dev) {p q : Nat} (r : QRec) (h : p ≠ q) : (s.setQueue q r).queue p = s.queue p :=
  Sparse.get_set_other _ _ _ _ _ h

theorem exec_queueDisableSwitch_of_unused {s : State} {q : QId} (hr : s.dev.img.retiring.contains q.val = true)
    (hu : s.dev.stillUsed q.val = false) (hb : s.dev.blockEndHeld q.val = false) :
    ∃ t, exec (.queueDisableSwitch q) s = .next t ∧ t.fuses = s.fuses ∧ t.pending = s.pending ∧
      t.dev.img.retiring.contains q.val = false ∧ t.dev.queue q.val = QRec.init ∧ t.dev.mem = s.dev.mem ∧
      ∀ p, p ≠ q.val → t.dev.queue p = s.dev.queue p := by
  obtain ⟨a, ha, h⟩ := retireQueue_of_unused hr hu hb
  refine ⟨_, yields_of_run (·.retireQueue q.val) rfl h, rfl, rfl, ?_, ?_, ?_, fun p hp => ?_⟩
  · simp [countSlots_img]
  · simp only [countSlots_queue, queue_setQueue_same]
  · simp only [countSlots_mem, Dev.setQueue_mem]
    rw [ha]
  · simp only [countSlots_queue, queue_setQueue_other _ _ hp]
    rw [ha]
    rfl

/-! ### The configuration checker (R275) -/

/-- A check compares the three copies two by two. -/
theorem configCheck_of_copies {d : Dev} {a b c : CfgCopy} (h : d.img.copies = [a, b, c]) :
    d.configCheck =
      if agree a b && agree b c then (d.showOutvoted []).reloadWords a.active
      else if agree a b then d.outvote 0 2
      else if agree a c then d.outvote 0 1
      else if agree b c then d.outvote 1 0
      else d.freeze := by
  unfold Dev.configCheck
  rw [h]
  rfl

/-- Settles O23: messages by `ringIn_first` and the cases of `announced`, a retired queue by `retireQueue_of_unused`, a check by
`configCheck_of_copies`. -/
theorem chainCommits : Obligations.ChainCommits := by
  intro s
  refine ⟨fun hr hn => ?_, fun h => ?_, fun l m tag hf hm => fun hd hr => ?_, fun r hr hs hc => ?_,
    fun l m idle bd blk tag mask hf hm hb => ?_, fun n t hn ht => ?_, fun q hr hu hb => ?_, fun found => fun a b c hcopies => ?_⟩
  · exact yields_of_run (·.requestCommit) rfl (requestCommit_of_root hr hn)
  · exact yields_of_run (·.requestCommit) rfl (requestCommit_of_ignored h)
  · exact yields_commitReadyMessage hf hm hd hr
  · exact yields_of_run (·.readyTimeout) rfl (readyTimeout_of_waiting hr hs hc)
  · have does {d : Dev} := yields_commitAnnouncement (d := d) hf hm hb
    refine ⟨fun hp => ⟨fun ht hs => ⟨?_, ?_⟩, fun hr => ⟨?_, ?_⟩⟩, fun hp => ⟨fun ht => ⟨?_, ?_⟩, fun ht => ⟨?_, ?_⟩⟩⟩
    all_goals rintro rfl
    · exact does (announced_of_ready _ _ hp ht hs false)
    · exact does (announced_of_ready _ _ hp ht hs true)
    · exact does (announced_of_unready _ _ hp hr false)
    · exact does (announced_of_unready _ _ hp hr true)
    · exact does ((announced_of_unmasked _ _ hp false).trans (by simp only [if_pos ht]; rfl))
    · exact does ((announced_of_unmasked _ _ hp true).trans (if_pos ht))
    · exact does ((announced_of_unmasked _ _ hp false).trans (by simp only [if_neg ht]; rfl))
    · exact does ((announced_of_unmasked _ _ hp true).trans (if_neg ht))
  · exact yields_of_run (fun d => (d.switchCommit).bootCheck s.fuses.uid) rfl
      (congrArg (·.bootCheck s.fuses.uid) (switchCommit_of_crossing hn ht))
  · exact exec_queueDisableSwitch_of_unused hr hu hb
  · have checked {d : Dev} (h : _ = d) : Yields (.configCheck found) s d :=
      yields_of_run (fun d => (found.foldl Dev.cfgFault d).configCheck) rfl ((configCheck_of_copies hcopies).trans h)
    refine ⟨fun hab hbc => ?_, fun hab hbc => ?_, fun hab hac => ?_, fun hab hac hbc => ?_, fun hab hac hbc => ?_⟩
    · exact checked (by simp only [hab, hbc, Bool.and_self, if_true])
    · exact checked (by simp [hab, hbc])
    · exact checked (by simp [hab, hac])
    · exact checked (by simp [hab, hac, hbc])
    · exact checked (by simp [hab, hac, hbc])

end Sys2Proof.Machine
end

section
/-! PROOFS. KMP requests: what is accepted and what is discarded (R291–R296), sequence numbers (R294), and the relay (R297). -/

namespace Sys2Proof.Machine

/-! ### Sequence numbers -/

/-- A number above the window becomes its highest; one inside it sets its bit. -/
theorem seqFresh_seqMark (s : Dev) (p n : Nat) : (s.seqMark p n).seqFresh p n = false := by
  unfold Dev.seqFresh Dev.seqMark
  simp only [Sparse.find_insert_same, Option.getD_some]
  generalize (Sparse.find p s.kmp.high).getD 0 = h
  generalize (Sparse.find p s.kmp.seen).getD 0 = w
  by_cases hn : h < n
  · obtain ⟨k, hk⟩ : ∃ k, min 64 (n - h) = k + 1 := ⟨min 64 (n - h) - 1, by omega⟩
    have odd : (w * 2 ^ (k + 1) + 1) % 2 = 1 := by
      rw [pow_succ, ← mul_assoc]
      omega
    simp [hn, hk, odd, Nat.max_eq_right (Nat.le_of_lt hn)]
  · simp [hn, Nat.max_eq_left (Nat.not_lt.1 hn)]

/-- Settles O54: a marked number is not fresh (`seqFresh_seqMark`). -/
theorem sequenceNotFreshTwice : Obligations.SequenceNotFreshTwice :=
  fun s p n _ => seqFresh_seqMark s p n

/-! ### Acceptance -/

section Accept

variable {s : State} {u : Nat} {m : KmpMsg}

/-- A HELLO is carried out whatever its tag. -/
theorem accept_of_hello (h : m.opcode.toNat = koHello) :
    s.accept u m = ((serviceOf m.opcode.toNat s m).1, some (serviceOf m.opcode.toNat s m).2) :=
  if_pos h

theorem accept_of_unauthentic (h : m.opcode.toNat ≠ koHello) (ha : s.dev.kmpAuthentic m = false) :
    s.accept u m = ({ s with dev := s.dev.bump Reg.UPL_STAT2.auth_fail u }, none) := by
  simp only [State.accept, if_neg h, ha, Bool.not_false, if_true]

theorem accept_of_replayed (h : m.opcode.toNat ≠ koHello) (ha : s.dev.kmpAuthentic m = true)
    (hf : s.dev.seqFresh m.part.toNat m.sequence.toNat = false) :
    s.accept u m = ({ s with dev := s.dev.bump Reg.UPL_STAT2.replay u }, none) := by
  simp only [State.accept, if_neg h, ha, hf, Bool.not_false, Bool.not_true, Bool.false_eq_true, if_true, if_false]

/-- The state in which an authentic, fresh request is carried out: its sequence number is marked. -/
def State.marked (s : State) (m : KmpMsg) : State := { s with dev := s.dev.seqMark m.part.toNat m.sequence.toNat }

theorem accept_of_fresh (h : m.opcode.toNat ≠ koHello) (ha : s.dev.kmpAuthentic m = true)
    (hf : s.dev.seqFresh m.part.toNat m.sequence.toNat = true) :
    s.accept u m = ((serviceOf m.opcode.toNat (s.marked m) m).1, some (serviceOf m.opcode.toNat (s.marked m) m).2) := by
  simp only [State.accept, if_neg h, ha, hf, Bool.not_true, Bool.false_eq_true, if_false]
  rfl

variable (hs : s.dev.kmpServed u = true)

include hs

/-- A request for this device that is accepted is answered by its uplink. -/
theorem kmpArrive_of_accepted {t : State} {a : Answer} (hh : s.dev.kmpHere m = true) (h : s.accept u m = (t, some a)) :
    s.kmpArrive u m = { t with dev := t.dev.kmpAnswer u m a } := by
  simp only [State.kmpArrive, hs, hh, h, Bool.not_true, Bool.false_eq_true, if_false]

/-- One that is discarded is not answered. -/
theorem kmpArrive_of_discarded {t : State} (hh : s.dev.kmpHere m = true) (h : s.accept u m = (t, none)) : s.kmpArrive u m = t := by
  simp only [State.kmpArrive, hs, hh, h, Bool.not_true, Bool.false_eq_true, if_false]

/-- A request for another device is forwarded. -/
theorem kmpArrive_of_elsewhere (hh : s.dev.kmpHere m = false) : s.kmpArrive u m = { s with dev := s.dev.kmpForward u m } := by
  simp only [State.kmpArrive, hs, hh, Bool.not_true, Bool.not_false, Bool.false_eq_true, if_true, if_false]

end Accept

/-! ### Requests of one opcode -/

section Requests

variable {s : State} {u : Uplink} {m : KmpMsg} {op : Nat}

theorem kmpRequest_of_opcode (h : m.opcode.toNat = op) : s.kmpRequest op u.val m = s.kmpArrive u.val m := if_pos h

variable (hs : s.dev.kmpServed u.val = true) (hh : s.dev.kmpHere m = true)

include hs hh

theorem kmpArrive_of_hello {x : State × Answer} (h : m.opcode.toNat = koHello) (hx : serviceOf koHello s m = x) :
    s.kmpArrive u.val m = Served s u m x := by
  subst hx
  rw [kmpArrive_of_accepted hs hh (accept_of_hello h), h]
  rfl

/-- An authentic, fresh request is carried out by the service of its opcode, after its number is marked. -/
theorem kmpArrive_of_fresh {x : State × Answer} (hop : m.opcode.toNat = op) (h0 : op ≠ koHello) (ha : s.dev.kmpAuthentic m = true)
    (hf : s.dev.seqFresh m.part.toNat m.sequence.toNat = true) (hx : serviceOf op (s.marked m) m = x) :
    s.kmpArrive u.val m = Served s u m x := by
  subst hop hx
  exact kmpArrive_of_accepted hs hh (accept_of_fresh h0 ha hf)

theorem kmpRequest_of_fresh {x : State × Answer} (hop : m.opcode.toNat = op) (h0 : op ≠ koHello) (ha : s.dev.kmpAuthentic m = true)
    (hf : s.dev.seqFresh m.part.toNat m.sequence.toNat = true) (hx : serviceOf op (s.marked m) m = x) :
    s.kmpRequest op u.val m = Served s u m x :=
  (kmpRequest_of_opcode hop).trans (kmpArrive_of_fresh hs hh hop h0 ha hf hx)

/-- A request whose tag fails counts, and does nothing else. -/
theorem kmpRequest_of_unauthentic (hop : m.opcode.toNat = op) (h0 : op ≠ koHello) (ha : s.dev.kmpAuthentic m = false) :
    s.kmpRequest op u.val m = { s with dev := s.dev.bump Reg.UPL_STAT2.auth_fail u.val } :=
  (kmpRequest_of_opcode hop).trans (kmpArrive_of_discarded hs hh (accept_of_unauthentic (hop ▸ h0) ha))

/-- A replayed request counts, and does nothing else. -/
theorem kmpRequest_of_replayed (hop : m.opcode.toNat = op) (h0 : op ≠ koHello) (ha : s.dev.kmpAuthentic m = true)
    (hf : s.dev.seqFresh m.part.toNat m.sequence.toNat = false) :
    s.kmpRequest op u.val m = { s with dev := s.dev.bump Reg.UPL_STAT2.replay u.val } :=
  (kmpRequest_of_opcode hop).trans (kmpArrive_of_discarded hs hh (accept_of_replayed (hop ▸ h0) ha hf))

end Requests

/-! ### Services -/

section Services

variable {s : State} {m : KmpMsg}

theorem hello_of_empty (s : Dev) (hl : m.length = 0) (hp : m.payload = []) :
    s.hello m = (s, ksOk, [0x32#8, 0x72#8, 0xA2#8, BitVec.ofNat 8 s.chainAddr] ++ (List.range 16).flatMap (fun p => s.kmpNonce p)) := by
  have hok : kmpLengthOk m = true := by simp [kmpLengthOk, hl, hp]
  have code : leBytes 2 0x7232 = [0x32#8, 0x72#8] := by decide
  simp only [Dev.hello, hok, hp, code, List.isEmpty_nil, Bool.and_self, if_true]
  rfl

theorem serveRead_of_ok {wide : Bool} (h : burstOk m wide false = true) :
    serveRead wide s m =
      let r := s.readBurst (kmpWho m) wide (wordSize wide) (burstAddr m) (burstCount m)
      (r.1, r.2.2.2, burstHead (burstAddr m) r.2.2.1 ++ r.2.1) :=
  if_pos h

theorem serveWrite_of_ok {wide : Bool} (h : burstOk m wide true = true) :
    serveWrite wide s m =
      let r := s.writeBurst (kmpWho m) wide (wordSize wide) (burstAddr m)
        ((List.range (burstCount m)).map (fun i => le m.payload (16 + i * wordSize wide) (wordSize wide)))
      (r.1, r.2.2, burstHead (burstAddr m) r.2.1) :=
  if_pos h

theorem kmpLengthOk_of_eq (h : m.length.toNat = m.payload.length) : kmpLengthOk m = true := beq_iff_eq.2 h

theorem chunk_of_layout (s : Dev) (hl : m.length.toNat = m.payload.length) (h9 : 9 ≤ m.payload.length) (h1032 : m.payload.length ≤ 1032) :
    s.chunk m =
      ((s.appendImage m.part.toNat (le m.payload 0 4) (m.payload.drop 8)).1,
        (s.appendImage m.part.toNat (le m.payload 0 4) (m.payload.drop 8)).2, []) := by
  simp [Dev.chunk, kmpLengthOk_of_eq hl, h9, h1032]

/-- SYNC with a position makes its edge there. -/
theorem syncRequest_of_position (s : Dev) (hl : m.length.toNat = m.payload.length) (h16 : m.payload.length = 16)
    (hk : le m.payload 0 1 ≤ 1) (hp : le m.payload 1 1 = 1) :
    s.syncRequest m =
      (((s.marnSync.askedBy (some (m.part.toNat % 16))).syncAt (le m.payload 0 1)
        (toSigned 64 (le m.payload 8 8) * 2 ^ 32 * speedUnit)).askedBy none, ksOk, []) := by
  simp [Dev.syncRequest, kmpLengthOk_of_eq hl, h16, Nat.not_lt.2 hk, hp]

theorem ackRequest_of_layout (s : Dev) (hl : m.length.toNat = m.payload.length) (h8 : m.payload.length = 8) :
    s.ackRequest m = (s.noticeAcked m.part.toNat (le m.payload 0 4), ksOk, []) := by
  simp [Dev.ackRequest, kmpLengthOk_of_eq hl, h8]

theorem devService_eq {f : Dev → KmpMsg → Dev × Answer} {d : Dev} {a : Answer} (h : f s.dev m = (d, a)) :
    devService f s m = ({ s with dev := d }, a) := by
  simp only [devService, h]

/-- An opcode that the device does not receive answers OPCODE and does nothing. -/
theorem serviceOf_of_unserved {op : Nat} (h : servedOpcodes.contains op = false) : serviceOf op s m = (s, ksOpcode, []) := by
  simp only [servedOpcodes, List.contains_eq_mem, List.mem_cons, List.not_mem_nil, decide_eq_false_iff_not, not_or] at h
  obtain ⟨h0, h1, h2, h3, h4, h5, h6, h7, -⟩ := h
  simp only [serviceOf, if_neg h0, if_neg h1, if_neg h2, if_neg h3, if_neg h4, if_neg h5, if_neg h6, if_neg h7]

end Services

/-- Settles O27: each opcode by its service on the state whose sequence number is marked (`kmpRequest_of_fresh`). -/
theorem kmpRequests : Obligations.KmpRequests := by
  intro s u m hs hh
  refine ⟨fun hop hl hp => ?_, fun ha hf => ?_⟩
  · have hop : m.opcode.toNat = koHello := congrArg BitVec.toNat hop
    exact congrArg Host.Outcome.next ((kmpRequest_of_opcode hop).trans
      (kmpArrive_of_hello hs hh hop (devService_eq (hello_of_empty s.dev hl hp))))
  intro t who addr count read write
  have served {op : Nat} {x : State × Answer} (hop : m.opcode.toNat = op) (h0 : op ≠ koHello) (hx : serviceOf op t m = x) :
      (.next (s.kmpRequest op u.val m) : Out) = .next (Served s u m x) :=
    congrArg _ (kmpRequest_of_fresh hs hh hop h0 ha hf hx)
  have opcode {x : Byte} (h : m.opcode = x) : m.opcode.toNat = x.toNat := congrArg BitVec.toNat h
  refine ⟨fun hop h => ?_, fun hop h => ?_, fun hop h => ?_, fun hop h => ?_, fun hop hl h9 h1032 => ?_, fun hop hl h16 hk hp => ?_,
    fun hop hl h8 => ?_, fun hop => ?_⟩
  · exact served (opcode hop) (by decide) (serveRead_of_ok h)
  · exact served (opcode hop) (by decide) (serveRead_of_ok h)
  · exact served (opcode hop) (by decide) (serveWrite_of_ok h)
  · exact served (opcode hop) (by decide) (serveWrite_of_ok h)
  · exact served (opcode hop) (by decide) (devService_eq (chunk_of_layout t.dev hl h9 h1032))
  · exact served (opcode hop) (by decide) (devService_eq (syncRequest_of_position t.dev hl h16 hk hp))
  · exact served (opcode hop) (by decide) (devService_eq (ackRequest_of_layout t.dev hl h8))
  · have h0 : m.opcode.toNat ≠ koHello := by
      intro h
      rw [h] at hop
      exact absurd hop (by decide)
    refine congrArg Host.Outcome.next ((if_neg (by rw [hop]; decide)).trans ?_)
    exact kmpArrive_of_fresh hs hh rfl h0 ha hf (serviceOf_of_unserved hop)

/-- Settles O28: what fails its tag by `kmpRequest_of_unauthentic`, what is not fresh by `kmpRequest_of_replayed`. -/
theorem kmpDiscards : Obligations.KmpDiscards := by
  intro s u m hs hh
  have opcode {x : Byte} (h : m.opcode = x) : m.opcode.toNat = x.toNat := congrArg BitVec.toNat h
  refine ⟨fun ha => ?_, fun ha hf => ?_⟩
  · have counts {op : Nat} (hop : m.opcode.toNat = op) (h0 : op ≠ koHello) : (.next (s.kmpRequest op u.val m) : Out) = .next _ :=
      congrArg _ (kmpRequest_of_unauthentic hs hh hop h0 ha)
    exact ⟨fun h => counts (opcode h) (by decide), fun h => counts (opcode h) (by decide), fun h => counts (opcode h) (by decide)⟩
  · have counts {op : Nat} (hop : m.opcode.toNat = op) (h0 : op ≠ koHello) : (.next (s.kmpRequest op u.val m) : Out) = .next _ :=
      congrArg _ (kmpRequest_of_replayed hs hh hop h0 ha hf)
    exact ⟨fun h => counts (opcode h) (by decide), fun h => counts (opcode h) (by decide), fun h => counts (opcode h) (by decide)⟩

/-! ### The relay -/

/-- The same effect, spelt otherwise. -/
theorem Yields.congr {c : Instr} {s : State} {d e : Dev} (h : Yields c s d) (he : d = e) : Yields c s e := he ▸ h

section Relay

variable {s : Dev} {u : Nat} {m : KmpMsg} {origin : Nat}

theorem kmpAnswer_of_up (status : Nat) (bytes : List Byte) (h : s.uplinkUp u = true) :
    s.kmpAnswer u m (status, bytes) = s.kmpReply u m status bytes :=
  if_pos h

theorem kmpAnswer_of_down (a : Answer) (h : s.uplinkUp u = false) : s.kmpAnswer u m a = s := if_neg (by simp [h])

/-- The test of a request that is kept: is it the one that a response answers? -/
def answersRelay (origin : Nat) (m : KmpMsg) (x : KmpRelay) : Bool :=
  x.msg.destination.toNat == origin && x.msg.sequence == m.sequence && x.msg.part == m.part && x.msg.opcode == m.opcode

/-- The device without a request that it kept. -/
def Dev.dropRelay (s : Dev) (x : KmpRelay) : Dev := { s with kmp := { s.kmp with relays := s.kmp.relays.filter (fun y => y != x) } }

theorem relayResponse_of_none (h : s.kmp.relays.find? (answersRelay origin m) = none) : s.relayResponse origin m = s := by
  unfold answersRelay at h
  simp only [Dev.relayResponse, h]

theorem relayResponse_of_up {x : KmpRelay} (h : s.kmp.relays.find? (answersRelay origin m) = some x)
    (hu : (s.dropRelay x).uplinkUp x.uplink = true) :
    s.relayResponse origin m =
      (s.dropRelay x).kmpSend x.uplink { m with flags := m.flags ||| 2, peerIp := x.msg.peerIp, peerPort := x.msg.peerPort } := by
  unfold answersRelay at h
  simp only [Dev.relayResponse, h]
  exact if_pos hu

theorem relayResponse_of_down {x : KmpRelay} (h : s.kmp.relays.find? (answersRelay origin m) = some x)
    (hu : (s.dropRelay x).uplinkUp x.uplink = false) : s.relayResponse origin m = s.dropRelay x := by
  unfold answersRelay at h
  simp only [Dev.relayResponse, h]
  exact if_neg (ne_true_of_eq_false hu)

end Relay

/-- The first copy of a relayed message acts at its destination, after it is forwarded. -/
theorem exec_kmpRelayMessage_of_first {s : State} {l : Link} {r : RingMsg} {m : KmpMsg} (hb : r.body = .kmp m) (hc : r.channel.val = chKmp)
    (hf : FirstCopy s.dev l r) (ho : s.dev.isOrigin r = false) (hn : s.dev.firstCopy r = none) (hd : s.dev.isDest r = true) :
    exec (.kmpRelayMessage l r) s =
      .next (({ s with dev := s.dev.ringIn l.val r (fun d => d) } : State).relayed r.origin.toNat m) := by
  obtain ⟨⟨hup, hseq⟩, -, -⟩ := hf
  have hall : r.frame.all (fun h => h.seq.toNat == (s.dev.flank l.val).rxSeq) = true :=
    Option.all_eq_true_iff_get _ _ |>.2 fun h => beq_iff_eq.2 (hseq _ (Option.some_get h).symm)
  change execKmpRelayMessage l r s = _
  simp [execKmpRelayMessage, hb, hc, hup, hall, ho, hn, hd]

section Relayed

variable {s : State} {origin : Nat} {m : KmpMsg}

theorem relayed_of_response (h : m.flags.getLsbD 0 = true) : s.relayed origin m = { s with dev := s.dev.relayResponse origin m } :=
  if_pos h

theorem relayed_of_request (h : m.flags.getLsbD 0 = false) : s.relayed origin m = s.relayRequest origin m :=
  if_neg (by rw [h]; decide)

theorem relayRequest_of_unserved (h : s.dev.stewardsRun = false ∨ s.dev.flag Reg.UPL_KMP.enable = false) :
    s.relayRequest origin m = s := by
  have : (s.dev.stewardsRun && s.dev.flag Reg.UPL_KMP.enable) = false := Bool.and_eq_false_iff.2 h
  simp only [State.relayRequest, this, Bool.not_false, if_true]

variable (hs : s.dev.stewardsRun = true) (he : s.dev.flag Reg.UPL_KMP.enable = true)

include hs he

theorem relayRequest_of_discarded (h : (s.relayAccept m).2 = none) : s.relayRequest origin m = (s.relayAccept m).1 := by
  simp only [State.relayRequest, hs, he, h, Bool.and_self, Bool.not_true, Bool.false_eq_true, if_false]

theorem relayRequest_of_accepted {a : Answer} (h : (s.relayAccept m).2 = some a) :
    s.relayRequest origin m =
      let x := (s.relayAccept m).1.dev.kmpResponse { m with flags := m.flags ||| 2 } a.1 a.2
      { (s.relayAccept m).1 with dev := x.2.ringSend chKmp (some origin) (.kmp x.1) } := by
  simp only [State.relayRequest, hs, he, h, Bool.and_self, Bool.not_true, Bool.false_eq_true, if_false]

end Relayed

/-- The request kept longest is answered UNREACHABLE once its time has passed. -/
theorem yields_kmpRelayTimeout_of_kept {s : State} {r : KmpRelay} {rest : List KmpRelay} (h : s.dev.kmp.relays = r :: rest) :
    let a := s.dev.reach (r.since + s.dev.fld Reg.UPL_KMP.kmp_relay_timeout * Config.usPs)
    Yields .kmpRelayTimeout s
      (({ a with kmp := { a.kmp with relays := rest } } : Dev).kmpAnswer r.uplink r.msg (ksUnreachable, [])) := by
  change execKmpRelayTimeout s = _
  simp only [execKmpRelayTimeout, State.run, h]

/-- Settles O29: a request for another device by `kmpArrive_of_elsewhere`, what comes over the chain by `exec_kmpRelayMessage_of_first`. -/
theorem kmpRelay : Obligations.KmpRelay := by
  intro s
  refine ⟨fun u m hs hh hop => ?_, fun l r m hb hc hf ho hn hd => ?_, fun r rest hr => ?_⟩
  · have forwards {d : Dev} (h : s.dev.kmpForward u.val m = d) : Yields (.kmpRead64 u m) s d := by
      subst h
      exact congrArg Host.Outcome.next ((kmpRequest_of_opcode (congrArg BitVec.toNat hop)).trans (kmpArrive_of_elsewhere hs hh))
    exact ⟨fun hrow => forwards (if_neg (not_not.2 hrow)), fun hrow => forwards (if_pos hrow)⟩
  · intro d
    have acts : exec (.kmpRelayMessage l r) s = .next (({ s with dev := d } : State).relayed r.origin.toNat m) :=
      exec_kmpRelayMessage_of_first hb hc hf ho hn hd
    clear_value d
    refine ⟨fun hresp => ?_, fun hreq => ?_⟩
    · have yields {d' : Dev} (h : d.relayResponse r.origin.toNat m = d') : Yields (.kmpRelayMessage l r) s d' := by
        subst h
        exact acts.trans (congrArg _ (relayed_of_response hresp))
      refine ⟨fun hnone => yields (relayResponse_of_none hnone), fun x hx => ⟨fun hup => ?_, fun hdown => ?_⟩⟩
      · exact yields (relayResponse_of_up hx hup)
      · exact yields (relayResponse_of_down hx hdown)
    · have requests {x : State} (h : ({ s with dev := d } : State).relayRequest r.origin.toNat m = x) :
          exec (.kmpRelayMessage l r) s = .next x := by
        subst h
        exact acts.trans (congrArg _ (relayed_of_request hreq))
      refine ⟨fun h => requests (relayRequest_of_unserved h), fun hrun hen => ⟨fun hnone => ?_, fun a ha => ?_⟩⟩
      · exact requests (relayRequest_of_discarded (s := { s with dev := d }) hrun hen hnone)
      · exact requests (relayRequest_of_accepted (s := { s with dev := d }) hrun hen ha)
  · intro a b
    have times : Yields .kmpRelayTimeout s (b.kmpAnswer r.uplink r.msg (ksUnreachable, [])) := yields_kmpRelayTimeout_of_kept hr
    clear_value b
    exact ⟨fun hup => times.congr (kmpAnswer_of_up _ _ hup), fun hdown => times.congr (kmpAnswer_of_down _ hdown)⟩

end Sys2Proof.Machine
end

section
/-! PROOFS. Uplinks: link states (R279), flow control, discarded frames and addresses (R277, R278, R280). -/

namespace Sys2Proof.Machine

theorem uplinkUp_iff {s : Dev} {u : Nat} : s.uplinkUp u = true ↔ s.fld Reg.UPL_STATUS.state u = 3 := beq_iff_eq

section Uplinks

variable {s : Dev} {u : Nat}

/-! ### Link states -/

theorem uplTimeout_of_in {st : Nat} (limit : Nat) (h : s.uplIn u st = true) :
    s.uplTimeout u st limit =
      let a := (s.reach ((s.upl u).since + limit)).log 9 (uplInst u) 0
      a.modUpl u (fun r => { r with waitUntil := some (a.now + Config.secPs) }) :=
  if_pos h

theorem uplRedetect_of_waiting {t : Nat} (h : (s.upl u).waitUntil = some t) :
    s.uplRedetect u = ((s.reach t).setF Reg.UPL_STATUS.lanes_ok 0 u).uplGo u usDetect := by
  simp only [Dev.uplRedetect, h]

theorem uplLeave_of_up (h : s.uplinkUp u = true) :
    s.uplLeave u = (s.countAnd Reg.UPL_STAT3.link_drops u 0 2 9 (uplInst u) 0 0 0).uplRestart u :=
  if_pos h

/-- The codewords of a window are counted; more uncorrectable ones than the limit make the uplink leave RUN. -/
theorem fecWindow_of_up (n c : Nat) (h : s.uplinkUp u = true) :
    s.fecWindow u n c =
      let a := (s.bump Reg.UPL_STAT.fec_corrected u (n := c)).bump Reg.UPL_STAT.fec_uncorrectable u (n := n)
      if s.fld Reg.UPL_CTRL.fec_limit u < n then a.uplLeave u else a :=
  if_pos h

/-! ### Frames -/

/-- A frame of a priority that the uplink obeys is not ignored. -/
theorem not_ignores_pfc {p : Nat} (h : s.uplinkUp u = true) (hp : (s.fld Reg.UPL_CTRL.pfc_rx_en u).testBit p = true) :
    ¬ (!s.uplinkUp u ∨ !(s.fld Reg.UPL_CTRL.pfc_rx_en u).testBit p) := by
  simp [h, hp]

theorem pfc_pause_of_obeyed {p : Nat} (h : s.uplinkUp u = true) (hp : (s.fld Reg.UPL_CTRL.pfc_rx_en u).testBit p = true) :
    s.pfc u p true =
      let was := s.fld Reg.UPL_STATUS.paused u
      (s.setF Reg.UPL_STATUS.paused (was ||| 2 ^ p) u).modUpl u (fun r =>
        if was.testBit p then r else { r with pausedAt := Sparse.insert p s.now r.pausedAt }) :=
  (if_neg (not_ignores_pfc h hp)).trans (if_pos rfl)

theorem pfc_release_of_obeyed {p : Nat} (h : s.uplinkUp u = true) (hp : (s.fld Reg.UPL_CTRL.pfc_rx_en u).testBit p = true) :
    s.pfc u p false =
      let was := s.fld Reg.UPL_STATUS.paused u
      ((s.setF Reg.UPL_STATUS.paused (if was.testBit p then was - 2 ^ p else was) u).modUpl u (fun r =>
        { r with pausedAt := Sparse.erase p r.pausedAt, stuck := r.stuck.filter (fun x => x != p) })).kmpRelease u p :=
  (if_neg (not_ignores_pfc h hp)).trans (if_neg Bool.false_ne_true)

theorem pfcStuck_of_paused {p t : Nat} (h : Sparse.find p (s.upl u).pausedAt = some t) (hs : (s.upl u).stuck.contains p = false) :
    s.pfcStuck u p =
      ((s.reach (t + s.fld Reg.UPL_CTRL.pfc_watchdog u * Config.msPs)).modUpl u (fun r => { r with stuck := r.stuck ++ [p] })).countAnd
        Reg.UPL_STAT3.pfc_stuck u 0 2 9 (uplInst u) 0 1 0 := by
  simp only [Dev.pfcStuck, h, hs, Bool.false_eq_true, if_false]

theorem uplCount_of_up (f : Reg.Fld) (h : s.uplinkUp u = true) : s.uplCount u f = s.bump f u := if_pos h

/-- A request for the uplink's own address, which is set, is answered. -/
theorem answerAddress_of_own {own target : Nat} (r : AddrReply) (h : s.uplinkUp u = true) (ho : own = target) (h0 : target ≠ 0) :
    s.answerAddress u own target r = s.modUpl u (fun x => { x with reply := some r }) := by
  simp [Dev.answerAddress, h, ho, h0]

end Uplinks

/-- The claim about link states: each by the case of its operation. -/
theorem uplinkTraining : Claim.UplinkTraining := by
  intro s u
  refine ⟨fun he hd => ?_, fun h => ?_, fun h => ?_, fun h => ?_, fun h => ?_, fun t ht => ?_, fun h => ?_, fun n c h => ?_⟩
  · exact yields_of_run (fun d => if d.flag Reg.UPL_CTRL.enable u.val && d.uplState u.val == usDetect then d.uplGo u.val usTrain else d)
      rfl (if_pos (by simp [he, hd]))
  · exact yields_of_run (fun d => if d.uplIn u.val usTrain then (d.setF Reg.UPL_STATUS.lanes_ok d.laneMask u.val).uplGo u.val usAlign else d)
      rfl (if_pos h)
  · exact yields_of_run (fun d => (if d.uplIn u.val usAlign then d.uplGo u.val usRun else d).bootCheck s.fuses.uid) rfl
      (congrArg (fun d : Dev => d.bootCheck s.fuses.uid) (if_pos h))
  · exact yields_of_run (·.uplTimeout u.val usTrain (500 * Config.msPs)) rfl (uplTimeout_of_in _ h)
  · exact yields_of_run (·.uplTimeout u.val usAlign (50 * Config.msPs)) rfl (uplTimeout_of_in _ h)
  · exact yields_of_run (·.uplRedetect u.val) rfl (uplRedetect_of_waiting ht)
  · exact yields_of_run (·.uplLeave u.val) rfl (uplLeave_of_up (uplinkUp_iff.2 h))
  · have window := fecWindow_of_up n c (uplinkUp_iff.2 h)
    exact ⟨fun hn => yields_of_run (·.fecWindow u.val n c) rfl (window.trans (if_neg (Nat.not_lt.2 hn))),
      fun hn => yields_of_run (·.fecWindow u.val n c) rfl (window.trans (if_pos hn))⟩

/-- The claim about frames on an uplink in RUN. -/
theorem uplinkFrames : Claim.UplinkFrames := by
  intro s u hrun
  have hup := uplinkUp_iff.2 hrun
  refine ⟨fun p hp => ⟨?_, ?_⟩, fun p t ht hs => ?_, ?_, ?_, fun target mac ip ho h0 => ?_, fun target mac ip ho h0 => ?_⟩
  · exact yields_of_run (·.pfc u.val p.val true) rfl (pfc_pause_of_obeyed hup hp)
  · exact yields_of_run (·.pfc u.val p.val false) rfl (pfc_release_of_obeyed hup hp)
  · exact yields_of_run (·.pfcStuck u.val p.val) rfl (pfcStuck_of_paused ht hs)
  · exact yields_of_run (·.uplCount u.val Reg.UPL_STAT3.pause_ignored) rfl (uplCount_of_up _ hup)
  · exact yields_of_run (·.uplCount u.val Reg.UPL_STAT2.rx_discard) rfl (uplCount_of_up _ hup)
  · exact yields_of_run (fun d => d.answerAddress u.val (d.fld Reg.UPL_IPV4.ipv4 u.val) target.toNat
      ⟨false, target.toNat, d.fld Reg.UPL_ADDR.mac u.val, mac.toNat, ip.toNat⟩) rfl (answerAddress_of_own _ hup ho h0)
  · exact yields_of_run (fun d => d.answerAddress u.val (d.fld Reg.UPL_IPV6_HI.ipv6 u.val * 2 ^ 64 + d.fld Reg.UPL_IPV6_LO.ipv6 u.val)
      target.toNat ⟨true, target.toNat, d.fld Reg.UPL_ADDR.mac u.val, mac.toNat, ip.toNat⟩) rfl (answerAddress_of_own _ hup ho h0)

/-- Settles O24: link states and frames. -/
theorem uplinkLinks : Obligations.UplinkLinks := ⟨uplinkTraining, uplinkFrames⟩

end Sys2Proof.Machine
end

section
/-! PROOFS. Queue pairs: rate cuts and their recovery (R281), acknowledgements and retries (R282–R286). -/

namespace Sys2Proof.Machine

section QueuePairs

variable {s : Dev} {ch u : Nat}

theorem qpLive_iff : s.qpLive ch u = true ↔ s.qpState ch u = qsRts ∧ s.fld Reg.UPL_STATUS.state u = 3 := by
  simp [Dev.qpLive, Dev.uplinkUp]

/-! ### Rates -/

/-- A CNP is counted, and cuts the rate of a queue pair in RTS that has not been cut within the interval. -/
theorem cnp_of_due {a : Dev} (ha : s.bump Reg.UPL_STAT2.cnp_rx u = a) (hs : a.qpState ch u = qsRts)
    (h : ∀ t, ((a.chan ch).qp u).cutAt = some t → t + a.fld Reg.UPL_CC.cnp_interval u * Config.usPs ≤ a.now) :
    s.cnp ch u =
      let rate := ((a.chan ch).qp u).rate.getD a.lineRate
      let cut := max (rate - rate >>> (a.fld Reg.UPL_CC.cut_shift u + 1)) (a.fld Reg.UPL_CC.min_rate u * 1000)
      (a.bump Reg.DMA_CH_STAT2.cnp_cuts ch).modQp ch u (fun q => { q with rate := some cut, cutAt := some a.now, recoverAt := a.now }) := by
  unfold Dev.cnp
  rw [ha]
  refine (if_neg (not_not.2 hs)).trans (if_pos ?_)
  cases hc : ((a.chan ch).qp u).cutAt with
  | none => rfl
  | some t => exact decide_eq_true (h t hc)

/-- Within the interval it starts the recovery time again. -/
theorem cnp_of_cut {a : Dev} {t : Nat} (ha : s.bump Reg.UPL_STAT2.cnp_rx u = a) (hs : a.qpState ch u = qsRts)
    (hc : ((a.chan ch).qp u).cutAt = some t) (h : a.now < t + a.fld Reg.UPL_CC.cnp_interval u * Config.usPs) :
    s.cnp ch u = a.modQp ch u (fun q => { q with recoverAt := a.now }) := by
  unfold Dev.cnp
  rw [ha]
  refine (if_neg (not_not.2 hs)).trans (if_neg ?_)
  simp [hc, h]

theorem rateRecover_of_cut {rate : Nat} (h : ((s.chan ch).qp u).rate = some rate) :
    s.rateRecover ch u =
      let up := min (rate + s.fld Reg.UPL_CC.step u * 1000) s.lineRate
      let a := s.reach (((s.chan ch).qp u).recoverAt + s.fld Reg.UPL_CC.recover_us u * Config.usPs)
      a.modQp ch u (fun q => { q with rate := if up = s.lineRate then none else some up, recoverAt := a.now }) := by
  unfold Dev.rateRecover
  simp only [h]

/-! ### Acknowledgements -/

/-- Packets that are out are acknowledged. -/
theorem ackPackets_of_out {n : Nat} (h0 : n ≠ 0) (hn : n ≤ ((s.chan ch).qp u).sent) :
    s.ackPackets ch u n =
      let r := popAcked (s.pmtu ch) (((s.chan ch).qp u).acked + n) ((s.chan ch).qp u).backlog
      (s.modQp ch u (fun q => { q with
        backlog := r.2.1, acked := r.2.2, una := (q.una + n) % 2 ^ 24, sent := q.sent - n, next := q.next - n
        retries := 0, progressAt := s.now })).creditRecords ch u r.1 :=
  if_neg (not_or.2 ⟨h0, Nat.not_lt.2 hn⟩)

/-- A NAK of sequence in the window acknowledges what comes before it and goes back. -/
theorem roceNak_sequence_of_out {psn : Nat} (h0 : s.packetsUpTo ch u psn ≠ 0) (hn : s.packetsUpTo ch u psn ≤ ((s.chan ch).qp u).sent) :
    s.roceNak ch u psn .sequence = (s.ackPackets ch u (s.packetsUpTo ch u psn - 1)).goBack ch u :=
  if_neg (not_or.2 ⟨h0, Nat.not_lt.2 hn⟩)

theorem retryTimeout_of_out (h : s.qpLive ch u = true) (h0 : ((s.chan ch).qp u).sent ≠ 0) :
    s.retryTimeout ch u = (s.reach (((s.chan ch).qp u).progressAt + s.retryPs ch)).goBack ch u :=
  if_pos (by simp [h, h0])

end QueuePairs

/-- The claim about rates. -/
theorem congestionControl : Claim.CongestionControl := by
  intro s u ch
  refine ⟨fun hrun => ?_, fun rate hr => ?_⟩
  · intro a q rate cut hs
    have counts {d : Dev} (h : s.dev.cnp ch.val u.val = d) : Yields (.cnpReceive u ch) s d :=
      yields_of_run (fun d => if d.uplinkUp u.val then d.cnp ch.val u.val else d) rfl ((if_pos (uplinkUp_iff.2 hrun)).trans h)
    exact ⟨fun hdue => counts (cnp_of_due rfl hs hdue), fun t hc hin => counts (cnp_of_cut rfl hs hc hin)⟩
  · exact yields_of_run (·.rateRecover ch.val u.val) rfl (rateRecover_of_cut hr)

/-- The claim about acknowledgements and retries. -/
theorem roceAcks : Claim.RoceAcks := by
  intro s u ch hs hrun q
  have hlive := qpLive_iff.2 ⟨hs, hrun⟩
  have naks {psn : BitVec 24} {kind : NakKind} {d : Dev} (h : s.dev.roceNak ch.val u.val psn.toNat kind = d) :
      Yields (.roceNak u ch psn kind) s d :=
    yields_of_run (fun d => if d.qpLive ch.val u.val then d.roceNak ch.val u.val psn.toNat kind else d) rfl ((if_pos hlive).trans h)
  refine ⟨fun psn => fun h0 hn => ?_, fun psn => fun h0 hn => ?_, fun psn => ?_, fun psn => ⟨?_, ?_⟩, fun h0 => ?_⟩
  · exact yields_of_run
      (fun d => if d.qpLive ch.val u.val then d.ackPackets ch.val u.val (d.packetsUpTo ch.val u.val psn.toNat) else d) rfl
      ((if_pos hlive).trans (ackPackets_of_out h0 hn))
  · exact naks (roceNak_sequence_of_out h0 hn)
  · exact naks rfl
  · exact naks rfl
  · exact naks rfl
  · exact yields_of_run (·.retryTimeout ch.val u.val) rfl (retryTimeout_of_out hlive h0)

/-- Settles O25: rates, and acknowledgements and retries. -/
theorem roceTraffic : Obligations.RoceTraffic := ⟨congestionControl, roceAcks⟩

end Sys2Proof.Machine
end

section
/-! PROOFS. DMA channels: descriptors pushed (R298), visits (R352), enable, disable and connect (R284, R307), the turns of a channel
(R299–R305). -/

namespace Sys2Proof.Machine

section Channels

variable {s : Dev} {ch u : Nat}

/-! ### Visits and pushes -/

/-- A visit to the next partition that has a channel to serve. -/
theorem dwrrVisit_of_part {p : Nat} (h : s.uplinkUp u = true) (hp : s.dwrrPart u = some p) :
    s.dwrrVisit u =
      let d := (Sparse.find p (s.upl u).deficits).getD 0 + 64 * s.fld Reg.PART_SHARE.quantum p
      let r := (s.clearSent u).dwrrSend u p d (d / 64 + 1)
      r.2.setUpl u { r.2.upl u with
        deficits := Sparse.set (fun _ => 0) (r.2.upl u).deficits p (if (r.2.readyChans u p).isEmpty then 0 else r.1)
        nextPart := (p + 1) % 16 } := by
  simp only [Dev.dwrrVisit, h, hp, Bool.not_true, Bool.false_eq_true, if_false]

theorem pushDesc_of_room (w : Nat) (hl : s.qLive (s.fld Reg.DMA_CH_CFG.desc_q ch) = true)
    (hr : s.occ (s.fld Reg.DMA_CH_CFG.desc_q ch) + 4 ≤ s.qSize (s.fld Reg.DMA_CH_CFG.desc_q ch)) :
    s.pushDesc ch w = s.qWriteAll (s.fld Reg.DMA_CH_CFG.desc_q ch)
      (((s.chan ch).words.take 3 ++ [w]).map (fun x => (BitVec.ofNat 72 (x % 2 ^ 64), mkCode cNoun))) :=
  if_neg (by simp [hl, Nat.not_lt.2 hr])

theorem pushDesc_of_none (w : Nat) (h : s.qLive (s.fld Reg.DMA_CH_CFG.desc_q ch) = false ∨
    s.qSize (s.fld Reg.DMA_CH_CFG.desc_q ch) < s.occ (s.fld Reg.DMA_CH_CFG.desc_q ch) + 4) :
    s.pushDesc ch w = s.log 9 ch (s.fld Reg.DMA_CH_CFG.owner ch) (s.fld Reg.DMA_CH_CFG.desc_q ch) :=
  if_pos (by simpa using h)

/-! ### Enable, disable and connect -/

theorem chEnable_of_disabled (h : s.flag Reg.DMA_CH_CTRL.enable ch = false) :
    s.chEnable ch = (s.setF Reg.DMA_CH_CTRL.enable 1 ch).chGo ch csChIdle :=
  if_neg (ne_true_of_eq_false h)

/-- What a channel that is disabled keeps of its record: descriptor words, the counters of descriptors and lines, the start PSNs. -/
def ChanRec.disabled (r : ChanRec) : ChanRec :=
  { ChanRec.init with
    words := r.words, descSeq := r.descSeq, lineId := r.lineId
    qp0 := { QpRec.init with startPsn := r.qp0.startPsn }, qp1 := { QpRec.init with startPsn := r.qp1.startPsn } }

theorem chDisable_of_enabled (cause : Nat) (h : s.fld Reg.DMA_CH_CTRL.enable ch ≠ 0) :
    s.chDisable ch cause =
      let b := ((s.endRuns ch (stAborted, cause, false) (fun _ => true)).endSpill ch cause).settle ch (fun _ => true)
      let d := ((b.setChan ch (b.chan ch).disabled).qpReset ch 0).qpReset ch 1
      ((((d.setF Reg.DMA_CH_CTRL.enable 0 ch).chGo ch csChIdle).showService ch).blurWord (Reg.DMA_CH_STAT.lines.addr ch 0 0)).blurWord
        (Reg.DMA_CH_STAT2.retransmits.addr ch 0 0) :=
  if_neg h

/-- A queue pair of an enabled channel that is not in RTS enters it from its start PSN; a stopped channel goes on. -/
theorem qpConnect_of_unconnected (he : s.fld Reg.DMA_CH_CTRL.enable ch ≠ 0) (hq : s.qpState ch u ≠ qsRts) :
    s.qpConnect ch u =
      let start := ((s.chan ch).qp u).startPsn
      let a := ((s.setF Reg.DMA_CH_QP.qp_state qsRts ch u).setF Reg.DMA_CH_QP.psn start ch u).modQp ch u (fun q =>
        { QpRec.init with una := start, startPsn := start, dropped := q.dropped, progressAt := s.now })
      if a.fld Reg.DMA_CH_CTRL.state ch = csChStopped then a.chGo ch csChIdle else a :=
  if_neg (not_or.2 ⟨he, hq⟩)

/-! ### The turns of a channel -/

/-- May the next descriptor of a channel start: a queue pair can serve it, and the source queue that its words name is ready, where it does
not go on with a chain (R301)? -/
def Dev.mayStart (s : Dev) (ch : Nat) : Bool :=
  let q := s.fld Reg.DMA_CH_CFG.desc_q ch
  let src := (slotGrain s.mem (s.slotAt q (s.fld Reg.QD_CONS.read_ptr q))).toNat % 2 ^ 15
  s.hasQp ch && ((s.chan ch).chained || s.chLocal ch || s.chanReady ch src)

/-- A record taken by a descriptor: one longer than the buffer is dropped, one that fits no more is held over, any other is added. -/
def Dev.takeRecord (s : Dev) (ch : Nat) (x : DescRun) (l : LineRec) : Dev :=
  if x.d.length < l.bytes.length then s.oversize ch l
  else if x.d.length < x.offset + l.bytes.length then ((s.modChan ch (fun r => { r with spill := some l })).completeRun ch x).chanNext ch 64
  else (s.closeWith l).addRecord ch x l

section Take

variable {x : DescRun} {l : LineRec} (hle : l.bytes.length ≤ x.d.length)

include hle

theorem takeRecord_of_fits (h : x.offset + l.bytes.length ≤ x.d.length) : s.takeRecord ch x l = (s.closeWith l).addRecord ch x l :=
  (if_neg (Nat.not_lt.2 hle)).trans (if_neg (Nat.not_lt.2 h))

theorem takeRecord_of_over (h : x.d.length < x.offset + l.bytes.length) :
    s.takeRecord ch x l = ((s.modChan ch (fun r => { r with spill := some l })).completeRun ch x).chanNext ch 64 :=
  (if_neg (Nat.not_lt.2 hle)).trans (if_pos h)

end Take

section Next

variable (n : Nat) (hr : s.chRuns ch = true) (hs : s.fld Reg.DMA_CH_CTRL.state ch ≠ csChStopped)

include hr hs

/-- With an open descriptor a channel goes on with it, or stays as it is. -/
theorem chanNext_of_open {x : DescRun} (ho : (s.chan ch).openRun = some x) :
    s.chanNext ch (n + 1) =
      if x.running || !s.chanReady ch x.d.srcQ then s
      else (s.modChan ch (fun r => r.modRun x.seq (fun y => { y with running := true }))).chGo ch csChRunning := by
  simp [Dev.chanNext, hr, hs, ho]

/-- With none, and fewer than four words in its descriptor queue, it starves where its last source is ready, and else is idle. -/
theorem chanNext_of_few (ho : (s.chan ch).openRun = none)
    (hw : s.qLive (s.fld Reg.DMA_CH_CFG.desc_q ch) = false ∨ s.fill (s.fld Reg.DMA_CH_CFG.desc_q ch) < 4) :
    s.chanNext ch (n + 1) =
      if !s.chLocal ch && (s.chan ch).srcQ.any (fun x => s.qLive x && s.chanReady ch x) then s.starve ch else s.chGo ch csChIdle := by
  have hw' : (!s.qLive (s.regs.fld Reg.DMA_CH_CFG.desc_q ch)) = true ∨ s.fill (s.regs.fld Reg.DMA_CH_CFG.desc_q ch) < 4 := by
    rw [Bool.not_eq_true']
    exact hw
  rw [Dev.chanNext, if_neg (by simp [hr, hs])]
  simp only [ho, decide_eq_true_eq, Bool.or_eq_true]
  exact if_pos hw'

/-- With none, and four words, it is idle while its descriptor may not start; else it starts that, and goes on where that has ended already. -/
theorem chanNext_of_words (ho : (s.chan ch).openRun = none) (hl : s.qLive (s.fld Reg.DMA_CH_CFG.desc_q ch) = true)
    (hw : 4 ≤ s.fill (s.fld Reg.DMA_CH_CFG.desc_q ch)) :
    s.chanNext ch (n + 1) =
      if !s.mayStart ch then s.chGo ch csChIdle
      else if ((s.startDesc ch).chan ch).openRun.isSome then s.startDesc ch else (s.startDesc ch).chanNext ch n := by
  have hw' : ¬ ((!s.qLive (s.regs.fld Reg.DMA_CH_CFG.desc_q ch) || s.fill (s.regs.fld Reg.DMA_CH_CFG.desc_q ch) < 4) = true) := by
    rw [Bool.or_eq_true, Bool.not_eq_true', decide_eq_true_eq, not_or]
    exact ⟨ne_false_of_eq_true hl, Nat.not_lt.2 hw⟩
  rw [Dev.chanNext, if_neg (by simp [hr, hs])]
  simp only [ho]
  refine (if_neg hw').trans ?_
  rw [← Bool.not_and]
  rfl

end Next

/-! ### Lines and slots -/

section Assemble

variable {x : DescRun} {l : LineRec} (hr : s.chRuns ch = true) (hl : s.chLocal ch = false) (ho : (s.chan ch).openRun = some x)
  (hx : x.running = true)

include hr hl ho hx

/-- Without a record held over and without a source ready the descriptor runs no longer. -/
theorem assemble_of_dry (hn : (s.chan ch).spill = none) (hd : s.srcReady x.d.srcQ = false) :
    s.assemble ch =
      ((s.modChan ch (fun r => r.modRun x.seq (fun y => { y with running := false }))).chGo ch csChIdle).flushHeld ch x.seq false := by
  simp [Dev.assemble, hr, hl, ho, hx, hn, hd]

/-- A record held over is the next one. -/
theorem assemble_of_spill (hs : (s.chan ch).spill = some l) :
    s.assemble ch = (s.modChan ch (fun r => { r with spill := none })).takeRecord ch x l := by
  simp [Dev.assemble, hr, hl, ho, hx, hs, Dev.takeRecord]

/-- Without one the next record is read from the source. -/
theorem assemble_of_read (hn : (s.chan ch).spill = none) (hd : s.srcReady x.d.srcQ = true)
    (hg : (s.readRecord ch x.d.srcQ (s.fill x.d.srcQ)).1 = some l) :
    s.assemble ch = (s.readRecord ch x.d.srcQ (s.fill x.d.srcQ)).2.takeRecord ch x l := by
  simp [Dev.assemble, hr, hl, ho, hx, hn, hd, hg, Dev.takeRecord]

end Assemble

theorem localCopy_of_open {x : DescRun} (hr : s.chRuns ch = true) (hl : s.chLocal ch = true) (ho : (s.chan ch).openRun = some x) :
    s.localCopy ch =
      ((((s.copySlots x.d.srcQ x.d.addr x.d.dst x.d.length).modChan ch (fun r =>
        { (r.modRun x.seq (fun y => { y with complete := true, running := false, ended := some (stDone, 0, true) })) with
          chained := x.d.chain })).chGo ch csChIdle).finishAll ch).chanNext ch 64 := by
  simp [Dev.localCopy, hr, hl, ho]

end Channels

/-! ### The claims -/

/-- A visit by `dwrrVisit_of_part`, after which the frames struck are spoiled. -/
theorem dwrrVisit : Claim.DwrrVisit := by
  intro s u p struck hrun hp
  have hup := uplinkUp_iff.2 hrun
  exact yields_of_run
    (fun d => if d.uplinkUp u.val && (d.dwrrPart u.val).isSome then (d.dwrrVisit u.val).strikeFrames u.val struck else d.dwrrVisit u.val) rfl
    ((if_pos (by simp [hup, hp])).trans (congrArg (fun d : Dev => d.strikeFrames u.val struck) (dwrrVisit_of_part hup hp)))

theorem descriptorPush : Claim.DescriptorPush := fun _ ch w =>
  ⟨fun hl hr => yields_of_run (·.pushDesc ch.val w.toNat) rfl (pushDesc_of_room w.toNat hl hr),
    fun h => yields_of_run (·.pushDesc ch.val w.toNat) rfl (pushDesc_of_none w.toNat h)⟩

section Turns

variable {s : State} {ch : Chan} {d : Dev} (hf : (s.dev.part (s.dev.chOwner ch.val)).stalled = false)

include hf

theorem yields_channelReady (h : s.dev.chanNext ch.val 64 = d) : Yields (.channelReady ch) s d :=
  yields_of_run (fun d => d.unlessStalled (d.chOwner ch.val) (fun e => e.chanNext ch.val 64)) rfl ((unlessStalled_of_free _ hf).trans h)

theorem yields_lineRecordAssemble (h : s.dev.assemble ch.val = d) : Yields (.lineRecordAssemble ch) s d :=
  yields_of_run (fun d => d.unlessStalled (d.chOwner ch.val) (fun e => e.assemble ch.val)) rfl ((unlessStalled_of_free _ hf).trans h)

theorem yields_localDescriptorCopy (h : s.dev.localCopy ch.val = d) : Yields (.localDescriptorCopy ch) s d :=
  yields_of_run (fun d => d.unlessStalled (d.chOwner ch.val) (fun e => e.localCopy ch.val)) rfl ((unlessStalled_of_free _ hf).trans h)

end Turns

/-- The claim about channels: enable, disable and connect by the branches of their operations, a waiting channel by those of `chanNext`, a
running one by how its next record fits. -/
theorem dmaChannels : Claim.DmaChannels := by
  intro s ch
  refine ⟨fun h => ?_, fun h => ?_, fun u he hq => ?_, fun hf hr => ⟨fun hs => ⟨fun x ho => ⟨fun hx hg => ?_, fun hx => ?_⟩, ?_⟩,
    fun x hl ho hx => ?_, fun x hl ho => ?_⟩⟩
  · exact yields_of_run (·.chEnable ch.val) rfl (chEnable_of_disabled h)
  · exact yields_of_run (·.chDisable ch.val caDisabled) rfl (chDisable_of_enabled _ h)
  · have connects := qpConnect_of_unconnected he hq
    exact ⟨fun hn => yields_of_run (·.qpConnect ch.val u.val) rfl (connects.trans (if_neg hn)),
      fun hp => yields_of_run (·.qpConnect ch.val u.val) rfl (connects.trans (if_pos hp))⟩
  · exact yields_channelReady hf ((chanNext_of_open 63 hr hs ho).trans (if_neg (by simp [hx, hg])))
  · exact yields_channelReady hf ((chanNext_of_open 63 hr hs ho).trans (if_pos (by simpa using hx)))
  · intro q src ripe may ho
    refine ⟨fun hw => ?_, fun hl hw => ?_⟩
    · have few := chanNext_of_few 63 hr hs ho hw
      exact ⟨fun h => yields_channelReady hf (few.trans (if_pos (by simpa [ripe] using h))),
        fun h => yields_channelReady hf (few.trans (if_neg (by simpa [ripe] using h)))⟩
    · have words := chanNext_of_words 63 hr hs ho hl hw
      have starts : s.dev.mayStart ch.val = true ↔ may := Bool.and_eq_true_iff
      exact ⟨fun h => yields_channelReady hf (words.trans (if_pos (by simpa using mt starts.1 h))),
        fun h hopen => yields_channelReady hf (words.trans ((if_neg (by simp [starts.2 h])).trans (if_pos hopen)))⟩
  · intro fit
    have takes {a : Dev} {l : LineRec} (h : s.dev.assemble ch.val = a.takeRecord ch.val x l) : fit a l :=
      ⟨fun hlong => yields_lineRecordAssemble hf (h.trans (if_pos hlong)),
        fun hle hfits => yields_lineRecordAssemble hf (h.trans (takeRecord_of_fits hle hfits)),
        fun hle hover => yields_lineRecordAssemble hf (h.trans (takeRecord_of_over hle hover))⟩
    exact ⟨fun hn hd => yields_lineRecordAssemble hf (assemble_of_dry hr hl ho hx hn hd),
      fun l hs => takes (assemble_of_spill hr hl ho hx hs), fun l hn hd hg => takes (assemble_of_read hr hl ho hx hn hd hg)⟩
  · exact yields_localDescriptorCopy hf (localCopy_of_open hr hl ho)

/-- Settles O26: visits, pushes and channels. -/
theorem dmaTraffic : Obligations.DmaTraffic := ⟨dwrrVisit, descriptorPush, dmaChannels⟩

end Sys2Proof.Machine
end

section
/-! PROOFS. Flank links: the training of a link (R318–R321), frames with their acknowledgements (R311, R312), and seam copies (R317). -/

namespace Sys2Proof.Machine

/-- A command that runs an operation of the device, after which start-up looks for its next state, yields the result so checked. -/
theorem yields_of_runBoot {c : Instr} {s : State} {d : Dev} (f : Dev → Dev) (hc : exec c s = s.runBoot f) (hd : f s.dev = d) :
    Yields c s (d.bootCheck s.fuses.uid) :=
  yields_of_run (fun d => (f d).bootCheck s.fuses.uid) hc (congrArg (·.bootCheck s.fuses.uid) hd)

theorem flkUp_iff {s : Dev} {l : Nat} : s.flkUp l = true ↔ s.flkState l = fsRun := beq_iff_eq

/-! ### Training (R318–R321) -/

section Training

variable {s : Dev} {l : Nat}

theorem fsEqualise_lt_fsRun : fsEqualise < fsRun := by decide

theorem flkLeave_of_up (h : s.flkUp l = true) :
    s.flkLeave l = ((s.countAnd Reg.FLK_STAT.run_exits l 0 2 10 l 0 0 0).seamCut l).flkStart l :=
  if_pos h

theorem backoffEnd_of_down {t : Nat} (h : s.flkState l = fsDown) (ht : (s.flank l).waitUntil = some t) :
    s.backoffEnd l = (s.reach t).flkGo l fsDetect := by
  simp only [Dev.backoffEnd, ht, if_pos h]

variable (ht : s.flkTrains l = true)

include ht

theorem headersSeen_of_untrained {p : Nat} (rates : Option (Nat × Nat)) (h : s.flkState l = fsDetect ∨ s.flkState l = fsDown)
    (hp : s.assigned = true → p ≠ s.chainAddr) :
    s.headersSeen l p rates = ((s.setF Reg.FLK_STATUS.partner p l).modFlank l (fun r => { r with partner := rates })).flkGo l fsPolarity := by
  have other : ¬ (!s.flkTrains l ∨ (s.assigned ∧ p = s.chainAddr)) := by
    rintro (h | ⟨ha, he⟩)
    · simp [ht] at h
    · exact hp ha he
  exact (if_neg other).trans (if_pos h)

theorem polaritySettled_of_polarity (x : Nat) (h : s.flkState l = fsPolarity) :
    s.polaritySettled l x = (s.modFlank l (fun r => { r with inverted := x })).flkGo l fsOrder :=
  if_pos ⟨ht, h⟩

theorem orderFound_of_distinct {m : Nat} (h : s.flkState l = fsOrder) (hm : distinctLanes m = true) :
    s.orderFound l m = (s.modFlank l (fun r => { r with
      laneMap := m, rate := (s.commonRates l r.partner).1, lowest := (s.commonRates l r.partner).2 })).flkGo l fsEqualise :=
  if_pos ⟨ht, h, hm⟩

/-- The end of an equalisation turns on the rates common with the partner. -/
theorem equalised_of_equalise (met : Bool) (pmax pmin : Nat) (h : s.flkState l = fsEqualise) :
    s.equalised l met pmax pmin =
      let a := s.modFlank l (fun r => { r with rate := max r.rate pmax, lowest := (s.commonRates l (some (pmax, pmin))).2 })
      if (a.flank l).lowest < (a.flank l).rate then a.flkFail l else if met then a.flkGo l fsAlign else a.nextRate l :=
  if_pos ⟨ht, h⟩

theorem flkAligned_of_align (h : s.flkState l = fsAlign) :
    s.flkAligned l =
      let r := s.flank l
      let a := (((s.flkClear l).setF Reg.FLK_LANES.inverted r.inverted l).setF Reg.FLK_LANES.lane_map r.laneMap l).setF
        Reg.FLK_LANES.reversed (if r.laneMap = 27 then 1 else 0) l
      (((a.setF Reg.FLK_LANES.rate r.rate l).setF Reg.FLK_STATUS.attempts 0 l).setF Reg.FLK_STATUS.backoff 0 l).flkGo l fsRun :=
  if_pos ⟨ht, h⟩

/-- The limit of a state before RUN. -/
theorem flkTimeout_of_before_run (h : s.flkState l < fsRun) :
    s.flkTimeout l =
      let a := s.reach ((s.flank l).since + trainLimit (s.flkState l))
      if s.flkState l = fsEqualise then a.nextRate l else a.flkFail l :=
  if_pos ⟨ht, h⟩

end Training

/-- Settles O30: each event of the training by the case of its operation. -/
theorem flankTraining : Obligations.FlankTraining := by
  intro s l ht
  refine ⟨fun p rates h hp => ?_, fun x h => ?_, fun x h hx => ?_, fun pmax pmin h => ?_, fun h => ?_, ⟨fun hlt hne => ?_, fun h => ?_⟩,
    fun t h hw => ?_, fun h => ?_⟩
  · exact yields_of_runBoot _ (show _ = execFlankHeadersSeen l p s rates from rfl) (headersSeen_of_untrained ht _ h hp)
  · exact yields_of_run (·.polaritySettled l.val x.toNat) rfl (polaritySettled_of_polarity ht _ h)
  · exact yields_of_run (·.orderFound l.val x.toNat) rfl (orderFound_of_distinct ht h hx)
  · have ends (met : Bool) := equalised_of_equalise ht met pmax.val pmin.val h
    refine ⟨fun hle => ⟨?_, ?_⟩, fun met hlt => ?_⟩
    · exact yields_of_runBoot (·.equalised l.val true pmax.val pmin.val) rfl ((ends true).trans (if_neg (Nat.not_lt.2 hle)))
    · exact yields_of_runBoot (·.equalised l.val false pmax.val pmin.val) rfl ((ends false).trans (if_neg (Nat.not_lt.2 hle)))
    · exact yields_of_runBoot (·.equalised l.val met pmax.val pmin.val) rfl ((ends met).trans (if_pos hlt))
  · exact yields_of_runBoot (·.flkAligned l.val) rfl (flkAligned_of_align ht h)
  · exact yields_of_runBoot (·.flkTimeout l.val) rfl ((flkTimeout_of_before_run ht hlt).trans (if_neg hne))
  · exact yields_of_runBoot (·.flkTimeout l.val) rfl ((flkTimeout_of_before_run ht (h ▸ fsEqualise_lt_fsRun)).trans (if_pos h))
  · exact yields_of_run (·.backoffEnd l.val) rfl (backoffEnd_of_down h hw)
  · exact yields_of_runBoot (·.flkLeave l.val) rfl (flkLeave_of_up (flkUp_iff.2 h))

/-! ### Frames (R311, R312) -/

section Frames

variable {s : Dev} {l : Nat}

theorem acked_of_out {n : Nat} (h : (s.flank l).unacked.any (fun f => f.1 == n) = true) :
    s.acked l n = s.modFlank l (fun r => { r with
      unacked := (r.unacked.dropWhile (fun f => f.1 != n)).drop 1, retries := 0, sentAt := s.now }) :=
  if_pos h

theorem acked_of_not_out {n : Nat} (h : (s.flank l).unacked.any (fun f => f.1 == n) = false) : s.acked l n = s :=
  if_neg (by simp only [h, Bool.false_eq_true, not_false_eq_true])

/-- What a link may send from: the loads that wait, or, with none, a seam copy read. -/
def Dev.seamFilled (s : Dev) (l : Nat) : Dev := if (s.flank l).waiting.isEmpty then s.seamRead l else s

variable (hu : s.flkUp l = true)

include hu

theorem frameSend_of_load {x : FlkLoad} {rest : List FlkLoad} (hp : pickLoad ((s.seamFilled l).flank l).waiting = some (x, rest))
    (hn : ((s.seamFilled l).flank l).unacked.length < 64) : s.frameSend l = (s.seamFilled l).sendLoad l x rest := by
  unfold Dev.seamFilled at *
  simp only [Dev.frameSend, hu, if_true, hp, hn, decide_true]

theorem frameSend_of_nothing
    (h : pickLoad ((s.seamFilled l).flank l).waiting = none ∨ 64 ≤ ((s.seamFilled l).flank l).unacked.length) :
    s.frameSend l = (s.seamFilled l).flkEmit l 1 0 .lost := by
  unfold Dev.seamFilled at *
  rcases h with hp | hn
  · simp only [Dev.frameSend, hu, if_true, hp]
  · simp only [Dev.frameSend, hu, if_true, decide_eq_false (Nat.not_lt.2 hn)]
    split
    · contradiction
    · rfl

theorem frameDiscard_of_outOfSequence : s.frameDiscard l .outOfSequence = s.sendNak l := if_neg (by simp [hu])

theorem frameDiscard_of_reserved : s.frameDiscard l .reserved = s.bump Reg.FLK_STAT.crc_fail l := if_neg (by simp [hu])

/-- One whose CRC fails is kept with those of the last millisecond, of which there may be too many. -/
theorem frameDiscard_of_crc :
    s.frameDiscard l .crc =
      let a := ((s.bump Reg.FLK_STAT.crc_fail l).sendNak l).modFlank l (fun r => { r with
        fails := s.now :: r.fails.filter (fun t => decide (s.now < t + Config.msPs)) })
      if 1024 < (a.flank l).fails.length then a.flkLeave l else a :=
  if_neg (by simp [hu])

theorem ackTimeout_of_out (h : (s.flank l).unacked ≠ []) :
    s.ackTimeout l = (s.reach ((s.flank l).sentAt + s.fld Reg.FLK_CTRL.ack_timeout l * Config.nsPs)).retransmit l :=
  if_pos (by simp [hu, h])

end Frames

/-! ### Seam copies (R317) -/

section SeamCopies

variable {s : Dev} {l k : Nat} {cells : List Cell} (he : s.fld Reg.FLK_SEAM.rx_en l k ≠ 0)

include he

/-- What belongs to a copy that was dropped goes with it, and so does what continues a line of which the queue holds none. -/
theorem seamReceive_of_lost
    (h : ((s.flank l).dropped.contains k || (continues cells && (s.queue (s.fld Reg.FLK_SEAM.rx_q l k)).openTag.isNone)) = true) :
    s.seamReceive l k cells = s.seamDrops l k cells := by
  rw [Dev.seamReceive, if_neg he]
  rcases Bool.or_eq_true_iff.1 h with hd | hc
  · exact if_pos hd
  · rw [if_pos hc, ite_self]

/-- Any other copy is written where its queue takes all of it. -/
theorem seamReceive_of_kept
    (h : ((s.flank l).dropped.contains k || (continues cells && (s.queue (s.fld Reg.FLK_SEAM.rx_q l k)).openTag.isNone)) = false) :
    s.seamReceive l k cells =
      let q := s.fld Reg.FLK_SEAM.rx_q l k
      if s.qLive q && !s.qWaits 64 q && decide (s.occ q + cells.length ≤ s.qSize q) then s.qWriteAll q cells
      else ((s.qDiscard 64 q).bump Reg.FLK_STAT2.seam_rx_drops l).seamDrops l k cells := by
  obtain ⟨hd, hc⟩ := Bool.or_eq_false_iff.1 h
  rw [Dev.seamReceive, if_neg he]
  exact (if_neg (ne_true_of_eq_false hd)).trans (if_neg (ne_true_of_eq_false hc))

end SeamCopies

/-- A command that acts on a frame in sequence yields what the act makes of the device that accepted it. -/
theorem yields_of_dataFrame {c : Instr} {s : State} {l : Link} {f : Option FrameSeq} {d : Dev} (act : Dev → Dev)
    (hc : exec c s = s.run (fun d => d.dataFrame l.val f act)) (hq : InSequence s.dev l f) (hd : act (accepted s.dev l f) = d) :
    Yields c s d :=
  yields_of_run (fun d => d.dataFrame l.val f act) hc ((dataFrame_inSequence _ _ _ _ hq).trans hd)

/-- Settles O31: each event of a link in RUN by the case of its operation, a seam copy by those of `seamReceive`. -/
theorem flankFrames : Obligations.FlankFrames := by
  intro s l hrun
  have hu : s.dev.flkUp l.val = true := flkUp_iff.2 hrun
  refine ⟨⟨fun x rest hp hn => ?_, fun h => ?_⟩, fun n => ⟨fun h => ⟨?_, ?_⟩, fun h => ⟨?_, ?_⟩⟩, ?_, ?_, ⟨fun h => ?_, fun h => ?_⟩, fun h => ?_,
    fun k cells f hq => ?_⟩
  · exact yields_of_run (·.frameSend l.val) rfl (frameSend_of_load hu hp hn)
  · exact yields_of_run (·.frameSend l.val) rfl (frameSend_of_nothing hu h)
  · exact yields_of_run (fun d => if d.flkUp l.val then d.acked l.val n.toNat else d) rfl ((if_pos hu).trans (acked_of_out h))
  · exact yields_of_runBoot (fun d => if d.flkUp l.val then (d.acked l.val n.toNat).retransmit l.val else d) rfl
      ((if_pos hu).trans (congrArg (fun d : Dev => d.retransmit l.val) (acked_of_out h)))
  · exact yields_of_run (fun d => if d.flkUp l.val then d.acked l.val n.toNat else d) rfl ((if_pos hu).trans (acked_of_not_out h))
  · exact yields_of_runBoot (fun d => if d.flkUp l.val then (d.acked l.val n.toNat).retransmit l.val else d) rfl
      ((if_pos hu).trans (congrArg (fun d : Dev => d.retransmit l.val) (acked_of_not_out h)))
  · exact yields_of_runBoot (·.frameDiscard l.val .outOfSequence) rfl (frameDiscard_of_outOfSequence hu)
  · exact yields_of_runBoot (·.frameDiscard l.val .reserved) rfl (frameDiscard_of_reserved hu)
  · exact yields_of_runBoot (·.frameDiscard l.val .crc) rfl ((frameDiscard_of_crc hu).trans (if_neg (Nat.not_lt.2 h)))
  · exact yields_of_runBoot (·.frameDiscard l.val .crc) rfl ((frameDiscard_of_crc hu).trans (if_pos h))
  · exact yields_of_runBoot (·.ackTimeout l.val) rfl (ackTimeout_of_out hu h)
  · intro a q lost he
    have receives {d : Dev} : a.seamReceive l.val k.val cells = d → Yields (.seamCopyReceive l k cells f) s d :=
      yields_of_dataFrame (fun e => e.seamReceive l.val k.val cells) rfl hq
    refine ⟨fun hl => receives (seamReceive_of_lost he hl), fun hl => ⟨fun hv hw ho => ?_, fun h => ?_⟩⟩
    · exact receives ((seamReceive_of_kept he hl).trans (if_pos (by simp [q, hv, hw, ho])))
    · refine receives ((seamReceive_of_kept he hl).trans (if_neg fun hfits => ?_))
      simp only [Bool.and_eq_true, Bool.not_eq_true', decide_eq_true_eq] at hfits
      obtain ⟨⟨hv, hw⟩, ho⟩ := hfits
      rcases h with h | h | h
      · exact absurd hv (ne_true_of_eq_false h)
      · exact absurd h (ne_true_of_eq_false hw)
      · exact absurd ho (Nat.not_le.2 h)

end Sys2Proof.Machine
end

section
/-! PROOFS. The chain: enumeration (R325, R326, R328), presence and joining (R327). -/

namespace Sys2Proof.Machine

/-- The first copy of a message for the whole chain is acted on. -/
theorem ringIn_first_of_broadcast {s : Dev} {l : Link} {m : RingMsg} (act : Dev → Dev) (h : FirstCopy s l m) (hb : m.broadcast = true) :
    s.ringIn l.val m act = act (heardFirst s l m) :=
  (ringIn_first s l m act h).trans (if_pos (by simp [hb]))

/-! ### Enumeration (R325, R326, R328) -/

section Enumeration

variable {s : Dev}

/-- An enumerate message in sequence goes to the root's or to the follower's operation. -/
theorem enumArrive_of_enumerate {l : Link} {m : RingMsg} {row : Bool} {uid map : BitVec 64} {onFl returning forced : Bool} {reserved : BitVec 64}
    (own : BitVec 64) (hq : InSequence s l m.frame) (hm : m.body = .enumerate row uid map onFl returning forced reserved) :
    s.enumArrive l.val own m =
      let a := accepted s l m.frame
      if a.isRoot then a.enumRoot l.val own m row uid map onFl returning forced reserved
      else a.enumFollow l.val m row uid map onFl returning forced reserved := by
  rw [Dev.enumArrive, dataFrame_inSequence _ _ _ _ hq, hm]

theorem enumTimeout_of_settled {t : Nat} (ht : s.chain.settledAt = some t) (hr : s.straps.root = false) (hb : s.bootState = bsEnumerate)
    (he : s.fld Reg.FLK_CHAIN.enum_state = esIdle) :
    s.enumTimeout = (s.reach (t + s.fld Reg.FLK_CHAIN.enum_timeout * Config.msPs)).enumFail esNoRoot := by
  simp [Dev.enumTimeout, ht, Dev.isRoot, hr, hb, he]

theorem forceRenumber_of_root (uid : BitVec 64) (hr : s.straps.root = true) :
    s.forceRenumber uid =
      if s.flag Reg.MARN_CTRL.run then s.log 10 2 0 (Reg.FLK_CHAIN.force_renumber.addr 0 0 0) else s.enumAsked uid true :=
  if_neg (by simp [Dev.isRoot, hr])

end Enumeration

/-- A device records the first copy of the root's end of an enumeration. -/
theorem yields_chainDoneMessage {s : State} {l : Link} {m : RingMsg} {count : BitVec 7} {map : BitVec 64} {closed : Bool}
    (hf : FirstCopy s.dev l m) (hm : m.body = .chainDone count map closed) (hb : m.broadcast = true) :
    Yields (.chainDoneMessage l m) s (((heardFirst s.dev l m).chainDone count.toNat map closed).bootCheck s.fuses.uid) := by
  refine yields_of_runBoot _ (show _ = execChainDoneMessage l m s from rfl) ((ringIn_first_of_broadcast _ hf hb).trans ?_)
  simp only [hm]

/-! ### Presence and joining (R327) -/

section Presence

variable {s : Dev}

theorem presenceSend_of_assigned (h : s.assigned = true) :
    s.presenceSend =
      let a := s.reach (s.chain.presenceAt + Config.msPs)
      (({ a with chain := { a.chain with presenceAt := a.now } }).ringSend chEnum none .presence).hear (a.fld Reg.FLK_CHAIN.position) :=
  if_pos h

theorem absent_of_heard {p t : Nat} (h : Sparse.find p s.chain.heard = some t) :
    s.absent p =
      let a := s.reach (t + 10 * Config.msPs)
      let b := a.setF Reg.FLK_CHAIN_MAP.present (a.fld Reg.FLK_CHAIN_MAP.present &&& (2 ^ 64 - 1 - 2 ^ p))
      ({ b with chain := { b.chain with heard := Sparse.erase p b.chain.heard } }).checkLength := by
  rw [Dev.absent, h]

theorem joinSend_of_unassigned (ha : s.assigned = false) (hu : s.flkUp 0 = true ∨ s.flkUp 1 = true) :
    s.joinSend =
      let a := s.reach (s.chain.joinAt + 100 * Config.msPs)
      ({ a with chain := { a.chain with joinAt := a.now } }).ringSend chEnum none .join :=
  if_pos ⟨by simp [ha], hu⟩

end Presence

/-- Settles O32: messages by `dataFrame_inSequence` and `ringIn_first_of_broadcast`, the rest by the cases of their operations. -/
theorem chainEnumeration : Obligations.ChainEnumeration := by
  intro s
  refine ⟨fun l m row uid map onFl ret forced reserved hq hm => ⟨fun hr => ?_, fun hr => ?_⟩,
    fun l m count map closed hf hm hb => yields_chainDoneMessage hf hm hb, fun t ht hr hb he => ?_,
    fun hr => ⟨?_, fun hn => ?_, fun hn => ?_⟩, fun ha => ?_, fun l m hf hb => ?_, fun p t h => ?_, fun ha hu => ?_, fun l m hf hb hr he => ?_⟩
  · exact yields_of_runBoot (·.enumArrive l.val s.fuses.uid m) rfl
      ((enumArrive_of_enumerate _ hq hm).trans (if_neg (ne_true_of_eq_false hr)))
  · exact yields_of_runBoot (·.enumArrive l.val s.fuses.uid m) rfl ((enumArrive_of_enumerate _ hq hm).trans (if_pos hr))
  · exact yields_of_run (·.enumTimeout) rfl (enumTimeout_of_settled ht hr hb he)
  · exact yields_of_runBoot (fun d => if d.isRoot then d.enumAsked s.fuses.uid false else d) rfl (if_pos hr)
  · exact yields_of_runBoot (·.forceRenumber s.fuses.uid) rfl ((forceRenumber_of_root _ hr).trans (if_neg (ne_true_of_eq_false hn)))
  · exact yields_of_runBoot (·.forceRenumber s.fuses.uid) rfl ((forceRenumber_of_root _ hr).trans (if_pos hn))
  · exact yields_of_run (·.presenceSend) rfl (presenceSend_of_assigned ha)
  · exact yields_of_run (fun d => d.ringIn l.val m (fun e => e.hear (m.origin.toNat % 64))) rfl (ringIn_first_of_broadcast _ hf hb)
  · exact yields_of_run (·.absent p.val) rfl (absent_of_heard h)
  · exact yields_of_run (·.joinSend) rfl (joinSend_of_unassigned ha hu)
  · exact yields_of_runBoot (fun d => d.ringIn l.val m (fun e =>
        if e.isRoot ∧ e.fld Reg.FLK_CHAIN.enum_state ≠ esRunning then e.enumStart s.fuses.uid false else e)) rfl
      ((ringIn_first_of_broadcast _ hf hb).trans (if_pos ⟨hr, he⟩))

end Sys2Proof.Machine
end

section
/-! PROOFS. Twins: beacons and the loss of the twin (R329), relayed events (R323), and digests (R389–R391). -/

namespace Sys2Proof.Machine

section Twins

variable {s : Dev}

/-! ### Beacons, the loss of the twin, and relayed events -/

theorem beaconSend_of_assigned (h : s.assigned = true) :
    s.beaconSend =
      let a := s.reach (s.chain.beaconAt + Config.msPs)
      let live := a.fld Reg.FLK_TWIN.twin_state == twLive
      (({ a with chain := { a.chain with beaconAt := a.now } }).ringSend chTwin none (.twinBeacon live)).twinMapSet
        (a.fld Reg.FLK_CHAIN.position) live :=
  if_pos h

theorem twinLost_of_heard (he : s.flag Reg.FLK_TWIN.twin_en = true) (hs : s.fld Reg.FLK_TWIN.twin_state ≠ twLost) :
    s.twinLost =
      (List.range 32).foldl (fun d n => if d.cciActive n then d else d.modCci n (fun r => { r with activeWait := some d.now }))
        ((((s.reach (s.twin.heardAt + s.fld Reg.FLK_TWIN.twin_timeout * Config.msPs)).setF
          Reg.FLK_TWIN.twin_state twLost).alarmAt Reg.FLK_TWIN.twin_state 0 0 10 6 2 0).notice 0 12 0) :=
  if_pos ⟨he, hs⟩

theorem copyIn_of_first {m : RingMsg} (act : Dev → Dev) (h : s.firstCopy m = none) : s.copyIn m act = act (s.keepCopy m) := by
  rw [Dev.copyIn, h]

/-- A device with an uplink in RUN sends on the first copy of what another device relays. -/
theorem relayArrive_of_uplink {l : Link} {m : RingMsg} (hq : InSequence s l m.frame) (hu : s.uplinkUp 0 = true ∨ s.uplinkUp 1 = true)
    (ho : s.isOrigin m = false) (hn : (accepted s l m.frame).firstCopy m = none) :
    s.relayArrive l.val m = ((accepted s l m.frame).keepCopy m).relaySend m.body := by
  rw [Dev.relayArrive, if_pos (by simp [hu, ho]), dataFrame_inSequence _ _ _ _ hq, copyIn_of_first _ hn]

/-! ### Digests -/

theorem twinBatch_of_waiting {d : Digest} {rest : List Digest} (he : s.flag Reg.FLK_TWIN.twin_en = true) (hw : s.twin.unsent = d :: rest) :
    s.twinBatch =
      let a := if 67 ≤ (d :: rest).length then s else s.reach (d.at_ + s.fld Reg.INTG_CTRL.twin_batch * Config.usPs)
      { a with twin := { a.twin with unsent := (d :: rest).drop 67 } }.twinSend ((d :: rest).take 67) := by
  rw [Dev.twinBatch, he, hw]

theorem digestExpire_of_oldest {t : Nat} (h : ((s.twin.own ++ s.twin.theirs).map (fun d => d.at_)).min? = some t) :
    s.digestExpire =
      let w := s.fld Reg.INTG_CTRL.twin_window * Config.msPs
      let a := s.reach (t + w)
      let stays := fun (d : Digest) => decide (a.now < d.at_ + w)
      let own := s.twin.own.filter stays
      let theirs := s.twin.theirs.filter stays
      { a with twin := { a.twin with own := own, theirs := theirs } }.bump Reg.INTG_TWIN_STAT.unmatched 0 0 0
        ((s.twin.own ++ s.twin.theirs).length - (own ++ theirs).length) := by
  rw [Dev.digestExpire, h]
  rfl

section Arrival

variable {m : KmpMsg} (src : Nat) (he : s.flag Reg.FLK_TWIN.twin_en = true) (hop : m.opcode = 0x40#8)

include he hop

theorem twinIn_of_unauthentic (h : s.kmpAuthentic m = false ∨ m.part ≠ 0) :
    s.twinIn src m = s.twinUplink.2.bump Reg.UPL_STAT2.auth_fail s.twinUplink.1 :=
  (if_neg (by simp [hop, he, koTwin])).trans (if_pos (by simpa using h))

variable (ha : s.kmpAuthentic m = true) (hp : m.part = 0)

include ha hp

theorem twinIn_of_replayed (hf : s.seqFresh twinWindow m.sequence.toNat = false) :
    s.twinIn src m = s.twinUplink.2.bump Reg.UPL_STAT2.replay s.twinUplink.1 := by
  simp [Dev.twinIn, hop, koTwin, he, ha, hp, hf]

variable (hf : s.seqFresh twinWindow m.sequence.toNat = true)

include hf

theorem twinIn_of_stranger (hs : src ≠ s.twinAddr) : s.twinIn src m = (s.seqMark twinWindow m.sequence.toNat).alarm 10 5 2 0 := by
  simp [Dev.twinIn, hop, koTwin, he, ha, hp, hf, hs]

theorem twinIn_of_entries {ds : List Digest} (hs : src = s.twinAddr)
    (hd : twinEntries (s.seqMark twinWindow m.sequence.toNat).now m.payload = some ds) :
    s.twinIn src m = ds.foldl (fun d t => d.twinDigestIn t) (s.seqMark twinWindow m.sequence.toNat).twinHeard := by
  simp [Dev.twinIn, hop, koTwin, he, ha, hp, hf, hs, hd]

theorem twinIn_of_malformed (hs : src = s.twinAddr) (hd : twinEntries (s.seqMark twinWindow m.sequence.toNat).now m.payload = none) :
    s.twinIn src m = (s.twinUplink.2.seqMark twinWindow m.sequence.toNat).kmpReply s.twinUplink.1 m ksLength [] := by
  simp [Dev.twinIn, hop, koTwin, he, ha, hp, hf, hs, hd]

end Arrival

end Twins

/-- A device shows what the first copy of another's beacon says. -/
theorem yields_twinBeacon {s : State} {l : Link} {m : RingMsg} {live : Bool} (hf : FirstCopy s.dev l m) (hm : m.body = .twinBeacon live)
    (hb : m.broadcast = true) : Yields (.twinBeacon l m) s ((heardFirst s.dev l m).twinMapSet (m.origin.toNat % 64) live) := by
  refine yields_of_run _ (show _ = execTwinBeacon l m s from rfl) ((ringIn_first_of_broadcast _ hf hb).trans ?_)
  simp only [hm]

/-- Settles O33: a digest message by the cases of `twinIn`, the rest by those of their operations. -/
theorem twinTraffic : Obligations.TwinTraffic := by
  intro s
  refine ⟨fun ha => ?_, fun l m live hf hm hb => yields_twinBeacon hf hm hb, fun he hs => ?_, fun l m hq hu ho hn => ?_,
    fun d rest he hw => ?_, fun he => ?_, fun src m he hop => ?_, fun t h => ?_⟩
  · exact yields_of_run (·.beaconSend) rfl (beaconSend_of_assigned ha)
  · exact yields_of_run (·.twinLost) rfl (twinLost_of_heard he hs)
  · exact yields_of_run (·.relayArrive l.val m) rfl (relayArrive_of_uplink hq hu ho hn)
  · exact yields_of_run (·.twinBatch) rfl (twinBatch_of_waiting he hw)
  · exact yields_of_run (·.twinBeat) rfl (if_pos he)
  · have arrives {d : Dev} : s.dev.twinIn src.toNat m = d → Yields (.twinDigest src m) s d := yields_of_run (·.twinIn src.toNat m) rfl
    refine ⟨fun h => ?_, fun ha hp => ⟨fun hf => ?_, fun hf => ⟨fun hs => ?_, fun hs => ⟨fun ds hd => ?_, fun hd => ?_⟩⟩⟩⟩
    · exact arrives (twinIn_of_unauthentic _ he hop h)
    · exact arrives (twinIn_of_replayed _ he hop ha hp hf)
    · exact arrives (twinIn_of_stranger _ he hop ha hp hf hs)
    · exact arrives (twinIn_of_entries _ he hop ha hp hf hs hd)
    · exact arrives (twinIn_of_malformed _ he hop ha hp hf hs hd)
  · exact yields_of_run (·.digestExpire) rfl (digestExpire_of_oldest h)

end Sys2Proof.Machine
end

section
/-! PROOFS. Time (chapter 13, R334–R346): PTP messages, requests, the loss of a master, time along the chain, sources, re-steps. -/

namespace Sys2Proof.Machine

section Time

variable {s : Dev}

/-! ### Messages (R334, R335, R337, R340) -/

theorem onUplink_of_accepted {port : PtpPort} {m : PtpMsg} (f : Nat → Dev) (hp : port ≠ .chain) (ho : s.ptpOk m = true)
    (hu : s.ptpUplink (ptpNum port) m = true) : s.onUplink port m f = f (ptpNum port) := by
  cases port with
  | chain => contradiction
  | u0 => exact if_pos (Bool.and_eq_true_iff.2 ⟨ho, hu⟩)
  | u1 => exact if_pos (Bool.and_eq_true_iff.2 ⟨ho, hu⟩)

theorem onUplink_of_refused {port : PtpPort} {m : PtpMsg} (f : Nat → Dev) (hp : port ≠ .chain)
    (h : s.ptpOk m = false ∨ s.ptpUplink (ptpNum port) m = false) : s.onUplink port m f = s.bump Reg.TIME_STAT2.rx_discard := by
  have refused : ¬ (s.ptpOk m && s.ptpUplink (ptpNum port) m) = true := by simpa [← Bool.not_eq_true, imp_iff_not_or] using h
  cases port with
  | chain => contradiction
  | u0 => exact if_neg refused
  | u1 => exact if_neg refused

theorem uplinkDelayResp_of_own {u : Nat} {uid : BitVec 64} {m : PtpMsg} (hr : m.requester = uid) (hp : m.requesterPort.toNat = u + 1) :
    s.uplinkDelayResp u uid m = s.takeDelayResp u m := if_pos ⟨hr, hp⟩

theorem uplinkDelayResp_of_asker {uid : BitVec 64} {m : PtpMsg} (u : Nat) (hr : m.requester ≠ uid) (hp : m.requesterPort = 3)
    (ha : s.time.askers.contains m.requester = true) : s.uplinkDelayResp u uid m = s.rootRelay u .delayResp m :=
  (if_neg fun h => hr h.1).trans (if_pos ⟨hp, ha⟩)

/-! ### Requests and the loss of a master (R334, R335, R341) -/

/-- A Delay_Req of a source in use leaves when it is due, by the chain or by the uplink. -/
theorem delayReq_of_source {src : Nat} (uid : BitVec 64) (h : s.fld Reg.TIME_STATUS.source = src + 1) :
    s.delayReq uid =
      let d := s.reach (s.delayDue src)
      let seq := d.time.reqSeq % 65536
      let a := d.modTime (fun t => { t with
        reqSeq := t.reqSeq + 1, reqAt := some (src, d.now), req := some ⟨src, seq, if src = 2 then none else some (d.tEgress src)⟩ })
      if src = 2 then a.timeQueue a.timePort true 0 .delayReq (d.delayMsg uid 3 seq) none
      else a.ptpPut src .delayReq (d.delayMsg uid (src + 1) seq) := by
  simp [Dev.delayReq, h]

theorem announceTimeout_of_master {u : Nat} {m : Master} (h : Sparse.find u s.time.masters = some m) :
    s.announceTimeout u =
      let a := (s.reach (m.heardAt + s.fld Reg.TIME_CFG.announce_timeout * m.interval)).bump Reg.TIME_STAT2.announce_timeouts
      (((a.setHeard u m.clock none).modTime (fun t => { t with masters := Sparse.erase u t.masters })).chooseMaster u).selectSource := by
  rw [Dev.announceTimeout, h]

theorem timePortTimeout_of_last {e : Nat × Nat × Nat} (h : (s.time.hops.filter (fun e => e.1 == s.timePort)).getLast? = some e) :
    s.timePortTimeout =
      (s.reach (e.2.2 + Config.secPs)).modTime (fun t => { t with hops := t.hops.filter (fun x => x.1 != s.timePort) }) := by
  rw [Dev.timePortTimeout, h]

/-! ### The source in use (R339, R341) -/

/-- The device with its source chosen, before its state follows. -/
def Dev.sourceChosen (s : Dev) : Dev :=
  (((s.setF Reg.TIME_STATUS.source s.pickSource).showGm).logAt Reg.TIME_STATUS.source 0 0 11 0 0).modTime (fun t => { t with
    req := none, path := none, anew := true })

/-- A change of source: without one LOCKED is left, with one FREE is. -/
theorem selectSource_of_change (h : s.pickSource ≠ s.fld Reg.TIME_STATUS.source) :
    s.selectSource =
      if s.pickSource = 0 then (if s.sourceChosen.timeState = tsLocked then s.sourceChosen.holdover else s.sourceChosen)
      else if s.sourceChosen.timeState = tsFree then s.sourceChosen.timeGo tsAcquire else s.sourceChosen := if_neg h

theorem selectSource_of_lost (h : s.pickSource ≠ s.fld Reg.TIME_STATUS.source) (h0 : s.pickSource = 0)
    (hl : s.sourceChosen.timeState = tsLocked) : s.selectSource = s.sourceChosen.holdover :=
  (selectSource_of_change h).trans ((if_pos h0).trans (if_pos hl))

theorem selectSource_of_found (h : s.pickSource ≠ s.fld Reg.TIME_STATUS.source) (h0 : s.pickSource ≠ 0)
    (hf : s.sourceChosen.timeState = tsFree) : s.selectSource = s.sourceChosen.timeGo tsAcquire :=
  (selectSource_of_change h).trans ((if_neg h0).trans (if_pos hf))

theorem selectSource_of_steady (h : s.pickSource ≠ s.fld Reg.TIME_STATUS.source)
    (hl : s.pickSource = 0 → s.sourceChosen.timeState ≠ tsLocked) (hf : s.pickSource ≠ 0 → s.sourceChosen.timeState ≠ tsFree) :
    s.selectSource = s.sourceChosen := by
  rw [selectSource_of_change h]
  split
  · next h0 => exact if_neg (hl h0)
  · next h0 => exact if_neg (hf h0)

/-! ### Re-steps and the wait of start-up (R345, R346) -/

theorem restepRequest_of_idle (hr : s.straps.root = true) (hp : s.flag Reg.TIME_STATUS.restep_pending = false) :
    s.restepRequest =
      let a := s.setF Reg.TIME_STATUS.restep_pending 1
      if s.marn.rootGrid then (a.modMarn (fun r => { r with claimRestep := true })).announceNext
      else (a.ringSend chEnum none (.restepAnnounce true 0)).restep none :=
  if_neg (by simp [Dev.isRoot, hr, hp])

theorem restepRequest_of_refused (h : s.straps.root = false ∨ s.flag Reg.TIME_STATUS.restep_pending = true) :
    s.restepRequest = s.log 11 0 0 (Reg.TIME_CTRL.restep.addr 0 0 0) :=
  if_pos (by simpa [Dev.isRoot] using h)

theorem restepApply_of_crossing {b : Nat} {t : Int} (hb : s.time.firstAt.orElse (fun _ => s.time.claim) = some b)
    (ht : s.crossing (s.linePos b) = some t) : s.restepApply = ((s.reach t.toNat).marnSync).stepAtBound b := by
  rw [Dev.restepApply, hb]
  simp only [ht]

theorem timeWait_of_unlocked (uid : BitVec 64) (hb : s.bootState = bsTime) (hl : s.timeState ≠ tsLocked) :
    s.timeWait uid = ((s.reach (s.start.at_ + s.fld Reg.TIME_CFG.time_wait * Config.msPs)).alarm 11 3 0 0).bootEnter uid bsImage :=
  if_pos ⟨hb, hl⟩

end Time

/-- A device acts on the first copy of an announced re-step. -/
theorem yields_restepAnnouncement {s : State} {l : Link} {m : RingMsg} {idle : Bool} {b : BitVec 48} (hf : FirstCopy s.dev l m)
    (hm : m.body = .restepAnnounce idle b) (hb : m.broadcast = true) :
    Yields (.restepAnnouncement l m) s ((heardFirst s.dev l m).restepAnnounced idle b.toNat) := by
  refine yields_of_run _ (show _ = execRestepAnnouncement l m s from rfl) ((ringIn_first_of_broadcast _ hf hb).trans ?_)
  simp only [hm]

/-- A frame of the chain in sequence goes to the root's or to the follower's operation. -/
theorem timeArrive_inSequence {s : Dev} {l : Link} {f : TimeFrame} (uid : BitVec 64) (hq : InSequence s l f.frame) :
    s.timeArrive l.val uid f =
      if (accepted s l f.frame).straps.root then (accepted s l f.frame).timeRoot l.val f else (accepted s l f.frame).timeFollow l.val uid f :=
  dataFrame_inSequence s l f.frame _ hq

section Messages

variable {s : State} {port : PtpPort} {m : PtpMsg} {d : Dev}

/-- What an uplink does with each kind of message that it accepts. -/
theorem yields_ptp_of_accepted (hp : port ≠ .chain) (ho : s.dev.ptpOk m = true) (hu : s.dev.ptpUplink (ptpNum port) m = true) :
    Yields (.ptpSync port m) s (if s.dev.fromMaster (ptpNum port) m then s.dev.syncUnder (ptpNum port)
      (fun e => (e.takeSync (ptpNum port) (ptpNum port) m).rootRelay (ptpNum port) .sync m) else s.dev) ∧
    Yields (.ptpFollowUp port m) s (if s.dev.fromMaster (ptpNum port) m then
      (s.dev.takeFollowUp (ptpNum port) m).rootRelay (ptpNum port) .followUp m else s.dev) ∧
    Yields (.ptpAnnounce port m) s (if (s.dev.takeAnnounce (ptpNum port) m).fromMaster (ptpNum port) m then
      (s.dev.takeAnnounce (ptpNum port) m).rootRelay (ptpNum port) .announce m else s.dev.takeAnnounce (ptpNum port) m) ∧
    Yields (.ptpDelayResp port m) s ((s.dev.uplinkDelayResp (ptpNum port) s.fuses.uid m).bootCheck s.fuses.uid) :=
  ⟨yields_of_run _ (show _ = execPtpSync port m s from rfl) (onUplink_of_accepted _ hp ho hu),
    yields_of_run _ (show _ = execPtpFollowUp port m s from rfl) (onUplink_of_accepted _ hp ho hu),
    yields_of_run _ (show _ = execPtpAnnounce port m s from rfl) (onUplink_of_accepted _ hp ho hu),
    yields_of_runBoot _ (show _ = execPtpDelayResp port m s from rfl) (onUplink_of_accepted _ hp ho hu)⟩

end Messages

/-- Settles O34: messages by what an uplink does with those it accepts, the rest by the cases of their operations. -/
theorem timeTransfer : Obligations.TimeTransfer := by
  intro s
  refine ⟨fun port m hp => ⟨fun ho hu => ?_, fun h => ⟨?_, ?_, ?_, ?_⟩⟩, fun p => yields_of_run (·.bump Reg.TIME_STAT2.rx_discard) rfl rfl,
    fun src h => ?_, fun u m h => ?_, fun l f hq => ⟨fun hr => ?_, fun hr => ?_⟩, fun e he => ?_,
    ⟨fun h => ?_, fun h h0 hl => ?_, fun h h0 hf => ?_, fun h hl hf => ?_⟩, fun hr hp => ⟨fun hg => ?_, fun hg => ?_⟩, fun h => ?_,
    fun l m idle b hf hm hb => ⟨fun hi => ?_, fun hi => ?_⟩, fun b t hb ht => ?_, fun hb hl => ?_⟩
  · obtain ⟨sync, followUp, announce, delayResp⟩ := yields_ptp_of_accepted hp ho hu
    refine ⟨fun hm => ⟨fun hf => ?_, fun hf => ?_, ?_⟩, ⟨fun hm => ?_, fun hm => ?_⟩, fun hr hq => ?_, fun hr hq ha => ?_⟩
    · simpa only [hm, Dev.syncUnder, hf, if_true, Bool.false_eq_true, if_false] using sync
    · simpa only [hm, Dev.syncUnder, hf, if_true] using sync
    · simpa only [hm, if_true] using followUp
    · simpa only [hm, if_true] using announce
    · simpa only [hm, Bool.false_eq_true, if_false] using announce
    · rwa [uplinkDelayResp_of_own hr hq] at delayResp
    · rwa [uplinkDelayResp_of_asker _ hr hq ha] at delayResp
  · exact yields_of_run _ (show _ = execPtpSync port m s from rfl) (onUplink_of_refused _ hp h)
  · exact yields_of_run _ (show _ = execPtpFollowUp port m s from rfl) (onUplink_of_refused _ hp h)
  · exact yields_of_run _ (show _ = execPtpAnnounce port m s from rfl) (onUplink_of_refused _ hp h)
  · exact yields_of_runBoot _ (show _ = execPtpDelayResp port m s from rfl) (onUplink_of_refused _ hp h)
  · have leaves {d : Dev} : s.dev.delayReq s.fuses.uid = d → Yields .delayReqSend s d := yields_of_run (·.delayReq s.fuses.uid) rfl
    refine ⟨fun hs => leaves ?_, fun hs => leaves ?_⟩
    · simp only [delayReq_of_source _ h, if_neg hs]
    · subst hs
      exact delayReq_of_source _ h
  · exact yields_of_run (·.announceTimeout u.val) rfl (announceTimeout_of_master h)
  · exact yields_of_runBoot (·.timeArrive l.val s.fuses.uid f) rfl ((timeArrive_inSequence _ hq).trans (if_neg (ne_true_of_eq_false hr)))
  · exact yields_of_runBoot (·.timeArrive l.val s.fuses.uid f) rfl ((timeArrive_inSequence _ hq).trans (if_pos hr))
  · exact yields_of_run (·.timePortTimeout) rfl (timePortTimeout_of_last he)
  · exact yields_of_run (·.selectSource) rfl (if_pos h)
  · exact yields_of_run (·.selectSource) rfl (selectSource_of_lost h h0 hl)
  · exact yields_of_run (·.selectSource) rfl (selectSource_of_found h h0 hf)
  · exact yields_of_run (·.selectSource) rfl (selectSource_of_steady h hl hf)
  · exact yields_of_run (·.restepRequest) rfl ((restepRequest_of_idle hr hp).trans (if_pos hg))
  · exact yields_of_run (·.restepRequest) rfl ((restepRequest_of_idle hr hp).trans (if_neg (ne_true_of_eq_false hg)))
  · exact yields_of_run (·.restepRequest) rfl (restepRequest_of_refused h)
  · subst hi
    exact yields_restepAnnouncement hf hm hb
  · subst hi
    exact yields_restepAnnouncement hf hm hb
  · exact yields_of_run (·.restepApply) rfl (restepApply_of_crossing hb ht)
  · exact yields_of_runBoot (·.timeWait s.fuses.uid) rfl (timeWait_of_unlocked _ hb hl)

end Sys2Proof.Machine
end

section
/-! PROOFS. Partitions (chapter 14): drain, abort, stop and resume (R369–R372, R445), notices (R355–R358), and the turns that wait while
the completion writer stalls (R365). -/

namespace Sys2Proof.Machine

/-! ### Drain, abort, stop and resume -/

section Partitions

variable {s : Dev} {p : Nat}

theorem partDrain_of_run (h : s.fld Reg.PART_CTRL.state p = psRun) :
    s.partDrain p =
      let a := (s.partPorts p).foldl (fun d n => d.drainPort n) s
      let b := (s.partAbas p).foldl (fun d u => d.abaDrain u) a
      ((b.setF Reg.PART_CTRL.state psDraining p).setF Reg.PART_CTRL.drain 1 p).setPart p { b.part p with cause := 0, since := b.now } := by
  have hd : s.fld Reg.PART_CTRL.state p ≠ psDraining := h ▸ (by decide : psRun ≠ psDraining)
  exact (if_neg hd).trans (if_neg (not_not.2 h))

theorem partDrain_of_ended (h : s.fld Reg.PART_CTRL.state p = psAborting ∨ s.fld Reg.PART_CTRL.state p = psStopped) :
    s.partDrain p = s.partIgnored p := by
  rcases h with h | h
  · rw [Dev.partDrain, h]
    exact (if_neg (by decide)).trans (if_pos (by decide))
  · rw [Dev.partDrain, h]
    exact (if_neg (by decide)).trans (if_pos (by decide))

theorem partAbort_of_ended (cause : Nat) (h : s.fld Reg.PART_CTRL.state p = psAborting ∨ s.fld Reg.PART_CTRL.state p = psStopped) :
    s.partAbort p cause = s.partIgnored p := if_pos h

theorem partAbort_of_working (cause : Nat) (ha : s.fld Reg.PART_CTRL.state p ≠ psAborting) (hs : s.fld Reg.PART_CTRL.state p ≠ psStopped) :
    s.partAbort p cause = (s.setF Reg.PART_CTRL.abort 1 p).abortNow p cause := if_neg (not_or.2 ⟨ha, hs⟩)

theorem drainExpires_of_draining (h : s.fld Reg.PART_CTRL.state p = psDraining) :
    s.drainExpires p =
      ((s.reach ((s.part p).since + s.fld Reg.PART_CTRL.drain_timeout p * Config.msPs)).bump Reg.PART_STAT2.drain_timeouts p).abortNow p
        caDrainTimeout := if_neg (not_not.2 h)

theorem stopCheck_of_aborting (h : s.fld Reg.PART_CTRL.state p = psAborting) (hs : s.settled p = true) :
    s.stopCheck p = s.stopped p Reg.PART_STAT.aborts := by
  have hd : s.fld Reg.PART_CTRL.state p ≠ psDraining := h ▸ (by decide : psAborting ≠ psDraining)
  exact (if_neg hd).trans (if_pos ⟨h, hs⟩)

/-- A drain whose items have all ended closes the runs of its queues. -/
theorem stopCheck_of_drained (h : s.fld Reg.PART_CTRL.state p = psDraining) (ho : s.itemsOpen p = false) :
    s.stopCheck p =
      let a := (s.partQueues p).foldl (fun d q => d.closeRuns q (fun _ => true)) s
      if a.settled p then a.stopped p Reg.PART_STAT.drains else a :=
  (if_pos h).trans (if_neg (ne_true_of_eq_false ho))

/-- The Tumbler's abort of a partition starts the time that it has to stop. -/
theorem tmbAbort_of_aborting (h : (s.partAbort p caPartAbort).fld Reg.PART_CTRL.state p = psAborting)
    (ht : ((s.partAbort p caPartAbort).part p).tmbSince = none) :
    s.tmbAbort p = (s.partAbort p caPartAbort).setPart p { (s.partAbort p caPartAbort).part p with tmbSince := some s.now } := by
  refine (if_pos h).trans ?_
  rw [ht, Option.orElse_none]

/-- The partitions that a mask of one bit names. -/
theorem partsOf_single (p : Part) : (List.range 16).filter (BitVec.ofNat 16 (2 ^ p.val)).getLsbD = [p.val] := by
  have all : ∀ q : Part, (List.range 16).filter (BitVec.ofNat 16 (2 ^ q.val)).getLsbD = [q.val] := by decide
  exact all p

theorem tmbAbortExpires_of_aborted {t : Nat} (h : (s.part p).tmbSince = some t) :
    s.tmbAbortExpires p = (s.reach (t + Config.msPs)).warmReset 2 true .free := by
  rw [Dev.tmbAbortExpires, h]

end Partitions

/-- Settles O35: each event of a partition by the case of its operation. -/
theorem partitionStates : Obligations.PartitionStates := by
  intro s p
  refine ⟨fun h => ?_, fun h => ⟨?_, ?_⟩, fun ha hs => ?_, fun h => ?_, fun h => ?_, fun h hs => ?_, fun h ho hs => ?_, fun mask => ?_,
    fun h ht => ?_, fun t ht => ?_⟩
  · exact yields_of_run (·.partDrain p.val) rfl (partDrain_of_run h)
  · exact yields_of_run (·.partDrain p.val) rfl (partDrain_of_ended h)
  · exact yields_of_run (·.partAbort p.val caPartAbort) rfl (partAbort_of_ended _ h)
  · exact yields_of_run (·.partAbort p.val caPartAbort) rfl (partAbort_of_working _ ha hs)
  · exact yields_of_run (·.partResume p.val) rfl (if_pos h)
  · exact yields_of_run (·.drainExpires p.val) rfl (drainExpires_of_draining h)
  · exact yields_of_run (·.stopCheck p.val) rfl (stopCheck_of_aborting h hs)
  · exact yields_of_run (·.stopCheck p.val) rfl ((stopCheck_of_drained h ho).trans (if_pos hs))
  · exact yields_of_run _ (show _ = execTmbPartitionAbort mask s from rfl) rfl
  · refine yields_of_run _ (show _ = execTmbPartitionAbort (BitVec.ofNat 16 (2 ^ p.val)) s from rfl) ?_
    rw [partsOf_single]
    exact tmbAbort_of_aborting h ht
  · exact yields_of_run (·.tmbAbortExpires p.val) rfl (tmbAbortExpires_of_aborted ht)

/-! ### Notices and the completion writer -/

section Notices

variable {s : Dev} {p t u id : Nat} {n : Notice}

theorem noticeOut_of_due (ho : s.noticesOn p = true) (ht : ((s.unsentNotices p).map (s.sendableAt p)).min? = some t)
    (hu : s.sendAllowedAt p = some u)
    (hn : firstNotice (((s.reach (max t u)).unsentNotices p).filter (fun n =>
      decide ((s.reach (max t u)).sendableAt p n ≤ (s.reach (max t u)).now))) = some n) :
    s.noticeOut p =
      let b := (s.reach (max t u)).sendNotice p n
      b.setPart p { b.part p with lastSend := Sparse.insert n.cause b.now (b.part p).lastSend } := by
  simp only [Dev.noticeOut, ho, ht, hu, hn]

theorem noticeAgain_of_sent (ho : s.noticesOn p = true) (hn : s.noticeById p id = some n) (ht : n.sentAt = some t)
    (hu : s.sendAllowedAt p = some u) :
    s.noticeAgain p id =
      ((s.reach (max (t + s.fld Reg.PART_NOTICE_CFG.retry p * Config.msPs) u)).bump Reg.PART_NOTICE_STAT2.retries p).sendNotice p n := by
  simp only [Dev.noticeAgain, ho, hn, hu, Option.bind_some, ht, Option.map_some]

theorem noticeAcked_of_standing (h : (s.part p).notices.any (fun n => n.id == id) = true) :
    s.noticeAcked p id =
      (s.setPart p { s.part p with notices := (s.part p).notices.filter (fun n => n.id != id) }).syncNotices p := if_pos h

theorem noticeAcked_of_overflow (hn : (s.part p).notices.any (fun n => n.id == id) = false)
    (ho : (s.part p).overNote.any (fun n => n.id == id) = true) :
    s.noticeAcked p id = (s.setPart p { s.part p with overNote := none, overflow := [0, 0, 0, 0] }).syncNotices p :=
  (if_neg (ne_true_of_eq_false hn)).trans (if_pos ho)

end Notices

/-- The claim about notices: each by the case of its operation, the writer by the records that are left. -/
theorem notices : Claim.Notices := by
  intro s p
  refine ⟨fun t u n ho ht hu hn => ?_, fun id n t u ho hn ht hu => ?_, fun id h => ?_, fun id hn ho => ?_, fun h => ?_, fun h => ?_⟩
  · exact yields_of_run (·.noticeOut p.val) rfl (noticeOut_of_due ho ht hu hn)
  · exact yields_of_run (·.noticeAgain p.val id.toNat) rfl (noticeAgain_of_sent ho hn ht hu)
  · exact yields_of_run (·.noticeAcked p.val id.toNat) rfl (noticeAcked_of_standing h)
  · exact yields_of_run (·.noticeAcked p.val id.toNat) rfl (noticeAcked_of_overflow hn ho)
  · exact yields_of_run (·.writerResume p.val) rfl (if_pos h)
  · exact yields_of_run (·.writerResume p.val) rfl (if_neg (Nat.not_le.2 h))

/-! ### Turns that wait (R365) -/

/-- A command that is a turn of a unit changes nothing where the turn would end an item while the writer of its partition stalls. -/
theorem yields_of_waiting {c : Instr} {s : State} {p : Dev → Nat} {turn : Dev → Dev}
    (hc : exec c s = s.run (fun d => d.unlessStalled (p d) turn))
    (h : (s.dev.part (p s.dev)).stalled = true ∧ s.dev.endsItem (turn s.dev) (p s.dev) = true) : Yields c s s.dev :=
  yields_of_run _ hc (if_pos (Bool.and_eq_true_iff.2 h))

/-- The claim about stalls: every such turn runs unless the writer of its partition stalls. -/
theorem stalledTurnsWait : Claim.StalledTurnsWait := by
  intro s waits
  refine ⟨fun t mm errs pages => ⟨fun h => ?_, fun h => ?_⟩, fun u h => ?_, fun u c m errs h => ?_, fun u st h => ?_, fun u st m errs h => ?_,
    fun j m errs h => ?_, fun a m errs h => ?_, fun j => ⟨fun h => ?_, fun h => ?_⟩, fun j => ⟨fun h => ?_, fun h => ?_, fun h => ?_⟩,
    fun c => ⟨fun h => ?_, fun h => ?_⟩, fun ch h => ?_, fun ch h => ?_, fun ch h => ?_⟩
  · exact yields_of_waiting (show _ = execTileLine t mm s errs pages from rfl) h
  · exact yields_of_waiting (show _ = execUnderstudyReplay t mm s errs pages from rfl) h
  · exact yields_of_waiting (show _ = execKalInputCopy u s from rfl) h
  · exact yields_of_waiting (show _ = execKalSetEmit u c m s errs from rfl) h
  · exact yields_of_waiting (show _ = execPgrInputCopy u st s from rfl) h
  · exact yields_of_waiting (show _ = execPgrOutputEmit u st m s errs from rfl) h
  · exact yields_of_waiting (show _ = execRoundReady j m s errs from rfl) h
  · exact yields_of_waiting (show _ = execAbacusLine a m s errs from rfl) h
  · exact yields_of_waiting (show _ = execRoundOpen j s from rfl) h
  · exact yields_of_waiting (show _ = execSeamDeadline j s from rfl) h
  · exact yields_of_waiting (show _ = execCollectorRound j s from rfl) h
  · exact yields_of_waiting (show _ = execCollectorDeadline j s from rfl) h
  · exact yields_of_waiting (show _ = execBlockDeadline j s from rfl) h
  · exact yields_of_waiting (show _ = execConjunctionSelect c s from rfl) h
  · exact yields_of_waiting (show _ = execConjunctionRoundTimeout c s from rfl) h
  · exact yields_of_waiting (show _ = execChannelReady ch s from rfl) h
  · exact yields_of_waiting (show _ = execLineRecordAssemble ch s from rfl) h
  · exact yields_of_waiting (show _ = execLocalDescriptorCopy ch s from rfl) h

/-- Settles O36: notices, and turns that wait. -/
theorem noticesAndStalls : Obligations.NoticesAndStalls := ⟨notices, stalledTurnsWait⟩

end Sys2Proof.Machine
end

section
/-! PROOFS. Integrity (chapter 15): the scrubber (R376–R379), the check units (R380–R383), and the traffic of events (R394–R398). -/

namespace Sys2Proof.Machine

/-! ### The scrubber -/

section Scrubber

variable {s : Dev}

/-- The device once the scrubber has read its next slot, which an upset may have struck before. -/
def Dev.scrubStep (s : Dev) (found : Nat) : Dev :=
  let d := s.upset s.scrub.next found
  let a := d.reach (d.scrub.since + d.fld Reg.INTG_CTRL.scrub_period * Config.xcPs)
  { a with scrub := { a.scrub with next := if s.scrub.next = lastSlot then 0 else s.scrub.next + 1, since := a.now } }

theorem scrubRead_of_clean {found : Nat} (h : (s.scrubStep found).slotErr s.scrub.next = .clean) :
    s.scrubRead found = s.scrubStep found := by
  unfold Dev.scrubStep at *
  simp only [Dev.scrubRead, h]

theorem scrubRead_of_single {found : Nat} (h : (s.scrubStep found).slotErr s.scrub.next = .single) :
    s.scrubRead found = { s.scrubStep found with scrub := { (s.scrubStep found).scrub with
      due := (s.scrubStep found).scrub.due ++ [s.scrub.next] } } := by
  unfold Dev.scrubStep at *
  simp only [Dev.scrubRead, h]

theorem scrubRead_of_double {found : Nat} (h : (s.scrubStep found).slotErr s.scrub.next = .double) :
    s.scrubRead found = ((s.scrubStep found).eccLast s.scrub.next).countAnd Reg.INTG_SCRUB_STAT.uncorrectable 0 0 2 13 integInst 0 2
      s.scrub.next := by
  unfold Dev.scrubStep at *
  simp only [Dev.scrubRead, h]

/-- The write-back of the slot that waits longest depends on whether it still holds a single error. -/
theorem scrubBack_of_due {x : Nat} {rest : List Nat} (hd : s.scrub.due = x :: rest) :
    s.scrubBack =
      let a := { s with scrub := { s.scrub with due := rest } }
      if a.slotErr x = .single then (a.setSlotErr x .clean).bump Reg.INTG_SCRUB_STAT.corrected
      else a.bump Reg.INTG_SCRUB_STAT.abandoned := by
  rw [Dev.scrubBack, hd]

end Scrubber

/-- The claim about the scrubber: a read by what the slot then holds, a write-back by whether it still holds a single error. -/
theorem scrubber : Claim.Scrubber := by
  intro s
  refine ⟨fun found => ⟨fun h => ?_, fun h => ?_, fun h => ?_⟩, fun x rest hd h => ?_, fun x rest hd h => ?_⟩
  · exact yields_of_run (·.scrubRead found.val) rfl (scrubRead_of_clean h)
  · exact yields_of_run (·.scrubRead found.val) rfl (scrubRead_of_single h)
  · exact yields_of_run (·.scrubRead found.val) rfl (scrubRead_of_double h)
  · exact yields_of_run (·.scrubBack) rfl ((scrubBack_of_due hd).trans (if_pos h))
  · exact yields_of_run (·.scrubBack) rfl ((scrubBack_of_due hd).trans (if_neg h))

/-! ### Check units -/

section CheckUnits

variable {s : Dev} {u : Nat}

section Starts

variable (he : s.fld Reg.CHK_CFG.enable u ≠ 0)

include he

theorem checkGo_of_running (h : s.fld Reg.CHK_CTRL.status u = ckRunning) :
    s.checkGo u = s.log 13 u (s.fld Reg.CHK_CFG.owner u) (Reg.CHK_CTRL.go.addr u 0 0) := (if_neg he).trans (if_pos h)

theorem checkGo_of_idle (h : s.fld Reg.CHK_CTRL.status u ≠ ckRunning) :
    s.checkGo u =
      if s.chkAllowed u then
        (((s.setF Reg.CHK_VALUE.value (s.chkSpec u).init u).setF Reg.CHK_CTRL.done_slots 0 u).chkGo u
          (if s.fld Reg.CHK_SCAN.length u = 0 then ckDone else ckRunning))
      else s.chkGo u ckRange := (if_neg he).trans (if_neg h)

theorem checkResume_of_paused (h : s.fld Reg.CHK_CTRL.status u = ckPaused)
    (hl : s.fld Reg.CHK_CTRL.done_slots u < s.fld Reg.CHK_SCAN.length u) : s.checkResume u = s.chkGo u ckRunning := by
  have resumes : ¬ (s.fld Reg.CHK_CFG.enable u = 0 ∨ (s.chkState u ≠ ckPaused ∧ s.chkState u ≠ ckIdle ∧ s.chkState u ≠ ckDone)) :=
    not_or.2 ⟨he, fun hn => hn.1 h⟩
  exact (if_neg resumes).trans (if_pos hl)

end Starts

/-- The slot that a running scan takes next. -/
def Dev.chkNext (s : Dev) (u : Nat) : Nat := s.chkSlot u (s.fld Reg.CHK_CTRL.done_slots u)

variable (h : s.fld Reg.CHK_CTRL.status u = ckRunning)

include h

theorem checkSlot_of_barred (hm : s.chkMay u (s.chkNext u) = false) : s.checkSlot u = s.chkGo u ckRange :=
  (if_neg (not_not.2 h)).trans (if_pos (congrArg (! ·) hm))

variable (hm : s.chkMay u (s.chkNext u) = true)

include hm

theorem checkSlot_of_uncorrectable (hd : s.slotErr (s.chkNext u) = .double) :
    s.checkSlot u =
      (s.chkGo u ckEcc).alarmAt Reg.CHK_CTRL.status u 0 13 1 u (s.fld Reg.CHK_CFG.owner u) (s.chkNext u) :=
  (if_neg (not_not.2 h)).trans ((if_neg (ne_true_of_eq_false (congrArg (! ·) hm))).trans (if_pos hd))

/-- A slot that reads is fed into the CRC, and the scan ends with the last. -/
theorem checkSlot_of_readable (hd : s.slotErr (s.chkNext u) ≠ .double) :
    s.checkSlot u =
      let c := s.chkSpec u
      let v := crcFeed c.width c.poly c.reflIn (s.fld Reg.CHK_VALUE.value u % 2 ^ c.width) (s.chkBytes u (s.slotCell (s.chkNext u)))
      let a := (s.setF Reg.CHK_VALUE.value v u).setF Reg.CHK_CTRL.done_slots (s.fld Reg.CHK_CTRL.done_slots u + 1) u
      if s.fld Reg.CHK_SCAN.length u ≤ s.fld Reg.CHK_CTRL.done_slots u + 1 then a.chkGo u ckDone else a :=
  (if_neg (not_not.2 h)).trans ((if_neg (ne_true_of_eq_false (congrArg (! ·) hm))).trans (if_neg hd))

end CheckUnits

/-- The claim about check units: each command by the cases of its operation. -/
theorem checkUnits : Claim.CheckUnits := by
  intro s u he
  refine ⟨fun h ha => ?_, fun h ha => ?_, fun h => ?_, fun h => ?_, fun h hl => ?_, fun h => ⟨fun hm => ?_, fun hm hd => ?_,
    fun hm hd => ⟨fun hl => ?_, fun hl => ?_⟩⟩⟩
  · exact yields_of_run (·.checkGo u.val) rfl ((checkGo_of_idle he h).trans (if_pos ha))
  · exact yields_of_run (·.checkGo u.val) rfl ((checkGo_of_idle he h).trans (if_neg (ne_true_of_eq_false ha)))
  · exact yields_of_run (·.checkGo u.val) rfl (checkGo_of_running he h)
  · exact yields_of_run _ (show _ = execCheckPause u s from rfl) (if_pos h)
  · exact yields_of_run (·.checkResume u.val) rfl (checkResume_of_paused he h hl)
  · exact yields_of_run (·.checkSlot u.val) rfl (checkSlot_of_barred h hm)
  · exact yields_of_run (·.checkSlot u.val) rfl (checkSlot_of_uncorrectable h hm hd)
  · exact yields_of_run (·.checkSlot u.val) rfl ((checkSlot_of_readable h hm hd).trans (if_pos hl))
  · exact yields_of_run (·.checkSlot u.val) rfl ((checkSlot_of_readable h hm hd).trans (if_neg (Nat.not_le.2 hl)))

/-- Settles O38: the scrubber and the check units. -/
theorem scrubAndCheck : Obligations.ScrubAndCheck := ⟨scrubber, checkUnits⟩

/-! ### Events -/

section Events

variable {s : Dev}

theorem tokenRefill_of_spent {kind inst : Nat} (hs : (s.evtSrc (unitKey kind inst)).spent ≠ 0) (hr : s.fld Reg.INTG_EVT_CFG.evt_rate ≠ 0) :
    s.tokenRefill kind inst =
      let rate := s.fld Reg.INTG_EVT_CFG.evt_rate
      let key := unitKey kind inst
      ((s.reach ((s.evtSrc key).refilledAt + (Config.msPs + rate - 1) / rate)).refill key).summaryRecord kind inst (s.sourceOwner kind inst) :=
  if_neg (not_or.2 ⟨hs, hr⟩)

theorem pushOut_of_waiting {p : Nat} (h : (s.part p).pushed ≠ []) :
    s.pushOut p =
      let recs := (s.part p).pushed
      let a := if 29 ≤ recs.length then s else s.reach ((s.part p).pushSince + 100 * Config.usPs)
      (a.setPart p { a.part p with pushed := recs.drop 29, pushSince := a.now }).kmpEmit p koEvent (s.fld Reg.INTG_EVT_RING.evt_flow p)
        (eventPayload (recs.take 29)) :=
  if_neg (by simpa using h)

end Events

/-- Settles O39: each command by the case of its operation. -/
theorem eventTraffic : Obligations.EventTraffic := by
  intro s
  refine ⟨fun k i hs hr => ?_, fun c => ?_, fun p h => ?_, fun i mask rise => ?_, fun p t h => ?_, fun p t h => ?_⟩
  · exact yields_of_run (·.tokenRefill k.val i.toNat) rfl (tokenRefill_of_spent hs hr)
  · exact yields_of_run _ (show _ = execAlarmHoldoffExpire c s from rfl) rfl
  · exact yields_of_run (·.pushOut p.val) rfl (pushOut_of_waiting h)
  · exact yields_of_run (·.alarmClear i.val mask rise) rfl rfl
  · exact yields_of_run (·.tailWrite p.val t.toNat) rfl (if_pos h)
  · exact yields_of_run (·.tailWrite p.val t.toNat) rfl (if_neg (Nat.not_le.2 h))

end Sys2Proof.Machine
end

section
/-! PROOFS. Clocks and sensors (chapter 16): the sources of the reference (R404–R406), island clocks (R408–R410), temperature and voltage
sensors (R411, R412), and clock measurements (R423). -/

namespace Sys2Proof.Machine

/-! ### Reference sources -/

section References

variable {s : Dev} {src : Nat}

/-- The loss of a source only shows before STRAPS, and where it is not in use or was lost before. -/
theorem refLoss_of_unused (h : s.fld Reg.CLK_REF.in_use ≠ src ∨ s.refPresent src = false ∨ s.bootState < bsStraps) :
    s.refLoss src = s.setF (presentFld src) 0 := if_pos h

theorem refLoss_of_used (hu : s.fld Reg.CLK_REF.in_use = src) (hp : s.refPresent src = true) (hb : bsStraps ≤ s.bootState) :
    s.refLoss src =
      let a := (s.setF (presentFld src) 0).bump Reg.CLK_STAT.ref_losses
      if a.refPresent (1 - src) ∧ a.flag Reg.CLK_REF.ref_fallback then a.refSwitch (1 - src)
      else { a with start := { a.start with refLost := some a.now } } :=
  if_neg (by simp [hu, hp, Nat.not_lt.2 hb])

/-- The device shows a source as present. -/
def Dev.refShown (s : Dev) (src : Nat) : Dev := s.setF (presentFld src) 1

/-- The return of a source ends the run on the backup clock, and the hold for want of a reference. -/
theorem refReturn_of_backup (h : (s.refShown src).start.backup = true) :
    s.refReturn src =
      let b := (s.refShown src).rebase.setF Reg.CLK_REF.in_use src
      let c := { b with start := { b.start with backup := false, refLost := none } }
      if (s.refShown src).start.hold = .reference then { c with start := { c.start with hold := .free } }.bootGo bsFirmware else c := if_pos h

theorem refReturn_of_bridge (hb : (s.refShown src).start.backup = false) (hl : (s.refShown src).start.refLost.isSome = true) :
    s.refReturn src =
      let a := s.refShown src
      if a.fld Reg.CLK_REF.in_use = src then { a with start := { a.start with refLost := none } }
      else if a.flag Reg.CLK_REF.ref_fallback then a.refSwitch src
      else a := (if_neg (ne_true_of_eq_false hb)).trans (if_pos hl)

theorem refReturn_of_running (hb : (s.refShown src).start.backup = false) (hl : (s.refShown src).start.refLost = none) :
    s.refReturn src = (s.refShown src).tumblerExit := by
  have hl' : ¬ (s.refShown src).start.refLost.isSome = true := by simp [hl]
  exact (if_neg (ne_true_of_eq_false hb)).trans (if_neg hl')

theorem refHold_of_absent {t : Nat} (hl : s.start.refLost = some t) (h0 : s.refPresent 0 = false) (h1 : s.refPresent 1 = false)
    (hb : s.start.backup = false) :
    s.refHold =
      let a := (s.reach (t + 100 * Config.usPs)).rebase
      let b := if a.start.hold = .free then a.warmReset 2 true .reference else a
      ({ b with start := { b.start with backup := true } }).setF Reg.TIME_STATUS.time_state 3 := by
  rw [Dev.refHold, hl]
  exact if_neg (by simp [h0, h1, hb])

end References

/-- The claim about sources: a loss by `refLoss_of_unused` and `refLoss_of_used`, a return by the cases of `refReturn`. -/
theorem referenceSources : Claim.ReferenceSources := by
  intro s
  refine ⟨fun src => ⟨fun hu hp hb => ⟨fun ho hf => ?_, fun h => ?_⟩, fun h => ?_⟩,
    fun src => ⟨fun hb => ⟨fun hh => ?_, fun hh => ?_⟩, fun hb hl => ⟨fun hu => ?_, fun hu hf => ?_, fun hu hf => ?_⟩, fun hb hl => ?_⟩,
    fun t hl h0 h1 hb => ⟨fun hh => ?_, fun hh => ?_⟩⟩
  · exact yields_of_run (·.refLoss src.val) rfl ((refLoss_of_used hu hp hb).trans (if_pos ⟨ho, hf⟩))
  · refine yields_of_run (·.refLoss src.val) rfl ((refLoss_of_used hu hp hb).trans (if_neg fun hn => ?_))
    exact h.elim (ne_false_of_eq_true hn.1) (ne_false_of_eq_true hn.2)
  · exact yields_of_run (·.refLoss src.val) rfl (refLoss_of_unused h)
  · exact yields_of_run (·.refReturn src.val) rfl ((refReturn_of_backup hb).trans (if_pos hh))
  · exact yields_of_run (·.refReturn src.val) rfl ((refReturn_of_backup hb).trans (if_neg hh))
  · exact yields_of_run (·.refReturn src.val) rfl ((refReturn_of_bridge hb hl).trans (if_pos hu))
  · exact yields_of_run (·.refReturn src.val) rfl ((refReturn_of_bridge hb hl).trans ((if_neg hu).trans (if_pos hf)))
  · exact yields_of_run (·.refReturn src.val) rfl
      ((refReturn_of_bridge hb hl).trans ((if_neg hu).trans (if_neg (ne_true_of_eq_false hf))))
  · exact yields_of_run (·.refReturn src.val) rfl (refReturn_of_running hb hl)
  · refine yields_of_run (·.refHold) rfl ((refHold_of_absent hl h0 h1 hb).trans ?_)
    simp only [hh, if_true]
  · refine yields_of_run (·.refHold) rfl ((refHold_of_absent hl h0 h1 hb).trans ?_)
    simp only [hh, if_false]

/-! ### Island clocks, sensors and measurements -/

section Clocks

variable {s : Dev} {i : Nat}

theorem attemptTimeout_of_relocking (h : s.relocking i = true) :
    s.attemptTimeout i =
      let a := (s.reach ((s.pll i).since.getD s.start.at_ + Config.msPs)).bump Reg.CLK_STAT.relock_fail
      let r := a.pll i
      if r.fails < 2 then (a.setPll i { r with fails := r.fails + 1 }).relock i
      else ((a.setPll i ⟨true, true, 3, none⟩).alarm 14 1 i 0 0 (Reg.CLK_STAT.relock_fail.addr 0 0 0)
        Reg.CLK_STAT.relock_fail.lo).moveDone i := if_pos h

theorem tempSample_of_started (readings : List Int) (h : 4 ≤ s.bootState) :
    s.tempSample readings = ((readings.take 16).zipIdx.foldl (fun d ri => d.sensorSample ri.2 ri.1) s.sampleTick).calTempStarts s :=
  if_neg (Nat.not_lt.2 h)

/-- A sample within the limits of a rail that was not out shows, and forgets any sample against it. -/
theorem railSample_of_inRange {mv : Nat} (hlo : s.fld Reg.CLK_VMON.lo i ≤ mv) (hhi : mv ≤ s.fld Reg.CLK_VMON.hi i)
    (ho : s.flag Reg.CLK_VMON.out i = false) :
    s.railSample i mv =
      { s.setF Reg.CLK_VMON.mv mv i with start := { s.start with rails := Sparse.erase i s.start.rails } } := by
  have inside : (decide (mv < s.fld Reg.CLK_VMON.lo i) || decide (s.fld Reg.CLK_VMON.hi i < mv)) = false := by simp [hlo, hhi]
  simp only [Dev.railSample, inside, ho, if_true]
  rfl

/-- Out of POWER, samples of the rails leave start-up where it is. -/
theorem powerExit_of_other (h : s.bootState ≠ bsPower) : s.powerExit = s := if_neg fun hn => h hn.1

theorem clockMeasure_of_idle (h : s.start.measuring = none) : s.clockMeasure = { s with start := { s.start with measuring := some s.now } } := by
  rw [Dev.clockMeasure, h, Option.getD_none]

theorem measureDone_of_measuring {t : Nat} (khz : Nat) (h : s.start.measuring = some t) :
    s.measureDone khz =
      let a := s.reach (t + 1024 * Config.xcPs)
      let r := a.pll (a.fld Reg.CLK_MEAS_SEL.island)
      { ((a.setF Reg.CLK_MEAS.khz khz).setF Reg.CLK_MEAS.on_haven (if r.onHaven then 1 else 0)).setF Reg.CLK_MEAS.stuck
        (if r.stuck then 1 else 0) with start := { s.start with measuring := none } } := by
  rw [Dev.measureDone, h]
  rfl

end Clocks

/-- The claim about clocks and sensors: each event by the case of its operation. -/
theorem clocksAndSensors : Claim.ClocksAndSensors := by
  intro s
  refine ⟨fun i h => ?_, fun i h => ⟨fun hf => ?_, fun hf => ?_⟩, fun i h => ?_, fun readings h => ?_, fun readings => ?_,
    fun mv hlo hhi ho hb => ?_, fun h => ?_, fun khz t h => ?_⟩
  · exact yields_of_run (·.bandHeld i.val) rfl (if_pos h)
  · exact yields_of_run (·.attemptTimeout i.val) rfl ((attemptTimeout_of_relocking h).trans (if_pos hf))
  · exact yields_of_run (·.attemptTimeout i.val) rfl ((attemptTimeout_of_relocking h).trans (if_neg (Nat.not_lt.2 hf)))
  · exact yields_of_run (·.guardTrip i.val) rfl (if_neg (ne_true_of_eq_false h))
  · exact yields_of_run _ (show _ = execTempSample readings s from rfl) (tempSample_of_started _ h)
  · exact yields_of_run _ (show _ = execVmonSample readings s from rfl) rfl
  · refine yields_of_run _ (show _ = execVmonSample [mv] s from rfl) ?_
    change (s.dev.railSample 0 mv.toNat).powerExit = _
    rw [railSample_of_inRange hlo hhi ho]
    refine powerExit_of_other (fun hp => hb ?_)
    exact (fld_setF_word s.dev Reg.CLK_VMON.mv Reg.CLK_BOOT.state mv.toNat 0 0 0 0 0 0 (by decide)).symm.trans hp
  · exact yields_of_run (·.clockMeasure) rfl (clockMeasure_of_idle h)
  · exact yields_of_run (·.measureDone khz.toNat) rfl (measureDone_of_measuring _ h)

/-- Settles O40: sources of the reference, clocks and sensors. -/
theorem clockSources : Obligations.ClockSources := ⟨referenceSources, clocksAndSensors⟩

end Sys2Proof.Machine
end

section
/-! PROOFS. Calibration blocks (chapter 16, R413–R416): starts, measured codes, timeouts and trims. -/

namespace Sys2Proof.Machine

section Calibration

variable {s : Dev} {b : Nat}

/-! ### Starts -/

/-- Must a start of a block wait: for its own run, or for one of its kind? -/
def Dev.CalBusy (s : Dev) (b : Nat) : Prop :=
  s.calState b ≠ csIdle ∨ 8 ≤ ((calKind b).filter (fun c => s.calState c != csIdle)).length

/-- The device with a block's run begun. -/
def Dev.calBegin (s : Dev) (b : Nat) : Dev :=
  (((s.setF Reg.CAL_BLK.state csMeasuring b).setF Reg.CAL_BLK.pending 0 b).bump Reg.CAL_BLK_COUNT.attempts b).setCal b
    { s.cal b with since := s.now, startedAt := some s.now, refresh := false }

/-- The device with a block's start skipped, while it does not run. -/
def Dev.calSkip (s : Dev) (b : Nat) : Dev :=
  ((s.setF Reg.CAL_BLK.result crSkipped b).setF Reg.CAL_BLK.pending 0 b).setF Reg.CAL_BLK.run 0 b

section Enabled

variable (he : s.calEnabled b = true)

include he

theorem calStart_of_free (h : ¬ s.CalBusy b) : s.calStart b = s.calBegin b :=
  (if_neg (ne_true_of_eq_false (congrArg (! ·) he))).trans (if_neg h)

theorem calStart_of_busy (h : s.CalBusy b) : s.calStart b = s.setF Reg.CAL_BLK.pending 1 b :=
  (if_neg (ne_true_of_eq_false (congrArg (! ·) he))).trans (if_pos h)

end Enabled

section Disabled

variable (he : s.calEnabled b = false)

include he

theorem calStart_of_disabled_idle (h : s.calState b = csIdle) : s.calStart b = s.calSkip b :=
  (if_pos (congrArg (! ·) he)).trans (if_pos h)

theorem calStart_of_disabled_running (h : s.calState b ≠ csIdle) : s.calStart b = s.setF Reg.CAL_BLK.result crSkipped b :=
  (if_pos (congrArg (! ·) he)).trans (if_neg h)

end Disabled

/-- A counter of another word that moves up leaves a field. -/
theorem fld_bump_word (s : Dev) (f g : Reg.Fld) (i j k n i' j' k' : Nat) (h : g.addr i' j' k' ≠ f.addr i j k) :
    (s.bump f i j k n).fld g i' j' k' = s.fld g i' j' k' := fld_setF_word s f g _ i j k i' j' k' h

/-- The fields of a block's word that a start shows lie inside it. -/
theorem calBlk_fits : Reg.Fld.fits Reg.CAL_BLK.state ∧ Reg.Fld.fits Reg.CAL_BLK.pending := by
  unfold Reg.Fld.fits
  decide

/-- A field of a block's word that lies apart from the state leaves the state. -/
theorem calState_setF (f : Reg.Fld) (v : Nat) (ha : Reg.CAL_BLK.state.addr b 0 0 = f.addr b 0 0)
    (h : f.lo + f.width ≤ Reg.CAL_BLK.state.lo ∨ Reg.CAL_BLK.state.lo + Reg.CAL_BLK.state.width ≤ f.lo) :
    (s.setF f v b).calState b = s.calState b :=
  fld_setF_field s f Reg.CAL_BLK.state v b 0 0 b 0 0 ha h calBlk_fits.1

theorem calState_calBegin : (s.calBegin b).calState b = csMeasuring := by
  have hc : Reg.CAL_BLK.state.addr b 0 0 ≠ Reg.CAL_BLK_COUNT.attempts.addr b 0 0 := by
    simp only [Reg.Fld.addr, Reg.CAL_BLK.state, Reg.CAL_BLK_COUNT.attempts]
    omega
  have counted (d : Dev) : (d.bump Reg.CAL_BLK_COUNT.attempts b).calState b = d.calState b := fld_bump_word d _ _ b 0 0 1 b 0 0 hc
  calc (s.calBegin b).calState b
      = (((s.setF Reg.CAL_BLK.state csMeasuring b).setF Reg.CAL_BLK.pending 0 b).bump Reg.CAL_BLK_COUNT.attempts b).calState b := rfl
    _ = ((s.setF Reg.CAL_BLK.state csMeasuring b).setF Reg.CAL_BLK.pending 0 b).calState b := counted _
    _ = (s.setF Reg.CAL_BLK.state csMeasuring b).calState b := calState_setF Reg.CAL_BLK.pending _ rfl (by decide)
    _ = csMeasuring := fld_setF_same _ _ _ _ _ _ calBlk_fits.1

theorem calState_calSkip : (s.calSkip b).calState b = s.calState b := by
  calc (s.calSkip b).calState b
      = ((s.setF Reg.CAL_BLK.result crSkipped b).setF Reg.CAL_BLK.pending 0 b).calState b := calState_setF _ _ rfl (by decide)
    _ = (s.setF Reg.CAL_BLK.result crSkipped b).calState b := calState_setF _ _ rfl (by decide)
    _ = s.calState b := calState_setF _ _ rfl (by decide)

theorem pending_calSkip : (s.calSkip b).flag Reg.CAL_BLK.pending b = false := by
  have hp : (s.calSkip b).fld Reg.CAL_BLK.pending b = 0 :=
    (fld_setF_field _ Reg.CAL_BLK.run Reg.CAL_BLK.pending _ _ _ _ _ _ _ rfl (by decide) calBlk_fits.2).trans
      (fld_setF_same _ _ _ _ _ _ calBlk_fits.2)
  rw [Dev.flag, hp]
  rfl

theorem pending_of_set : (s.setF Reg.CAL_BLK.pending 1 b).flag Reg.CAL_BLK.pending b = true := by
  rw [Dev.flag, fld_setF_same _ _ _ _ _ _ calBlk_fits.2]
  rfl

/-- A requested start shows run where the block then runs or is pending. -/
theorem calRun_of_begun {a : Dev} (hs : s.calStart b = a) (h : a.calState b ≠ csIdle ∨ a.flag Reg.CAL_BLK.pending b = true) :
    s.calRun b = a.setF Reg.CAL_BLK.run 1 b := by
  rw [Dev.calRun, hs]
  exact if_pos h

theorem calRun_of_skipped {a : Dev} (hs : s.calStart b = a) (hi : a.calState b = csIdle) (hp : a.flag Reg.CAL_BLK.pending b = false) :
    s.calRun b = a := by
  rw [Dev.calRun, hs]
  exact if_neg (by simp [hi, hp])

theorem calPeriod_of_started {t : Nat} (h : (s.cal b).startedAt = some t) :
    s.calPeriod b = (s.reach (t + s.fld Reg.CAL_CTRL.cal_period * 60 * Config.secPs)).calStart b := by
  rw [Dev.calPeriod, h]

/-- The precondition of a block that ended for want of it starts the block, a period after it last did. -/
theorem calPrecondition_of_met (hr : s.fld Reg.CAL_BLK.result b = crPrecondition) (hp : s.calPre b = true)
    (hd : ∀ t, (s.cal b).preStart = some t → t + s.fld Reg.CAL_CTRL.cal_period * 60 * Config.secPs ≤ s.now) :
    s.calPrecondition b = (s.setCal b { s.cal b with preStart := some s.now }).calStart b := by
  unfold Dev.calPrecondition
  cases ht : (s.cal b).preStart with
  | none => exact if_pos ⟨hr, hp, rfl⟩
  | some t => exact if_pos ⟨hr, hp, decide_eq_true (hd t ht)⟩

/-! ### The phases of a run -/

section Measuring

variable (hs : s.calState b = csMeasuring) {codes : List Int}

theorem calMeasured_of_waiting (hp : s.calPre b = false) : s.calMeasured b codes = s := if_pos (.inr hp)

include hs

theorem calMeasured_of_met (hp : s.calPre b = true) :
    s.calMeasured b codes =
      if codes.any (fun c => decide (c < 0) || decide (4095 < c)) then s.calEnd b crLimit
      else
        let r := s.cal b
        let n := max r.codes.length codes.length
        (s.setF Reg.CAL_BLK.state csApplying b).setCal b
          { r with since := s.now, codes := padTo n r.codes, targets := codes ++ (padTo n r.codes).drop codes.length } :=
  if_neg (by simp [hs, hp])

theorem calTimeout_of_unmet (h : s.calPre b = false ∨ s.calReported b = true) :
    s.calTimeout b = (s.reach ((s.cal b).since + calLimit b)).calEnd b crPrecondition := by
  refine if_neg (not_or.2 ⟨not_not.2 hs, fun hn => ?_⟩)
  exact h.elim (ne_false_of_eq_true hn.1) (ne_true_of_eq_false hn.2)

end Measuring

/-- While the trims are applied each moves one step, and the run ends once all have arrived. -/
theorem trimStep_of_applying (hs : s.calState b = csApplying) :
    s.trimStep b =
      let r := s.cal b
      let a := s.reach (r.since + Config.usPs)
      let codes := (r.codes.zip r.targets).map (fun ct => stepCode ct.1 ct.2)
      let d := a.setCal b { r with since := a.now, codes := codes, refresh := r.refresh && !decide (codes = r.targets) }
      if codes = r.targets then d.calEnd b crSuccess else d := by
  have hm : csApplying ≠ csMeasuring := by decide
  refine (if_neg fun hn => hn.1 hs).trans ?_
  simp only [hs, hm, if_false, true_and, decide_eq_true_eq]

end Calibration

section Starts

variable {s : State} {b : Fin 62} {c : Instr} {d : Dev}

/-- Whatever runs a start of a block ends in one of its four ways. -/
theorem yields_of_calStart (hc : ∀ e, d.calStart b.val = e → Yields c s e) :
    (d.calEnabled b.val = true → ¬ d.CalBusy b.val → Yields c s (d.calBegin b.val)) ∧
      (d.calEnabled b.val = true → d.CalBusy b.val → Yields c s (d.setF Reg.CAL_BLK.pending 1 b.val)) ∧
      (d.calEnabled b.val = false → d.calState b.val = csIdle → Yields c s (d.calSkip b.val)) ∧
      (d.calEnabled b.val = false → d.calState b.val ≠ csIdle → Yields c s (d.setF Reg.CAL_BLK.result crSkipped b.val)) :=
  ⟨fun he h => hc _ (calStart_of_free he h), fun he h => hc _ (calStart_of_busy he h),
    fun he h => hc _ (calStart_of_disabled_idle he h), fun he h => hc _ (calStart_of_disabled_running he h)⟩

end Starts

/-- Settles O41: starts by the cases of `calStart`, the phases of a run by those of their operations. -/
theorem calibration : Obligations.Calibration := by
  intro s b busy go starts
  refine ⟨fun he h => ?_, fun he h => ?_, fun he h => ?_, fun he h => ?_, fun t ht => ?_, fun hr hp hd => ?_, fun codes hs hp hc => ?_,
    fun codes hs hp hc => ?_, fun codes hs hp => ?_, fun hs hp hr => ?_, fun hs h => ?_, fun hs => ⟨fun hn => ?_, fun hd => ?_⟩⟩
  · exact yields_of_run (·.calRun b.val) rfl (calRun_of_begun (calStart_of_free he h) (.inl (calState_calBegin ▸ (by decide))))
  · exact yields_of_run (·.calRun b.val) rfl (calRun_of_begun (calStart_of_busy he h) (.inr pending_of_set))
  · exact yields_of_run (·.calRun b.val) rfl
      (calRun_of_skipped (calStart_of_disabled_idle he h) (calState_calSkip.trans h) pending_calSkip)
  · refine yields_of_run (·.calRun b.val) rfl (calRun_of_begun (calStart_of_disabled_running he h) (.inl ?_))
    rwa [calState_setF Reg.CAL_BLK.result _ rfl (by decide)]
  · exact yields_of_calStart fun e he => yields_of_run (·.calPeriod b.val) rfl ((calPeriod_of_started ht).trans he)
  · exact yields_of_calStart fun e he => yields_of_run (·.calPrecondition b.val) rfl ((calPrecondition_of_met hr hp hd).trans he)
  · refine yields_of_run (·.calMeasured b.val codes) rfl ((calMeasured_of_met hs hp).trans (if_neg ?_))
    simpa using hc
  · refine yields_of_run (·.calMeasured b.val codes) rfl ((calMeasured_of_met hs hp).trans (if_pos ?_))
    simpa using hc
  · exact yields_of_run (·.calMeasured b.val codes) rfl (calMeasured_of_waiting hp)
  · exact yields_of_run (·.calTimeout b.val) rfl (if_pos (.inr ⟨hp, hr⟩))
  · exact yields_of_run (·.calTimeout b.val) rfl (calTimeout_of_unmet hs h)
  · refine yields_of_run (·.trimStep b.val) rfl ((trimStep_of_applying hs).trans ((if_neg hn).trans ?_))
    rw [decide_eq_false hn, Bool.not_false, Bool.and_true]
  · refine yields_of_run (·.trimStep b.val) rfl ((trimStep_of_applying hs).trans ((if_pos hd).trans ?_))
    rw [decide_eq_true hd, Bool.not_true, Bool.and_false]

end Sys2Proof.Machine
end

section
/-! PROOFS. Start-up (chapter 16, R400, R418–R422), supplies and pins (R432, R454, R455), and the Tumbler's watch over cores, fabric and
temperature (chapter 17, R428–R432). -/

namespace Sys2Proof.Machine

/-! ### The cold reset of a power-up -/

/-- The links of a power-on, with the ALARM of repeater mode, leave the pins, the supplies and time. -/
theorem powerOnRepeater_pins (a : Dev) :
    a.powerOnRepeater.strapPins = a.strapPins ∧ a.powerOnRepeater.start = a.start ∧ a.powerOnRepeater.now = a.now := by
  rw [powerOnRepeater_eq]
  split
  · have h := (raise_effect a.linksRepeat ⟨2, 15, 0, 0, 4, 0, 0, 0⟩).frame
    exact ⟨(congrArg Dev.strapPins h :), (congrArg Dev.start h :), (congrArg Dev.now h :)⟩
  · exact ⟨rfl, rfl, rfl⟩

/-- The device that a cold reset starts from, before its references and its links. -/
def Dev.coldBegin (s : Dev) : Dev :=
  { Dev.init with
    free := s.free + 16, kmp := { KmpRec.init with nonceBase := s.free }, strapPins := s.strapPins
    start := { StartRec.init with vser := s.start.vser } }

/-- Where the debug port's fuse is not blown. -/
theorem coldReset_of_unblown {s : State} (h : s.fuses.debugOpen = false) :
    s.coldReset = { s with dev := s.dev.coldBegin.refFields.powerOnRepeater } := by
  simp only [State.coldReset, h, Bool.false_eq_true, if_false]
  rfl

/-- A cold reset keeps the pins and the supplies, and clears queue memory and time. -/
theorem coldBegin_starts (s : Dev) :
    s.coldBegin.refFields.powerOnRepeater.strapPins = s.strapPins ∧
      s.coldBegin.refFields.powerOnRepeater.start.vser = s.start.vser ∧
      s.coldBegin.refFields.powerOnRepeater.mem = [] ∧ s.coldBegin.refFields.powerOnRepeater.now = 0 := by
  obtain ⟨pins, start, now⟩ := powerOnRepeater_pins s.coldBegin.refFields
  obtain ⟨mem, -⟩ := coldStart_keeps s.coldBegin rfl rfl
  exact ⟨pins, (congrArg StartRec.vser start :), mem, now⟩

section StartUp

variable {s : Dev}

/-! ### POWER to FIRMWARE -/

theorem resetReleased_of_power (hb : s.bootState = bsPower) (hr : s.railsIn = true) :
    s.resetReleased =
      ({ s with start := { s.start with released := true }, tb := { TimeBase.init with ref := s.now } }.bootGo bsTumbler).tumblerExit :=
  if_pos ⟨hb, rfl, hr⟩

theorem resetReleased_of_other (h : s.bootState ≠ bsPower ∨ s.railsIn = false) :
    s.resetReleased = { s with start := { s.start with released := true } } := by
  refine if_neg fun hn => ?_
  obtain ⟨hb, -, hr⟩ := hn
  exact h.elim (· hb) (ne_false_of_eq_true hr)

/-! ### FIRMWARE to IMAGE -/

theorem not_barred_of_free {st : Nat} (hb : s.bootState = st) (hh : s.start.hold = .free) :
    ¬ (s.bootState ≠ st ∨ s.start.hold ≠ .free) := not_or.2 ⟨not_not.2 hb, not_not.2 hh⟩

theorem firmware_of_free (b : BootRead) (hb : s.bootState = bsFirmware) (hh : s.start.hold = .free) :
    s.firmware b =
      let r := bootRecord b
      ((s.useRecord r).chooseFirmware b ((r.map (fun bs => le bs 0x08 1 % 2)).getD 0)).bootGo bsSelftest :=
  if_neg (not_barred_of_free hb hh)

section Selftest

variable (uid : BitVec 64) (failed : List Nat) (hb : s.bootState = bsSelftest) (hh : s.start.hold = .free)

include hb hh

theorem selftested_of_good : s.selftested uid failed none = (s.tileTests failed).bootEnter uid bsCalibrate :=
  if_neg (not_barred_of_free hb hh)

theorem selftested_of_bad (m : Nat) : s.selftested uid failed (some m) = s.selftestHold m := if_neg (not_barred_of_free hb hh)

end Selftest

theorem bootImage_of_slots (f : Fuses) (a b : List Byte) (e : Option (Nat × Nat)) (hb : s.bootState = bsImage) (hh : s.start.hold = .free)
    (hs : s.straps.boot = 0) :
    s.bootImage f a b e = s.tryImages f e (if s.boot.imgSlot = 0 then [(0, a), (1, b)] else [(1, b), (0, a)]) :=
  if_neg (not_or.2 ⟨not_not.2 hb, not_or.2 ⟨not_not.2 hh, not_not.2 hs⟩⟩)

end StartUp

/-- The claim about start-up: power-up by what a cold reset keeps, each state by the case of its operation. -/
theorem startUp : Claim.StartUp := by
  intro s
  refine ⟨fun straps hf => ?_, ⟨fun hb hr => ?_, fun h => ?_⟩, fun hb => ?_, fun hb => ?_, fun b hb hh => ?_, fun failed hb hh => ?_,
    fun failed m hb hh => ?_, fun hb hh => ?_, fun a b e hb hh hs => ⟨fun hi => ?_, fun hi => ?_⟩⟩
  · obtain ⟨pins, vser, mem, now⟩ := coldBegin_starts { s.dev with strapPins := straps, start := { s.dev.start with vser := true } }
    exact ⟨_, congrArg Host.Outcome.next (coldReset_of_unblown hf), rfl, rfl, pins, vser, mem, now⟩
  · exact yields_of_run (·.resetReleased) rfl (resetReleased_of_power hb hr)
  · exact yields_of_run (·.resetReleased) rfl (resetReleased_of_other h)
  · exact yields_of_run (·.tumblerLate) rfl (if_pos hb)
  · exact yields_of_run (·.latchStraps) rfl (if_pos hb)
  · exact yields_of_run (·.firmware b) rfl (firmware_of_free b hb hh)
  · exact yields_of_runBoot _ (show _ = execSelftestDone failed none s from rfl) (selftested_of_good _ _ hb hh)
  · exact yields_of_runBoot _ (show _ = execSelftestDone failed (some m) s from rfl) (selftested_of_bad _ _ hb hh m.toNat)
  · exact yields_of_runBoot (·.linksLate s.fuses.uid) rfl (if_pos ⟨hb, hh⟩)
  · refine yields_of_runBoot _ (show _ = execBootImageLoaded a b s e from rfl) ((bootImage_of_slots _ a b _ hb hh hs).trans ?_)
    rw [if_pos hi]
  · refine yields_of_runBoot _ (show _ = execBootImageLoaded a b s e from rfl) ((bootImage_of_slots _ a b _ hb hh hs).trans ?_)
    rw [if_neg hi]

/-! ### Supplies and pins -/

section Supplies

variable {s : Dev}

/-- The device with its serial supplies in range. -/
def Dev.vserBack (s : Dev) : Dev := { s with start := { s.start with vser := true } }

theorem vserIn_of_repeating (hv : s.start.vser = false) (hr : s.vserBack.repeats = true) :
    s.vserIn = (s.vserBack.setF Reg.TMB_REPEATER.active 0).repeaterOn := if_pos ⟨hv, hr⟩

theorem vserIn_of_quiet (hr : s.vserBack.repeats = false) : s.vserIn = s.vserBack :=
  if_neg fun hn => ne_true_of_eq_false hr hn.2

/-- Supplies that were in range all along change nothing. -/
theorem vserIn_of_present (hv : s.start.vser = true) : s.vserIn = s := by
  have same : s.vserBack = s := by
    rw [Dev.vserBack, ← hv]
  exact (if_neg fun hn => ne_true_of_eq_false hn.1 hv).trans same

end Supplies

/-- The claim about supplies and pins: the resets by their commands, the supplies by the cases of their return. -/
theorem suppliesAndPins : Claim.SuppliesAndPins := by
  intro s
  refine ⟨rfl, rfl, yields_of_run (·.vserOut) rfl rfl, ⟨fun hv hr => ?_, fun _ hr => ?_, fun hv => ?_⟩,
    fun n => yields_of_run _ (show _ = execI3cInBandInterrupt n s from rfl) rfl⟩
  · exact yields_of_run (·.vserIn) rfl (vserIn_of_repeating hv hr)
  · exact yields_of_run (·.vserIn) rfl (vserIn_of_quiet hr)
  · exact yields_of_run (·.vserIn) rfl (vserIn_of_present hv)

/-- Settles O42: start-up, supplies and pins. -/
theorem powerAndStartUp : Obligations.PowerAndStartUp := ⟨startUp, suppliesAndPins⟩

/-! ### The Tumbler's watch -/

section Watch

variable {s : Dev}

theorem wedge_of_silent (hs : s.stewardsRun = true) (hh : s.isHalted 482 = false) :
    s.wedge =
      ((s.reach (s.tumbler.heartbeat + s.fld Reg.TMB_WDOG.fabric_timeout * Config.usPs)).countAnd Reg.TMB_STAT.wedges 0 0 2 15 0 0 1
        0).warmReset 2 true .free := if_neg (by simp [hs, hh])

/-- The trips that count towards three within an hour, this one the last of them. -/
def Dev.recentTrips (s : Dev) : List Nat := (s.tumbler.trips ++ [s.now]).drop (s.tumbler.trips.length - 2)

/-- The device with a trip counted and kept. -/
def Dev.tripCounted (s : Dev) : Dev :=
  let a := s.countAnd Reg.TMB_STAT.thermal_trips 0 0 2 15 0 0 3 0
  { a with tumbler := { a.tumbler with trips := s.recentTrips } }

/-- Is a trip the third within an hour? -/
def Dev.ThirdTrip (s : Dev) : Prop := s.recentTrips.length = 3 ∧ s.tripCounted.now ≤ s.recentTrips.headD 0 + 3600 * Config.secPs

theorem trip_of_third (h : s.ThirdTrip) : s.trip = (s.tripCounted.warmReset 3 true .forever).setF Reg.TMB_STATUS.thermal 1 :=
  congrArg (fun k => (s.tripCounted.warmReset 3 true k).setF Reg.TMB_STATUS.thermal 1) (if_pos h)

theorem trip_of_earlier (h : ¬ s.ThirdTrip) : s.trip = (s.tripCounted.warmReset 3 true .thermal).setF Reg.TMB_STATUS.thermal 1 :=
  congrArg (fun k => (s.tripCounted.warmReset 3 true k).setF Reg.TMB_STATUS.thermal 1) (if_neg h)

theorem cool_of_thermal (h : s.start.hold = .thermal) :
    s.cool =
      let a := (s.reach ((s.tumbler.trips.getLast?.getD 0) + 10 * Config.secPs)).setF Reg.TMB_STATUS.thermal 0
      if a.start.backup then { a with start := { a.start with hold := .reference } }
      else { a with start := { a.start with hold := .free } }.bootGo bsFirmware := if_pos h

theorem repeaterForce_of_inactive (h : (s.setF Reg.TMB_REPEATER.force 1).flag Reg.TMB_REPEATER.active = false) :
    s.repeaterForce true = (s.setF Reg.TMB_REPEATER.force 1).repeaterOn := if_neg (ne_true_of_eq_false h)

theorem repeaterForce_of_released (ha : (s.setF Reg.TMB_REPEATER.force 0).flag Reg.TMB_REPEATER.active = true)
    (hr : (s.setF Reg.TMB_REPEATER.force 0).repeats = false) :
    s.repeaterForce false = (s.setF Reg.TMB_REPEATER.force 0).repeaterOff := if_pos ⟨ha, hr⟩

end Watch

/-- Settles O43: each event by the case of its operation. -/
theorem tumblerWatch : Obligations.TumblerWatch := by
  intro s
  refine ⟨fun c => yields_of_run _ (show _ = execCoreReport c s from rfl) rfl, yields_of_run _ (show _ = execFabricHeartbeat s from rfl) rfl,
    fun c h => ?_, fun c h => ?_, fun h hh => ?_, ⟨fun h => ?_, fun h => ?_⟩, fun h => ⟨fun hb => ?_, fun hb => ?_⟩, fun h => ?_, fun ha hr => ?_⟩
  · exact yields_of_run (·.coreLate c.val) rfl (if_pos h)
  · exact yields_of_run _ (show _ = execStewardCoreUncorrectableError c s from rfl) (if_pos h)
  · exact yields_of_run (·.wedge) rfl (wedge_of_silent h hh)
  · exact yields_of_run (·.trip) rfl (trip_of_earlier h)
  · exact yields_of_run (·.trip) rfl (trip_of_third h)
  · exact yields_of_run (·.cool) rfl ((cool_of_thermal h).trans (if_neg (ne_true_of_eq_false hb)))
  · exact yields_of_run (·.cool) rfl ((cool_of_thermal h).trans (if_pos hb))
  · exact yields_of_run (·.repeaterForce true) rfl (repeaterForce_of_inactive h)
  · exact yields_of_run (·.repeaterForce false) rfl (repeaterForce_of_released ha hr)

end Sys2Proof.Machine
end

section
/-! PROOFS. Accesses that are allowed (R350, R471–R473), and the debug port (chapter 17): its instructions (R436–R442), its locking (R443,
R444) and its access register (R438). -/

namespace Sys2Proof.Machine

/-! ### Accesses to mapped words -/

section Accesses

variable {s : State} {who : Requester} {a : Nat} {wide : Bool} {key : Nat} {h : Reg.Hit} (ha : aligned a wide = true)
  (hl : s.dev.locate (wordAddr a) = some (key, h))

include ha hl

/-- A write that is allowed and that nothing keeps back takes effect, and is answered by whether it cut its own request off. -/
theorem regWrite_of_allowed (v : Word) (hd : who.path = .debug → s.dev.dbgOpen = true)
    (hw : s.dev.mayWrite who key h (placed a wide v) = true) (hb : s.dev.busyFor who key h (accessMask a wide) = false) :
    s.regWrite who a wide v =
      let t := ({ s with dev := s.dev.askedBy (askerOf who) } : State).writeWord who key h (accessMask a wide) (placed a wide v)
      ({ t with dev := t.dev.askedBy none }, if s.dev.cutOff t.dev who then ksBusy else ksOk) := by
  have hopen : ¬ (who.path = .debug ∧ (!s.dev.dbgOpen) = true) := fun ⟨hp, hc⟩ => by simp [hd hp] at hc
  rw [State.regWrite, if_neg (by simp [ha]), if_neg hopen, hl]
  simp only [hw, hb, Bool.not_true, Bool.false_eq_true, if_false]

/-- A read that is allowed answers what it finds. -/
theorem regRead_of_allowed (hd : who.path = .debug → s.dev.dbgOpen = true ∨ tmbWord (wordAddr a) = true)
    (hr : s.dev.mayRead who.part.val key h = true) :
    s.regRead who a wide = ((s.readWord who a wide key h).1, (s.readWord who a wide key h).2, ksOk) := by
  have hopen : ¬ (who.path = .debug ∧ (!s.dev.dbgOpen) = true ∧ (!tmbWord (wordAddr a)) = true) := fun ⟨hp, hc, ht⟩ => by
    rcases hd hp with h | h
    · simp [h] at hc
    · simp [h] at ht
  rw [State.regRead, if_neg (by simp [ha]), if_neg hopen, hl]
  simp only [hr, Bool.not_true, Bool.false_eq_true, if_false]

end Accesses

theorem hostWrite_of_register {a : Nat} (s : State) (who : Requester) (wide : Bool) (v : Word) (hw : inWindow a = false) :
    s.hostWrite who a wide v = s.regWrite who a wide v := if_neg (ne_true_of_eq_false hw)

theorem hostRead_of_register {a : Nat} (s : State) (who : Requester) (wide : Bool) (hw : inWindow a = false) :
    s.hostRead who a wide = s.regRead who a wide := if_neg (ne_true_of_eq_false hw)

/-- Settles O1: a write by `regWrite_of_allowed`, a read by `regRead_of_allowed`. -/
theorem hostAccessCompletes : Obligations.HostAccessCompletes := by
  refine ⟨fun s who a wide v key h hw ha hd hl hm hb => ?_, fun s who a wide incs key h hw ha hd hl hm => ?_⟩
  · have write : s.hostWrite who a.toNat wide v = _ := (hostWrite_of_register s who wide v hw).trans (regWrite_of_allowed ha hl v hd hm hb)
    have answers (t : State) (b : Bool) (ht : s.hostWrite who a.toNat wide v = (t, if b then ksBusy else ksOk)) :
        exec (.registerWrite who a wide v) s = .next (t.answered 0 (if b then ksBusy else ksOk)) := by
      change execRegisterWrite who a wide v s = _
      rw [execRegisterWrite, ht]
    refine ⟨fun hc => (answers _ _ write).trans ?_, fun hc => (answers _ _ write).trans ?_⟩
    · rw [if_neg (ne_true_of_eq_false hc)]
    · rw [if_pos hc]
  · have read := (hostRead_of_register s who wide hw).trans (regRead_of_allowed ha hl hd hm)
    change execRcRead who a wide incs s = _
    simp only [execRcRead, read, hl, if_true]

/-! ### Instructions of the debug port (R436–R442) -/

theorem dbgOpen_iff {s : Dev} : s.dbgOpen = true ↔ s.fld Reg.DBG_STATUS.unlocked = 1 := beq_iff_eq

section Select

variable {s : State} {c : Instr} {code : Nat} {scan : ScanMode} {f : Dev → Dev} (hc : exec c s = s.run (fun d => d.unlockedSelect code scan f))

include hc

/-- An instruction that only an unlocked port serves acts there. -/
theorem yields_of_unlocked (h : s.dev.fld Reg.DBG_STATUS.unlocked = 1) : Yields c s (f (s.dev.select code scan)) :=
  yields_of_run _ hc (if_pos (dbgOpen_iff.2 h))

/-- At a locked port it selects BYPASS. -/
theorem yields_of_locked (h : s.dev.fld Reg.DBG_STATUS.unlocked ≠ 1) : Yields c s s.dev.selectBypass :=
  yields_of_run _ hc (if_neg (mt dbgOpen_iff.1 h))

end Select

/-- Settles O44: what every port serves by its operation, what an unlocked port serves by `yields_of_unlocked`. -/
theorem debugInstructions : Obligations.DebugInstructions := by
  intro s sel cap
  refine ⟨yields_of_run (·.select diIdcode .off) rfl rfl, yields_of_run _ (show _ = execIdcode s from rfl) rfl,
    yields_of_run (·.selectBypass) rfl rfl, yields_of_run (·.select diTmb .off) rfl rfl,
    fun pins => yields_of_run _ (show _ = execSamplePreload pins s from rfl) rfl,
    fun h => ⟨?_, ?_, ?_, ?_, ?_, fun sc isl => ?_, fun sc isl => ?_, fun t x n => ?_, fun i en port q code any v m => ?_⟩⟩
  · exact yields_of_unlocked (show _ = execExtest s from rfl) h
  · exact yields_of_unlocked (show _ = execClamp s from rfl) h
  · exact yields_of_unlocked (show _ = execHighz s from rfl) h
  · exact yields_of_unlocked (show _ = execMemAccess s from rfl) h
  · exact yields_of_unlocked (show _ = execCfgAccess s from rfl) h
  · exact yields_of_unlocked (show _ = execHaltUpdate sc isl s from rfl) h
  · exact yields_of_unlocked (show _ = execHaltRelease sc isl s from rfl) h
  · exact yields_of_unlocked (show _ = execStepUpdate t x n s from rfl) h
  · exact yields_of_unlocked (show _ = execBreakUpdate i en port q code any v m s from rfl) h

/-- Settles O45: each instruction by `yields_of_locked`. -/
theorem lockedPortBypasses : Obligations.LockedPortBypasses := by
  intro s h bypass
  refine ⟨?_, ?_, ?_, ?_, ?_, fun sc isl => ?_, fun sc isl => ?_, fun t x n => ?_, fun i en port q code any v m => ?_⟩
  · exact yields_of_locked (show _ = execExtest s from rfl) h
  · exact yields_of_locked (show _ = execClamp s from rfl) h
  · exact yields_of_locked (show _ = execHighz s from rfl) h
  · exact yields_of_locked (show _ = execMemAccess s from rfl) h
  · exact yields_of_locked (show _ = execCfgAccess s from rfl) h
  · exact yields_of_locked (show _ = execHaltUpdate sc isl s from rfl) h
  · exact yields_of_locked (show _ = execHaltRelease sc isl s from rfl) h
  · exact yields_of_locked (show _ = execStepUpdate t x n s from rfl) h
  · exact yields_of_locked (show _ = execBreakUpdate i en port q code any v m s from rfl) h

/-! ### Locking (R443, R444) -/

section Locking

variable {s : State} {r : BitVec 256}

theorem debugResponse_of_lockout (r : BitVec 256) (h : (s.dev.select diResponse .off).lockedOut = true) :
    s.debugResponse r = { s with dev := s.dev.select diResponse .off } := if_pos h

variable (h : (s.dev.select diResponse .off).lockedOut = false)

include h

/-- Outside a lockout zero locks the port. -/
theorem debugResponse_of_zero :
    s.debugResponse 0 =
      ({ s with dev := (s.dev.select diResponse .off).modDbg (fun r => { r with challenge := none }) } : State).debugLock :=
  (if_neg (ne_true_of_eq_false h)).trans (if_pos rfl)

/-- Any other response uses the challenge up, and is judged by it. -/
theorem debugResponse_of_challenge {c : BitVec 256} (hr : r ≠ 0) (hc : s.dev.dbg.challenge = some c) :
    s.debugResponse r =
      let e := (s.dev.select diResponse .off).modDbg (fun r => { r with challenge := none })
      { s with dev := if responseTo c s.fuses.uid = r then e.acceptResponse else e.refuseResponse } := by
  have judged : ((s.dev.select diResponse .off).dbg.challenge.map (fun c => responseTo c s.fuses.uid == r)).getD false =
      (responseTo c s.fuses.uid == r) := by
    rw [show (s.dev.select diResponse .off).dbg.challenge = some c from hc, Option.map_some, Option.getD_some]
  refine (if_neg (ne_true_of_eq_false h)).trans ((if_neg hr).trans ?_)
  rw [judged]
  by_cases hm : responseTo c s.fuses.uid = r
  · simp only [if_pos (beq_iff_eq.2 hm), if_pos hm]
  · simp only [if_neg (mt beq_iff_eq.1 hm), if_neg hm]

end Locking

theorem debugLock_of_unblown {s : State} (h : s.fuses.debugOpen = false) :
    s.debugLock = { s with dev := s.dev.setF Reg.DBG_STATUS.unlocked 0 } := if_neg (ne_true_of_eq_false h)

/-- The claim about locking: a response by the cases of `debugResponse`. -/
theorem debugLocking : Claim.DebugLocking := by
  intro s
  refine ⟨yields_of_run _ (show _ = execDbgChallenge s from rfl) rfl, fun c r hl hr hc => ?_, fun hl r => ?_, fun hl hf => ?_, fun t ht => ?_,
    fun hu hf => ?_⟩
  · exact congrArg Host.Outcome.next (debugResponse_of_challenge hl hr hc)
  · exact congrArg Host.Outcome.next (debugResponse_of_lockout r hl)
  · exact congrArg Host.Outcome.next ((debugResponse_of_zero hl).trans (debugLock_of_unblown hf))
  · refine yields_of_run _ (show _ = execDebugLockoutEnd s from rfl) ?_
    simp only [ht]
    rfl
  · exact congrArg Host.Outcome.next ((if_pos (dbgOpen_iff.2 hu)).trans (debugLock_of_unblown hf))

/-! ### The access register (R438) and halts (R439) -/

section Access

variable {s : Dev} {w : Nat} (hw : s.accessWindow = some w) (f : Nat → Option DbgOp)

include hw

theorem accessScan_of_busy (ho : s.dbg.op.isSome = true) : s.accessScan f = s.captureAccess := by
  simp only [Dev.accessScan, hw, ho, if_true]

theorem accessScan_of_idle (ho : s.dbg.op = none) :
    s.accessScan f = s.captureAccess.modDbg (fun r => { r with op := f w }) := by
  simp only [Dev.accessScan, hw, ho, Option.isSome_none, Bool.false_eq_true, if_false]

end Access

theorem accessDone_of_op {s : State} {o : DbgOp} (ho : s.dev.dbg.op = some o) :
    s.accessDone =
      let x := s.debugOp o
      { x.2.1 with dev := x.2.1.dev.modDbg (fun r => { r with op := none, status := x.2.2, data := x.1 }) } := by
  rw [State.accessDone, ho]

theorem haltIslands_of_running {s : Dev} {i : Nat} (h : s.halted.contains i = false) : s.haltIslands [i] = { s with halted := s.halted ++ [i] } := by
  simp only [Dev.haltIslands, List.filter_cons, h, Bool.not_false, if_true, List.filter_nil]

/-- The claim about the access register: scans by `accessScan_of_busy` and `accessScan_of_idle`. -/
theorem debugAccess : Claim.DebugAccess := by
  intro s
  refine ⟨fun w hw ho => ?_, fun w hw ho => ?_, fun o ho => congrArg Host.Outcome.next (accessDone_of_op ho), fun i hi hh => ?_⟩
  · have captures (f : Nat → Option DbgOp) := accessScan_of_busy hw f ho
    exact ⟨yields_of_run _ (show _ = execAccessPoll s from rfl) (captures _),
      fun wide a => yields_of_run _ (show _ = execAccessRead wide a s from rfl) (captures _),
      fun wide a v => yields_of_run _ (show _ = execAccessWrite wide a v s from rfl) (captures _)⟩
  · have starts (f : Nat → Option DbgOp) := accessScan_of_idle hw f ho
    exact ⟨yields_of_run _ (show _ = execAccessPoll s from rfl) (starts _),
      fun wide a => yields_of_run _ (show _ = execAccessRead wide a s from rfl) (starts _),
      fun wide a v => yields_of_run _ (show _ = execAccessWrite wide a v s from rfl) (starts _)⟩
  · refine yields_of_run _ (show _ = execIslandHalted i s from rfl) ?_
    rw [if_pos hi, haltIslands_of_running hh]
    rfl

/-- Settles O46: locking and the access register. -/
theorem debugPort : Obligations.DebugPort := ⟨debugLocking, debugAccess⟩

end Sys2Proof.Machine
end

section
/-! PROOFS. What every command has in common: it completes, and leaves the commands that wait; a step runs the command at the front. -/

namespace Sys2Proof.Machine

theorem step_withCommand (s : State) (c : Instr) : step (s.withCommand c) = exec c s := rfl

theorem withFetchWord_eq_self (s : State) (nbits w : Nat) : s.withFetchWord nbits w = s := rfl

/-- Settles O49: the front of the queue is the command put there, and the decoder knows no word. -/
theorem queueAndWords : Obligations.QueueAndWords :=
  ⟨step_withCommand, fun nbits w s => ⟨rfl, withFetchWord_eq_self s nbits w⟩⟩

/-- Settles O50: what a command does outside the device is to burn fuses at most (`exec_burnsAtMost`). -/
theorem execKeepsQueue : Obligations.ExecKeepsQueue := by
  intro c s t ht
  obtain ⟨u, hu, burnt⟩ := exec_burnsAtMost c s
  obtain rfl : u = t := Host.Outcome.next.inj (hu.symm.trans ht)
  exact burnt.pending

/-- Settles O51: a command that burns fuses at most completes (`exec_burnsAtMost`). -/
theorem everyCommandCompletes : Obligations.EveryCommandCompletes := by
  intro c s
  obtain ⟨t, ht, -⟩ := exec_burnsAtMost c s
  exact ⟨t, ht⟩

end Sys2Proof.Machine
end
